-- ==== Sys2Proof/Word.lean ====
section
/-! DEFINITION. The words of the block and their plainest arithmetic.
Register and frame words are 32-bit (R4), bytes are 8-bit. Values that the specification counts, adds or compares without
wrapping are held as `Nat` or `Int`, and narrowed where they are stored. -/

namespace Sys2Proof

/-- One byte of a frame, a record, an identity memory or the flash. -/
abbrev Byte := BitVec 8

/-- One register word (R4). -/
abbrev Word := BitVec 32

/-- A host port, 0 to 3 (R28). -/
abbrev PortIx := Fin 4

/-- A cell address, region, rope in region and position packed into 14 bits (R8). -/
abbrev CellAddr := Fin 16384

/-- A global rope index, region times 32 plus the rope in the region (R9). -/
abbrev RopeIx := Fin 256

/-- A region number (R11). -/
abbrev RegionIx := Fin 8

/-- A Ridge number (R11). -/
abbrev RidgeIx := Fin 4

/-- A rope end: 0 is end A, 1 is end B (R13). -/
abbrev EndIx := Fin 2

/-- A lane port of a WN140: 0 is port A, 1 is port B. -/
abbrev LaneIx := Fin 2

/-- A stream of a port (R387): 0 FAULT, 1 LEDGER, 2 RECORDER, 3 TRACE, 4 CAN. -/
abbrev StreamIx := Fin 5

/-- An angle channel, 0 to 15 (R54). -/
abbrev ChanIx := Fin 16

/-- The bit field of `w` bits of `v` that starts at bit `lo`. -/
def bits (v lo w : Nat) : Nat := v / 2 ^ lo % 2 ^ w

/-- `v` read as a signed number of `w` bits, two's complement. -/
def toSigned (w v : Nat) : Int :=
  if v % 2 ^ w < 2 ^ (w - 1) then (v % 2 ^ w : Nat) else ((v % 2 ^ w : Nat) : Int) - (2 ^ w : Nat)

/-- The `w` low bits of a signed number, two's complement. -/
def ofSigned (w : Nat) (i : Int) : Nat := (i % ((2 ^ w : Nat) : Int)).toNat

/-- `i` held between `lo` and `hi`. -/
def clampInt (lo hi i : Int) : Int := if i < lo then lo else if hi < i then hi else i

/-- `i` saturated to a signed number of `w` bits. -/
def satSigned (w : Nat) (i : Int) : Int :=
  clampInt (-((2 ^ (w - 1) : Nat) : Int)) (((2 ^ (w - 1) : Nat) : Int) - 1) i

/-- `n` saturated to an unsigned number of `w` bits. -/
def satNat (w n : Nat) : Nat := if n < 2 ^ w then n else 2 ^ w - 1

/-- A truth value as one bit. -/
def bit (b : Bool) : Nat := if b then 1 else 0

/-- The signed difference of two unsigned `w`-bit counts (R61). -/
def signedDiff (w a b : Nat) : Int := toSigned w (a + (2 ^ w - b % 2 ^ w))

/-- Quotient rounded to nearest, halves away from zero; 0 when the divisor is 0. -/
def divRound (a : Int) (b : Nat) : Int :=
  if b = 0 then 0
  else if 0 ≤ a then (2 * a + b) / (2 * b : Int) else -((2 * (-a) + b) / (2 * b : Int))

end Sys2Proof
end

