-- ==== Sys2Proof/Card.lean ====
section
/-! DEFINITION. The route card as the machine uses it (R395): the parameters that each chapter takes from its section, as plain data. The
specification gives the sections no byte layout, so a card comes to the machine in this form (notes/assumptions/20.md). -/

namespace Sys2Proof.Machine

/-- One profile segment of the card (R56): DURATION in frames and RATE_END. -/
structure Segment where
  duration : Nat
  rateEnd : Int
  deriving DecidableEq, Repr

/-- An angle channel's definition (R54 to R58). Windows in hundredths of a degree. -/
structure AngleCfg where
  kind : Nat
  gate : Bool
  syncEn : Bool
  source : Nat
  mult : Int
  offset : Nat
  syncPhase : Nat
  segs : List Segment
  endAction : Option Nat
  lockWin : Nat
  unlockWin : Nat
  bandwidth : Nat
  nominalHz : Nat
  gridMin : Nat
  vGridNom : Option Nat
  deriving DecidableEq, Repr

/-- An unused channel. -/
def AngleCfg.unused : AngleCfg := ⟨0, false, false, 0, 0, 0, 0, [], none, 200, 2000, 10, 50, 30, none⟩

/-- The time section: R37 to R46, R56, R61. -/
structure CardTime where
  refMode : Option Nat
  refBefore : Bool
  /-- TIME_SLEW_MAX, ppm. -/
  slewMax : Nat
  /-- REF_REJECT, ns. -/
  refReject : Nat
  holdoverLimit : Nat
  lockWin : Nat
  ptpDomain : Nat
  frame20 : Bool
  lateWindow : Nat
  chans : List (Nat × AngleCfg)
  /-- Static dates of the card: time (ns ahead) or angle (ac ahead), R61. -/
  staticDates : List (Bool × Nat)
  deriving DecidableEq, Repr

/-- The defaults that chapter 02 states. -/
def CardTime.default : CardTime := ⟨none, true, 20, 1000000, 3600, 100, 0, false, 2000, [], []⟩

/-- A task descriptor of the card (R190). -/
structure TaskDesc where
  /-- The INDEX field the descriptor carries, which must be its own. -/
  index : Nat
  flow : Nat
  priority : Nat
  event : Bool
  hostCallable : Bool
  keepOnBlock : Bool
  depCount : Nat
  engineMask : Nat
  regionMask : Nat
  hwPred : Nat
  div : Nat
  phase : Nat
  releaseOfs : Nat
  deadlineOfs : Nat
  budget : Nat
  timeout : Nat
  succBase : Nat
  succN : Nat
  code : Nat
  arg : Nat
  deriving DecidableEq, Repr

/-- The scheduler's part of the card (R190, R191, R197). -/
structure CardTasks where
  descs : List TaskDesc
  succTable : List Nat
  /-- Kind of each flow: 0 PARALLEL, 1 ORDERED, 2 ATOMIC, 3 MIXED. -/
  flows : List (Nat × Nat)
  /-- Heads of the dated activations: descriptor, and time (ns from the frame epoch) or channel and angle. -/
  dated : List (Nat × Option Nat × Nat)
  /-- Fault reactions that activate or cancel a descriptor (R191, R200): level, kind, descriptor, is it an activation. -/
  reactions : List (Nat × Nat × Nat × Bool)
  deriving DecidableEq, Repr

/-- A card without tasks. -/
def CardTasks.blank : CardTasks := ⟨[], [], [], [], []⟩

/-- A station CAN channel in the card (R290, R294, R295): rates, order, filters (identifier, mask, extended) and its task. -/
structure CardCanCh where
  arbRate : Nat
  dataRate : Nat
  txOrder : Nat
  filters : List (Nat × Nat × Bool)
  task : Option Nat
  deriving DecidableEq, Repr

/-- A channel that the card does not use. -/
def CardCanCh.blank : CardCanCh := ⟨3, 2, 0, [], none⟩

/-- The bus parameters of the card (R295, R298): times in ms and s. -/
structure CardCan where
  channels : List (Nat × CardCanCh)
  rxStall : Nat
  restartDelay : Nat
  restartMax : Nat
  deriving DecidableEq, Repr

/-- The defaults of chapter 13. -/
def CardCan.default : CardCan := ⟨[], 100, 10, 4⟩

/-- A slot source (R169): a channel of a sensor cell; E_ARM (0), V_AVAIL (1) or N_INSERTABLE (2) of a region; an order; the
output of a slot; RATE of an angle channel; a binary32 constant. -/
inductive LoopSrc where
  | sensor (a ch : Nat)
  | region (r k : Nat)
  | order (k : Nat)
  | slot (j : Nat)
  | rate (n : Nat)
  | const (v : Nat)
  deriving DecidableEq, Repr

/-- The table factor of a term (R169, R172, R174): none, an angle table at an angle channel with an offset, or a
conduction-drop table indexed by a source. -/
inductive LoopTab where
  | one
  | angle (t ch ofs : Nat)
  | drop (t : Nat) (idx : LoopSrc)
  deriving DecidableEq, Repr

/-- A term of a signal: GAIN (binary32), source, alternate source and table factor (R169). -/
structure LoopTerm where
  gain : Nat
  src : LoopSrc
  alt : Option LoopSrc
  tab : LoopTab
  deriving DecidableEq, Repr

/-- A slot as the card defines it (R189). Reals are binary32 patterns. -/
structure SlotDef where
  div : Nat
  phase : Nat
  kp : Nat
  ki : Nat
  iMin : Nat
  iMax : Nat
  outMin : Nat
  outMax : Nat
  outSlew : Nat
  fb : List LoopTerm
  ref : List LoopTerm
  ff : List LoopTerm
  term : List LoopTerm
  track : List LoopTerm
  serves : Nat
  manAllowed : Bool
  missLimit : Nat
  lostLimit : Nat
  recover : Nat
  fbBlock : Bool
  frozen : Nat
  xchkTol : Nat
  xchkFrames : Nat
  deriving DecidableEq, Repr

/-- The loop section of the card: slots by index, angle tables, conduction-drop tables (I_STEP in 0.1 A, entries in mV), the
leg phases PH in ac, and the arm-current signal of each region (R183). -/
structure CardLoop where
  slots : List (Nat × SlotDef)
  angleTabs : List (Nat × List Int)
  dropTabs : List (Nat × (Nat × List Nat))
  phases : List Nat
  armSig : List (Nat × List LoopTerm)
  deriving DecidableEq, Repr

/-- No slot in use. -/
def CardLoop.blank : CardLoop := ⟨[], [], [], [0, 0, 0, 0], []⟩

/-- The parameters of R166. Fractions in 2^-48 where a field says q, else in the unit named; the ranges' own units. -/
structure CardPolicy where
  /-- 0.01 %. -/
  socMin : Nat
  socMax : Nat
  socTaper : Nat
  /-- 0.001. -/
  etaCh : Nat
  /-- 10^-6. -/
  socBmsGain : Nat
  socDisagree : Nat
  /-- s, ms. -/
  socDisagreeTime : Nat
  bmsStale : Nat
  /-- 1/16 °C. -/
  tChZero : Int
  tChFull : Int
  tHiFull : Int
  tHiZero : Int
  tPackFence : Int
  tStageW0 : Int
  tStageFence : Int
  /-- 0.01 V/°C. -/
  kWt : Nat
  /-- 0.01 %/°C. -/
  rrTcoef : Int
  /-- 1/1,000. -/
  rrEol : Nat
  /-- 1/1,024. -/
  healthAlpha : Nat
  /-- s. -/
  healthMaxAge : Nat
  /-- 0.01 %. -/
  hInit : Nat
  hDerateMin : Nat
  hFence : Nat
  /-- 1/1,000. -/
  rrJump : Nat
  qEolFrac : Nat
  kSoc : Nat
  kCost : Nat
  kHealth : Nat
  mMin : Nat
  mMax : Nat
  /-- 0.001 cost unit; Wh; 0.01 %. -/
  costRef : Nat
  qLow : Nat
  regionSkew : Nat
  /-- 0.05 A. -/
  iSlew : Nat
  iMaxAbs : Nat
  /-- 0.01 V/kW. -/
  kFf : Nat
  fenceMax : Nat
  /-- s. -/
  unfenceHold : Nat
  costDefault : Nat
  quotaDefault : Nat
  deriving DecidableEq, Repr

/-- The defaults of R166. -/
def CardPolicy.default : CardPolicy where
  socMin := 1000
  socMax := 9000
  socTaper := 500
  etaCh := 985
  socBmsGain := 1000
  socDisagree := 1000
  socDisagreeTime := 300
  bmsStale := 2000
  tChZero := 0
  tChFull := 160
  tHiFull := 720
  tHiZero := 880
  tPackFence := 960
  tStageW0 := 960
  tStageFence := 1760
  kWt := 50
  rrTcoef := -150
  rrEol := 2000
  healthAlpha := 64
  healthMaxAge := 604800
  hInit := 8000
  hDerateMin := 5000
  hFence := 1000
  rrJump := 250
  qEolFrac := 700
  kSoc := 4000
  kCost := 500
  kHealth := 500
  mMin := 50
  mMax := 2000
  costRef := 1000
  qLow := 200000
  regionSkew := 1000
  iSlew := 100
  iMaxAbs := 4000
  kFf := 2
  fenceMax := 1
  unfenceHold := 600
  costDefault := 1000
  quotaDefault := 0

/-- A recorder source (R349). A region quantity is 0 E_ARM, 1 V_AVAIL, 2 N_INSERTABLE, 3 to 5 the references V0, VH and V1, 6 the
predicted arm current; a report field 0 to 7 is V_CAP, I_CELL, V_PACK, I_PACK, I_DCDC, T_STAGE, T_PACK and the status word; a
digital word 0 to 2 is the blocked mask, the levels of TRIP_N and FAULT_N, and the safe outputs. -/
inductive RecSrc where
  | slotOut (j : Nat)
  | slotFb (j : Nat)
  | sensor (a ch : Nat)
  | region (r k : Nat)
  | angle (n : Nat)
  | report (a k : Nat)
  | digital (k : Nat)
  | ropeModes (r : Nat)
  deriving DecidableEq, Repr

/-- A recorder channel of the card (R349). DEADBAND is a binary32 pattern. -/
structure RecChan where
  src : RecSrc
  div : Nat
  phase : Nat
  deadband : Nat
  heartbeat : Nat
  noReduce : Bool
  deriving DecidableEq, Repr

/-- The recorder section of the card: its channels, the 256-bit mask of fault kinds that trigger. -/
structure CardRec where
  chans : List RecChan
  kindMask : Nat
  deriving DecidableEq, Repr

/-- A power-stage definition of the card (R453), as far as no cell register takes it from the admission writes. -/
structure StageDef where
  stageType : Nat
  cCell : Nat
  bypPattern : Nat
  deriving DecidableEq, Repr

/-- Checks, exchange and profiles of the card (R257 to R268). An action is 0 REFUSE, 1 DERATE, 2 ACCEPT. -/
structure CardPack where
  formats : List Nat
  models : List (Nat × Nat)
  chems : List Nat
  actModel : Nat
  actChem : Nat
  actProfile : Nat
  actCcell : Nat
  /-- Percent, ms, percent, ms, seconds. -/
  cTol : Nat
  bmsWait : Nat
  derate : Nat
  mirrorMs : Nat
  xchgTimeout : Nat
  /-- Profiles by PROFILE_ID: the 128 words of the profile memory. -/
  profiles : List (Nat × List Nat)
  stages : List StageDef
  /-- The definition of each region, by STAGE_TYPE. -/
  regionStage : List (Nat × Nat)
  deriving DecidableEq, Repr

/-- The defaults of chapter 11. -/
def CardPack.default : CardPack := ⟨[1], [], [], 0, 0, 0, 0, 10, 2000, 50, 100, 7200, [], [], []⟩

/-- Admission in the card (R307, R309, R411): ADMIT_RETRY_MAX, backoffs in ms, accepted steppings (major, minor; none listed
accepts any), CLOSE_CELLS, and the configuration writes of each position in their order (address, data). -/
structure CardAdmit where
  retryMax : Nat
  backoffMin : Nat
  backoffMax : Nat
  steppings : List (Nat × Nat)
  closeCells : Bool
  cells : List (Nat × List (Nat × Nat))
  deriving DecidableEq, Repr

/-- The defaults of R327. -/
def CardAdmit.default : CardAdmit := ⟨5, 1000, 60000, [], false, []⟩

/-- A rope end in the card (R78, R86): the accepted modules (vendor name and part number, 16 bytes each; none listed accepts any),
the wavelengths in nm, RX_MIN in 0.1 µW, REFUSE or ACCEPT, and TX_EQ. -/
structure CardEnd where
  accept : List (List Nat × List Nat)
  waveMin : Nat
  waveMax : Nat
  rxMin : Nat
  refuse : Bool
  txEq : Nat
  deriving DecidableEq, Repr

/-- An end of which the card says nothing. -/
def CardEnd.blank : CardEnd := ⟨[], 0, 65535, 0, false, 0x2370⟩

/-- The lane section of the card: its ends by 2 × rope + end, and whether injection on a live lane is enabled (R82). -/
structure CardLanes where
  ends : List (Nat × CardEnd)
  liveInject : Bool
  /-- HEAL_HOLD, ms (R20). -/
  healHold : Nat
  deriving DecidableEq, Repr

/-- The route card in force, as far as no register holds its parameters. -/
structure Card where
  time : CardTime
  tasks : CardTasks
  can : CardCan
  pack : CardPack
  loop : CardLoop
  policy : CardPolicy
  admission : CardAdmit
  lanes : CardLanes
  recorder : CardRec
  /-- V_SET_NOM by region, 0.05 V (R142). -/
  vSet : List (Nat × Nat)
  /-- CONV_PLAN outside a sweep and during one (R248), and EXC_MIN in 0.01 A (R249). -/
  convPlan : Nat
  sweepPlan : Nat
  excMin : Nat
  /-- Positions fitted with a WN140-S. -/
  sensors : List Nat
  /-- What the card gives the register fields that show its parameters, by field key; a field it does not list keeps its default. -/
  loads : List (Nat × Nat)
  deriving DecidableEq, Repr

/-- No card: every parameter at the default its chapter states. -/
def Card.blank : Card := ⟨CardTime.default, CardTasks.blank, CardCan.default, CardPack.default, CardLoop.blank,
  CardPolicy.default, CardAdmit.default, ⟨[], false, 1000⟩, ⟨[], 0⟩, [], 0, 0, 100, [], []⟩

end Sys2Proof.Machine
end

