-- ==== Sys2Proof/Syntax.lean ====
section
/-! DEFINITION. The commands the block takes, one constructor per row of spec/opcode_table.json, and what they carry.

The rows give no operands, so each constructor carries what the rule of its row says the event brings with it: who asks
(a host port), what it is about (a cell, a rope, a region, a channel), and what only the outside knows (a measured value,
bytes that arrive, the result of a test, the Summit clock cycles `dt` since the time base was last advanced, R36).
notes/assumptions/3.md states that choice. -/

namespace Sys2Proof

/-- The data set of a PTP Announce message that the best master clock algorithm compares (R41). -/
structure Announce where
  priority1 : Nat
  clockClass : Nat
  accuracy : Nat
  variance : Nat
  priority2 : Nat
  identity : Nat
  steps : Nat
  domain : Nat
  deriving DecidableEq, Repr

/-- A phase-locked function (R45): the time base, a Ridge lane, a WN140 port, a cell PLL or a grid channel. -/
inductive LockFn where
  | timeBase
  | ridgeLane (g : RopeIx) (e : EndIx)
  | cellLane (a : CellAddr) (b : LaneIx)
  | cellPll (a : CellAddr)
  | grid (n : Fin 2)
  deriving DecidableEq, Repr

/-- The date of an action: a short stamp, or an angle on a channel (R62, R63). -/
inductive Date where
  | time (stamp : Word)
  | angle (n : ChanIx) (ac : Word)
  deriving DecidableEq, Repr

/-- A lane receiver: the lane of a Ridge at an end of a rope, or a port of a WN140. -/
inductive LaneRef where
  | ridge (g : RopeIx) (e : EndIx)
  | cell (a : CellAddr) (b : LaneIx)
  deriving DecidableEq, Repr

/-- The content of a BREAK block (R72). -/
structure BreakBlk where
  ridge : Bool
  addr : Nat
  port : LaneIx
  cause : Fin 8
  notice : Bool
  deriving DecidableEq, Repr

/-- What a rope module's page A0h gives (R84): vendor name, part number, serial number, wavelength in nm, and byte 92. -/
structure ModuleId where
  vendor : List Byte
  partNo : List Byte
  serial : List Byte
  wavelength : Nat
  monitor : Nat
  deriving DecidableEq, Repr

/-- What a rope module's page A2h gives (R84), in the module's own units. -/
structure ModuleDiag where
  temp : Nat
  vcc : Nat
  bias : Nat
  txPower : Nat
  rxPower : Nat
  deriving DecidableEq, Repr

/-- What is fused into one WN140 and no command changes (R226, R230, R286). -/
structure CellFuses where
  /-- A WN140-S. -/
  sensor : Bool
  stepMinor : Nat
  stepMajor : Nat
  dieUid : Nat
  /-- The 256-bit ledger key, if it is fused. -/
  key : Option (List Nat)
  deriving DecidableEq, Repr

/-- A frame on a CAN bus: identifier, extended format, FD, bit rate switch, error state indicator, remote, data bytes. -/
structure BusFrame where
  id : Nat
  ext : Bool
  fdf : Bool
  brs : Bool
  esi : Bool
  remote : Bool
  data : List Nat
  deriving DecidableEq, Repr

/-- A CAN controller: the pack bus of a cell, or a station channel. -/
inductive BusIx where
  | cell (a : CellAddr)
  | station (n : Fin 2)
  deriving DecidableEq, Repr

/-- How a transmit attempt ended (R292). -/
inductive TxEnd where
  | success
  | lostArbitration
  | error
  deriving DecidableEq, Repr

/-- Who detected a bus error (R296, R300): a transmitter of a buffer, with the data-field bit of a bit error in which its
recessive bit was overwritten, and whether ISO 11898-1 leaves TEC as it is; or a receiver, with the heavier step of ISO. -/
inductive ErrRole where
  | transmitter (b : Fin 3) (clashBit : Option Nat) (tecHeld : Bool)
  | receiver (heavy : Bool)
  deriving DecidableEq, Repr


/-- The commands of the block, in the order of the table. -/
inductive Instr where
  /-- R41. A one-step or two-step PTP Sync arrives at the time port, is timestamped at the physical layer and serves as a reference event of the time base servo. `origin` is the reference time in ns, `corr` its correction, `freq` the measured frequency offset of REFCLK in units of 2^-40. -/
  | ptpSync (dt : Nat) (domain gm origin : Nat) (corr freq : Int)
  /-- R41. A PTP Announce message arrives and feeds master selection by the best master clock algorithm. -/
  | ptpAnnounce (msg : Announce)
  /-- R41. A Pdelay message of the peer-to-peer delay mechanism arrives and updates the peer delay measurement. The four time stamps of the exchange, ns. -/
  | ptpPdelay (t1 t2 t3 t4 : Nat) (corr : Int)
  /-- R41. Three Announce intervals pass without an Announce message, and the master is declared lost. -/
  | ptpMasterLost
  /-- R42. A rising edge on PPS_IN is timestamped; it gives a reference event, the PPS-mode step, or a channel synchronisation. -/
  | ppsInEdge (dt : Nat) (freq : Int)
  /-- R42. In REF_MODE 3, PPS_IN is missing for three seconds; the WC8400 follows PTP alone and sets PPS_MISSING. -/
  | ppsMissing
  /-- R45. A phase-locked function counts LOCK_N consecutive cycles inside LOCK_WIN and declares lock. -/
  | lockGained (fn : LockFn)
  /-- R45. A locked function counts UNLOCK_M consecutive cycles outside UNLOCK_WIN and clears its lock. -/
  | lockLost (fn : LockFn)
  /-- R47. LOSS_CYCLES consecutive reference events are missing; the function is declared to have lost its reference and takes FREEZE or GATE. -/
  | referenceLost (fn : LockFn)
  /-- R40. The reference offset exceeds REF_REJECT for four consecutive cycles; the reference is rejected and the time base enters holdover. -/
  | referenceRejected
  /-- R43. Holdover has lasted HOLDOVER_LIMIT, and DEGRADED is set. -/
  | holdoverLimitExpiry
  /-- R42. A host writes TIME_SET_SEC_LO, which arms the PPS-mode step at the next PPS edge. -/
  | timeSetSecWrite (p : PortIx) (secLo : Word)
  /-- R59. An order resets the profile channels of SYNC_MASK at the next frame boundary, and the frame epoch if SYNC_FRAME is set and every region is blocked. -/
  | syncGo (p : PortIx)
  /-- R56. A task executes the profile-start instruction, and the channel's segment sequence restarts from segment 0 at the next frame. -/
  | profileStart (n : ChanIx)
  /-- R56. A profile segment's DURATION in frames runs out; the next segment starts, or END_ACTION is taken after the last one. -/
  | profileSegmentEnd (n : ChanIx)
  /-- R62. A dated action is evaluated at its date, in time or in angle, and is scheduled, executed late or discarded under the late-action rule. -/
  | datedActionDue (dt : Nat) (part : Option CellAddr) (tag : Nat) (date : Date)
  /-- R53. A cell's err stays beyond 4.0 ns for two frames; it clears its lock, reports the fault and executes no edge until lock returns. -/
  | timeAlignmentLost (a : CellAddr)
  /-- R88. At each frame start the WC8400 launches a control frame, and a bulk frame if it placed grants, from every sending rope end. `m0` and `m1` are what the trackers of grid channels 0 and 1 measure: phase error and grid angle, none below GRID_MIN. `early` is the launch before the frame start, 2^-8 ns, of each rope end in turn (R71). -/
  | frameStart (dt : Nat) (m0 m1 : Option (Int × Nat)) (early : List (Fin 3277))
  /-- R209. At each frame start a cell freezes its measurements, makes due state changes, applies command fields and loads the gate timing unit. The readings of the cell's own monitors come with it. -/
  | cellFrameStart (a : CellAddr) (dt vdd33 : Nat) (dieTemp : Int)
  /-- R98. A held RUN command executes: INITIAL at frame start, then its edges, with its belay plan in force from the end of the frame. -/
  | cmdRun (a : CellAddr) (dt : Nat)
  /-- R98. A held BYPASS command holds the sub-module bypassed for the whole frame. -/
  | cmdBypass (a : CellAddr) (dt : Nat)
  /-- R98. A held BLOCK command turns all four gates off for the whole frame. -/
  | cmdBlock (a : CellAddr) (dt : Nat)
  /-- R95. A cell receives a control frame; it forwards a returned frame unchanged, or processes an outbound one: cairn block, slot, management entries and trailer. `b` is the port of arrival, `slot` the slot the cell writes, `hops` the HOPS byte on arrival. -/
  | controlFrameRx (a : CellAddr) (dt : Nat) (b : LaneIx) (cairn slot : List Byte) (entries : List (List Byte)) (hops : Byte)
  /-- R102. An accepted command with FAULT_ACK_VALID and a matching toggle removes the head of the cell's fault queue. -/
  | faultAck (a : CellAddr) (t : Fin 2)
  /-- R109. An accepted command with BULK_ACK_VALID drops every bulk record up to and including the one named. -/
  | bulkAck (a : CellAddr) (seq : Byte)
  /-- R104. A management entry with OP NOP, or an unused code, passes the cell with no action. -/
  | mgmtNop (a : CellAddr)
  /-- R105. A WRITE entry addressed to the cell stores its data under the state and range rules and returns RESULT. The EPOCH field, REG and DATA of the entry. -/
  | mgmtWrite (a : CellAddr) (epoch : Fin 65536) (reg : Byte) (data : Word)
  /-- R105. A READ entry addressed to the cell returns the register's value in DATA with RESULT. -/
  | mgmtRead (a : CellAddr) (epoch : Fin 65536) (reg : Byte)
  /-- R105. A BCAST_WRITE is applied by every cell of the rope to lane addresses, each adding 1 to RESULT. What one cell of the rope does with it. -/
  | mgmtBcastWrite (a : CellAddr) (reg : Byte) (data : Word)
  /-- R106. A PROBE entry makes the named cell send one echo block out of the arrival port in place of an IDLE block. `b` is the port on which the frame arrived. -/
  | mgmtProbe (a : CellAddr) (epoch : Fin 65536) (tag : Byte) (b : LaneIx)
  /-- R106. A Ridge receives an echo block, checks its CRC and records its timestamp less WAIT for the path delay. `rt` is the time from the probe's sync header to the echo's, 2^-8 ns. -/
  | echoRx (g : RopeIx) (e : EndIx) (bytes : List Byte) (rt : Nat)
  /-- R51. Every 100 ms the WC8400 averages the probes of each position, computes DELAY_A and DELAY_B and writes them into the cell. -/
  | delayAveragePeriod
  /-- R108. A cell granted blocks writes its oldest unacknowledged record into the following bulk frame. `body` is the length of the body in blocks. -/
  | bulkFrameRx (a : CellAddr) (body : Nat)
  /-- R249. The WC8400 receives a correlator result record and pairs V_PACK with I_PACK results to form an impedance. `blocks` are the bytes of the record, header first. -/
  | bulkCorrResultRx (dt : Nat) (blocks : List Byte)
  /-- R284. The WC8400 receives a ledger row record and delivers it to the ledger stream of every LEDGER port. -/
  | bulkLedgerRowRx (dt : Nat) (blocks : List Byte)
  /-- R262. The WC8400 receives a BMS mirror record, from which the policy engine takes BMS age, limits and capacity. -/
  | bulkBmsMirrorRx (dt : Nat) (blocks : List Byte)
  /-- R352. The WC8400 receives a cell capture record and writes each buffer entry as a CELL record. -/
  | bulkCellCaptureRx (dt : Nat) (blocks : List Byte)
  /-- R315. A Ridge receives a frame at a rope end and passes its reports, management results and trailer to the control plane. `reports` are the slots that some cell wrote, by position. -/
  | ridgeFrameRx (dt : Nat) (g : RopeIx) (e : EndIx) (cairn : List Byte) (reports : List (Fin 64 × List Byte)) (entries : List (List Byte)) (hops turned : Byte)
  /-- R111. At 2.0 µs into the frame the reports of the previous frame close and the rank engines start. -/
  | reportCutoff (dt : Nat)
  /-- R128. A region's rank completes and delivers its heads, and the redundancy registers and cell table are updated. `cycles` is the duration of the rank in Ridge clock cycles. -/
  | rankComplete (dt : Nat) (r : RegionIx) (cycles : Nat)
  /-- R128. A rank passes its bound; that frame's commands are sent EMPTY and a level-4 fault is raised. -/
  | rankLate (dt : Nat) (r : RegionIx)
  /-- R132. The edge computer of a region finishes its swaps and walk of the execution frame. `block` is the tick of a block that a task has dated into the frame. -/
  | edgeComputeDone (dt : Nat) (r : RegionIx) (block : Option (Fin 25000))
  /-- R139. The second rank pass computes each cell's belay threshold and window. -/
  | belayPassDone (dt : Nat) (r : RegionIx)
  /-- R111. At P − 1.0 µs the commands and belay plans are handed to frame assembly, and unready slots go out EMPTY. -/
  | commandHandover (dt : Nat)
  /-- R316. Rope mode control decides each rope's mode and break position from BREAKs and lane states, 1.5 µs before frame end. -/
  | modeDecide (dt : Nat)
  /-- R317. A rope's failed path has run clean for HEAL_HOLD, and the rope returns to CHAIN. -/
  | ropeHeal (dt : Nat) (g : RopeIx)
  /-- R20. A settled rope changes mode more than four times within 10 s and is placed in DOWN. -/
  | ropeUnstable (dt : Nat) (g : RopeIx)
  /-- R113. A cell has run 80 µs without a command and enters BIVOUAC. -/
  | belayHorizon (a : CellAddr) (dt : Nat)
  /-- R69. A WN140 port receives an invalid block, counts it and forwards an ERROR block in its place. -/
  | blockInvalidRx (l : LaneRef)
  /-- R69. A WN140 receives an ERROR block, counts it in FWD_ERR_COUNT and forwards it unchanged. -/
  | errorBlockRx (a : CellAddr) (b : LaneIx)
  /-- R72. A receiver counts 64 consecutive valid sync headers and gains block lock. -/
  | blockLockGained (l : LaneRef)
  /-- R72. A receiver counts 16 invalid sync headers within 64 and loses block lock. -/
  | blockLockLost (l : LaneRef)
  /-- R72. A port or Ridge lane has both PLL lock and block lock and becomes UP. The equaliser code and, of a WN140, the residence times and the turnaround it measures, in 2^-8 ns. -/
  | laneUp (l : LaneRef) (rxEq : Fin 16) (resAB resBA turn : Fin 65536)
  /-- R72. A port or Ridge lane loses lock; a WN140 sends BREAK out of its other port, and a Ridge raises a lane fault. -/
  | laneDown (l : LaneRef)
  /-- R72. Every 64 block times a port that stays down sends another BREAK out of the other port. `b` is the port that stays down. -/
  | breakRepeat (a : CellAddr) (b : LaneIx)
  /-- R313. A port receives a BREAK naming the facing port, becomes remote down and relays the BREAK. -/
  | breakRx (l : LaneRef) (x : BreakBlk)
  /-- R313. 128 block times pass without a BREAK, and the port stops being remote down. -/
  | remoteDownClear (a : CellAddr) (b : LaneIx)
  /-- R76. A 100 ms window ends; invalid blocks are compared with ERR_LIMIT, and three windows over it take the lane down. -/
  | errWindowEnd (l : LaneRef)
  /-- R77. A transmit equalisation setting is written; a valid one applies at the next block boundary, an invalid one sets WRITE_REFUSED. `p` is the host port of a write to a Ridge lane; a cell's comes through the management slot. -/
  | txEqWrite (p : Option PortIx) (l : LaneRef) (v : Word)
  /-- R81. A MAINT host sets START; the WC8400 checks the rope, broadcasts the test parameters and starts the test at a common frame. -/
  | laneTestStart (p : PortIx) (r : RegionIx)
  /-- R81. A cell does not acknowledge the test broadcast within 100 frames, and the start is refused. -/
  | laneTestAckTimeout (r : RegionIx)
  /-- R81. At TEST_START_FRAME every transmitter on the rope generates the pattern and every receiver checks it. -/
  | testStartFrameReached (r : RegionIx)
  /-- R81. The test duration ends; the checker results fill the hop table and every cell re-enters through ADMIT. The bits that the checkers of each hop have counted in error, towards end B and towards end A, from hop 0. -/
  | laneTestEnd (r : RegionIx) (down up : List Nat)
  /-- R81. A MAINT host sets ABORT, and the test ends at the next frame with the cells re-admitted. -/
  | laneTestAbort (p : PortIx) (r : RegionIx)
  /-- R80. A pattern checker sees 64 consecutive matching bits and synchronises. -/
  | checkerSyncGained (l : LaneRef)
  /-- R80. More than 256 bits within 1,024 differ; the checker loses synchronisation and TEST_ERR_COUNT saturates. -/
  | checkerSyncLost (l : LaneRef)
  /-- R82. The next transmitted bit is inverted, if the lane state or card permits it. -/
  | injSingle (p : Option PortIx) (l : LaneRef)
  /-- R82. BURST_LEN + 1 consecutive transmitted bits are inverted, if permitted. -/
  | injBurst (p : Option PortIx) (l : LaneRef)
  /-- R83. LOOPBACK connects a Ridge lane's transmitter to its receiver, accepted only while the rope is DOWN. -/
  | loopbackSet (p : PortIx) (g : RopeIx) (e : EndIx) (on : Bool)
  /-- R87. A Ridge finishes reading a module's identity and applies the card's acceptance rules. None: the module does not answer. -/
  | moduleIdRead (g : RopeIx) (e : EndIx) (id : Option ModuleId)
  /-- R87. Once per second the Ridge reads the diagnostics of every present module and checks receive power. -/
  | moduleDiagRead (g : RopeIx) (e : EndIx) (d : ModuleDiag)
  /-- R85. SDA of a Ridge I²C bus stays low for 10 ms; the Ridge sends recovery clocks and suspends the bus if it stays held. `released` says that SDA is free after nine clocks and a stop condition. -/
  | moduleBusHeld (d : RidgeIx) (bus : Fin 4) (released : Bool)
  /-- R144. Every TICK_FRAMES frames, at REPORT_CUTOFF, the policy engine latches its inputs and starts a tick. -/
  | policyTick (dt : Nat)
  /-- R145. A tick completes with new SOC, limits, allocations, references and wear weight targets. `micros` is the duration of the tick in µs. -/
  | policyTickComplete (dt micros : Nat)
  /-- R146. A tick has not completed within 500 µs and is abandoned, with POLICY_LATE set. -/
  | policyTickTimeout (dt : Nat)
  /-- R150. BMS SOC and the counted SOC have disagreed for SOC_DISAGREE_TIME, and the pack is fenced. -/
  | socDisagreeTimeout (a : CellAddr)
  /-- R151. No probe result has been used for HEALTH_MAX_AGE; H is held and HEALTH_STALE set. -/
  | healthMaxAgeExpiry (a : CellAddr)
  /-- R164. POLICY_UNFENCE_HOLD after an unfence runs out, and the policy may fence for the same cause again. `cause` is 1 to 5 as R162 lists them, 6 for R163. -/
  | policyUnfenceHoldEnd (a : CellAddr) (cause : Fin 7)
  /-- R156. A LEDGER host applies the lease terms of one pack, refused if no pack or the UID does not match. -/
  | leaseGo (p : PortIx)
  /-- R167. At 8,000 ns into the frame the loop engine evaluates its due slots in index order, with presets and mode changes. `late` lists the slots that will not be complete at LOOP_DEADLINE. -/
  | loopStart (dt : Nat) (late : List (Fin 128))
  /-- R178. At 11,500 ns the arm assembly hands over references, and slots not complete are marked missed. `took` is the duration of the step in ns. -/
  | loopDeadline (dt took : Nat)
  /-- R178. A slot misses MISS_LIMIT consecutive runs, and a loop deadline missed fault is raised. -/
  | loopMissLimit (j : Fin 128)
  /-- R179. A slot's FB age exceeds LOST_LIMIT; it enters MANUAL and raises a feedback lost fault. -/
  | feedbackLost (j : Fin 128)
  /-- R179. FB has been fresh for RECOVER frames, and the slot returns to AUTO. -/
  | feedbackRecover (j : Fin 128)
  /-- R180. A sensor value stays bit-identical for FROZEN_LIMIT reports and is treated as not fresh. `k` is the term's place in the slot, `alt` its alternate source. -/
  | sensorFrozen (j : Fin 128) (k : Fin 20) (alt : Bool)
  /-- R180. A frozen sensor shows 16 consecutive differing reports and is fresh again. -/
  | sensorUnfrozen (j : Fin 128) (k : Fin 20) (alt : Bool)
  /-- R181. Primary and alternate differ by more than XCHK_TOL for XCHK_FRAMES, and XCHK is set with a fault. -/
  | sensorDisagreement (j : Fin 128) (k : Fin 20)
  /-- R181. Primary and alternate agree for XCHK_FRAMES, and XCHK clears. -/
  | xchkClear (j : Fin 128) (k : Fin 20)
  /-- R177. An ORDER host requests AUTO or MANUAL for a slot, applied at its next run or refused. -/
  | slotGo (p : PortIx)
  /-- R187. DCDC_EN takes effect at the execution frame start; a rise enters the battery-current slot in AUTO with preset, a fall stops the stage. `ref` is the command's I_BATT_REF, 0.05 A. -/
  | dcdcEn (a : CellAddr) (en : Bool) (ref : Int)
  /-- R188. BC_LOST_LIMIT runs pass without a fresh pack-current conversion; the cell stops the DC-DC stage and raises a fault. -/
  | bcFeedbackLost (a : CellAddr)
  /-- R191. A task executes ACTIVATE, and an EVENT group is activated or refused. The task gives the head descriptor, its ARG and, for a dated activation, the date. -/
  | activateInstr (d : Fin 1024) (arg : Word) (date : Option Date)
  /-- R200. A task executes CANCEL, and the named instance is cancelled. -/
  | cancelInstr (d : Fin 1024)
  /-- R195. A dated EVENT activation reaches its date and is released, released late or ended as late. -/
  | datedActivationDue (dt : Nat) (d : Fin 1024)
  /-- R195. An instance's counter reaches 0 and its release is reached, and it enters READY. -/
  | taskReady (dt : Nat) (d : Fin 1024)
  /-- R196. An idle task engine takes the first eligible READY instance by priority, age and index. `e` is the idle engine whose turn it is. -/
  | taskDispatch (dt : Nat) (e : Fin 12)
  /-- R197. An instance finishes; it is published or held DONE by its flow, and its successors are decremented. -/
  | taskComplete (dt : Nat) (d : Fin 1024)
  /-- R196. A running instance exceeds its BUDGET; an OVERRUN entry is traced and counted. -/
  | taskOverrun (dt : Nat) (d : Fin 1024)
  /-- R199. A FRAME instance is not published at DEADLINE_OFS and ends with a task deadline fault. -/
  | taskDeadline (dt : Nat) (d : Fin 1024)
  /-- R199. An EVENT instance is not published TIMEOUT after activation and ends with a task deadline fault. -/
  | taskTimeout (dt : Nat) (d : Fin 1024)
  /-- R201. In the cycle after a predecessor ended unpublished, its dependent is cancelled. -/
  | predCancelled (dt : Nat) (d : Fin 1024)
  /-- R205. An ORDER host activates a HOST_CALLABLE EVENT descriptor with its ARG. -/
  | actGo (p : PortIx)
  /-- R205. An ORDER host cancels the instance of a HOST_CALLABLE EVENT descriptor. -/
  | cancelGo (p : PortIx)
  /-- R207. TRACE_POST entries after a fault at TRACE_FREEZE_SEV, the decision trace freezes. -/
  | traceFreeze
  /-- R207. A PROTECT or MAINT host restarts the frozen trace. -/
  | unfreeze (p : PortIx)
  /-- R208. A read of TRACE_W0 latches the selected entry and its result. -/
  | traceW0Read (p : PortIx)
  /-- R5. A read of TASK_RUNS snapshots the statistics of the selected descriptor. -/
  | taskRunsRead (p : PortIx)
  /-- R440. Both WN140 supplies are in range and the oscillator stable; power-on reset is released and the cell enters WAKE. `testMode` is what the TEST_MODE inputs say, `fused` what is fused into the part, `fuseBad` that a fuse failed its check, `headOkA` and `headOkB` that the CRC of a HEAD copy passes. -/
  | cellPowerOnReset (a : CellAddr) (testMode : Nat) (fused : CellFuses) (fuseBad headOkA headOkB : Bool)
  /-- R211. VDD33 or VDDC falls below its brown-out threshold; the cell enters OFF with every output low. -/
  | cellBrownOut (a : CellAddr)
  /-- R231. A write of EPOCH in LISTEN or BIVOUAC sets the epoch and CELL_ADDR and takes the cell to ADMIT. The EPOCH field and DATA of the entry. -/
  | epochWrite (a : CellAddr) (entryEpoch : Fin 65536) (data : Word)
  /-- R211. ENROL takes a cell from ADMIT to READY, or to FENCED if it holds a fence record. -/
  | enrol (a : CellAddr)
  /-- R224. A soft fence request takes the cell to FENCED with its gates bypassed and writes a fence record. -/
  | fenceReq (a : CellAddr)
  /-- R224. An unfence request clears a soft fence, or a hard one after OFF, and takes the cell to BIVOUAC. -/
  | unfenceReq (a : CellAddr)
  /-- R211. TO_BIVOUAC takes the cell to BIVOUAC. -/
  | toBivouac (a : CellAddr)
  /-- R211. A cell in ADMIT receives no management entry for 100 ms and enters BIVOUAC. `dt` of cell time, 2^-8 ns, has passed. -/
  | admitTimeout (a : CellAddr) (dt : Nat)
  /-- R52. DELAY_A or DELAY_B is written and applied at the frame boundary, whole or stepped. -/
  | delayWrite (a : CellAddr) (e : EndIx) (v : Word)
  /-- R220. A DESAT_N input stays low for DESAT_FILTER on an on gate; the cell turns all gates off, fires the bypass and hard-fences itself. `low` false: DESAT_N[g] has risen again. -/
  | desaturation (a : CellAddr) (dt : Nat) (g : Fin 4) (low : Bool)
  /-- R221. OVP_IN rises above OVP_REF; the cell bypasses, fires BYP_FIRE and hard-fences itself. `level` false: the comparator has fallen again. -/
  | overVoltageBypass (a : CellAddr) (dt : Nat) (level : Bool)
  /-- R223. BYP_FIRE_WIDTH runs out and BYP_FIRE falls. -/
  | bypFireEnd (a : CellAddr)
  /-- R223. BYP_CONFIRM_T passes without a confirming conversion; BYP_NOT_CONFIRMED is set and a fault queued. -/
  | bypassNotConfirmed (a : CellAddr) (dt : Nat)
  /-- R216. A target change falls due and executes, or is deferred or suppressed under minimum dwell. -/
  | gateChangeDue (a : CellAddr)
  /-- R216. MIN_DWELL after the previous change, the newest deferred target executes. -/
  | deferredChangeExec (a : CellAddr)
  /-- R214. DEAD_TIME after a change, the gates that the new pattern holds on turn on. -/
  | deadTimeTurnOn (a : CellAddr)
  /-- R235. A time or angle entry of the plan in force falls due for conversion. `n` is the entry's place in the plan. -/
  | conversionDue (a : CellAddr) (dt n : Nat)
  /-- R236. The ADC, when free, starts the waiting conversion of highest precedence. -/
  | conversionStart (a : CellAddr) (dt : Nat)
  /-- R236. A conversion not started 2,000 ns after it fell due is dropped and counted. -/
  | conversionDropped (a : CellAddr) (dt n : Nat)
  /-- R238. A conversion ends and its entry is written to the result buffer for its consumers. `raw` is the exact code before the converter's clamp. -/
  | conversionComplete (a : CellAddr) (dt : Nat) (raw : Int)
  /-- R234. The command's CONV_PLAN selects the plan in force from its execution frame start, or counts a bad value. -/
  | convPlan (a : CellAddr) (v : Fin 256)
  /-- R233. An access to PLAN_DATA reads or writes the plan entry at PLAN_IDX and increments PLAN_IDX. -/
  | planDataAccess (a : CellAddr) (write : Option Word)
  /-- R238. A read of BUF_W0 latches BUF_W1 of the selected buffer entry. -/
  | bufW0Read (a : CellAddr)
  /-- R243. A FENCED cell starts averaging 2^N_LOG2 clean conversions of CAL_SEL; otherwise it sets CAL_FAILED. -/
  | cellCalGo (a : CellAddr)
  /-- R243. The cell has averaged its conversions and sets CAL_MEAN, CAL_SPREAD and CAL_DONE. -/
  | calPointDone (a : CellAddr)
  /-- R243. A calibration point has not gathered its conversions within 5 s and ends with CAL_FAILED. -/
  | calPointTimeout (a : CellAddr) (dt : Nat)
  /-- R243. A MAINT host orders a calibration point at one cell input through the region block. -/
  | calGo (p : PortIx) (r : RegionIx)
  /-- R243. The WC8400 computes offset and gain, checks them and writes them into the cell and the power-stage record. -/
  | calStore (p : PortIx) (r : RegionIx)
  /-- R245. A correlator's CORR_EN bit rises to arm it, or clears to abort its window. -/
  | corrEn (a : CellAddr) (mask : Fin 16)
  /-- R245. CORR_RESTART aborts the window in progress and re-arms the correlator. -/
  | corrRestart (a : CellAddr) (mask : Fin 16)
  /-- R245. After SETTLE turns from arming, at a passage through 0, the correlator starts accumulating. -/
  | corrWindowStart (a : CellAddr) (dt : Nat) (k : Fin 4)
  /-- R246. After TURNS passages the window ends and a correlator result record is queued. -/
  | corrWindowEnd (a : CellAddr) (dt : Nat) (k : Fin 4)
  /-- R248. A start of the impedance sweep by host or task, refused BUSY or with all regions blocked. No port: the card's dated activation. -/
  | sweepGo (p : Option PortIx)
  /-- R248. SWEEP_STOP ends the sweep at the next frame with channel 3 at STOP. -/
  | sweepStop (p : PortIx)
  /-- R249. A correlator result finds no partner within 2 s and is counted as unpaired. -/
  | unpairedTimeout (dt : Nat)
  /-- R263. PACK_PRESENT_N has stayed low for PRESENT_DEBOUNCE, and the cell reads the pack record. -/
  | packPresentDebounced (a : CellAddr) (dt : Nat)
  /-- R263. PACK_PRESENT_N rises for 2 µs; the cell enters NO_PACK and opens a live port within 1 µs. `bounce` says that the connector was mated again at once. -/
  | packRemoved (a : CellAddr) (dt : Nat) (bounce : Bool)
  /-- R253. A sequential read of an identity record completes into the record buffer. -/
  | idRecordReadDone (a : CellAddr) (bytes : List Byte)
  /-- R253. 10 ms after an unacknowledged identity read, the read is retried, up to three times. -/
  | idNackRetry (a : CellAddr)
  /-- R253. SDA of the identity bus is held low for 10 ms; the master sends recovery clocks and may set ID_BUS_FAULT. `released` says that SDA is free after the recovery clocks. -/
  | idBusHeld (a : CellAddr) (released : Bool)
  /-- R253. Once per second a faulted identity bus is retried. -/
  | idBusRetry (a : CellAddr) (released : Bool)
  /-- R270. READ_IDS reads both identity records. -/
  | readIds (a : CellAddr)
  /-- R270. PACK_ACCEPT takes the pack from DEBOUNCE or CHECKING to OPEN. -/
  | packAccept (a : CellAddr)
  /-- R270. PACK_REFUSE sets the pack REFUSED and takes the pack bus offline. -/
  | packRefuse (a : CellAddr)
  /-- R264. PORT_CLOSE drives PACK_EN high if every condition holds, otherwise returns RESULT 2. -/
  | portClose (a : CellAddr)
  /-- R264. PORT_CLOSE_T passes without confirmation; PACK_EN falls and CLOSE_FAILED is set. -/
  | portCloseTimeout (a : CellAddr) (dt : Nat)
  /-- R264. PORT_OPEN drives PACK_EN low once the DC-DC stage has stopped. -/
  | portOpen (a : CellAddr)
  /-- R270. DETACH opens the port for removal and sets PACK_STATE DETACH_READY. -/
  | packDetach (a : CellAddr)
  /-- R255. SUMMARY_WRITE starts writing the handover summary into the non-current slot. -/
  | summaryWrite (a : CellAddr)
  /-- R255. The summary page writes and read-back complete, or fail twice and set WRITE_FAILED. -/
  | summaryWriteDone (a : CellAddr) (ok : Bool)
  /-- R256. CAL_WRITE writes the record buffer into the other calibration copy and verifies it. -/
  | calWrite (a : CellAddr)
  /-- R270. PACK_FENCE sets the pack FENCED and opens the port. -/
  | packFence (a : CellAddr)
  /-- R270. PACK_UNFENCE returns the pack to OPEN after a fresh read and check. -/
  | packUnfence (a : CellAddr)
  /-- R270. An access to REC_DATA reads or writes the record buffer word and increments REC_IDX. A write carries its data. -/
  | recDataAccess (a : CellAddr) (write : Option Word)
  /-- R270. A write to PROF_DATA stores a profile word, increments PROF_IDX and takes the CAN controller offline. -/
  | profDataAccess (a : CellAddr) (write : Option Word)
  /-- R257. ID_BMS_WAIT passes without a BMS SOC for a pack without a summary, and PK_SOC fails. -/
  | bmsWaitTimeout (a : CellAddr) (dt : Nat)
  /-- R260. The profile decoder takes a receive queue entry, applies its signal items and acknowledges it. -/
  | profileDecode (a : CellAddr) (dt : Nat)
  /-- R261. A profile target's age exceeds its TIMEOUT and it becomes stale. -/
  | profileTargetStale (a : CellAddr) (dt : Nat) (code : Fin 14)
  /-- R261. The FENCE target stays non-zero for FENCE_DEBOUNCE and BMS_FENCE is set. -/
  | bmsFenceDebounce (a : CellAddr) (dt : Nat)
  /-- R292. A periodic profile transmit item falls due and is loaded, or skipped if its buffer is pending. -/
  | profileTxDue (a : CellAddr) (dt : Nat) (k : Fin 2)
  /-- R262. BMS_MIRROR_MS passes, or the flags change, and a BMS mirror record is queued. -/
  | bmsMirrorDue (a : CellAddr) (dt : Nat)
  /-- R266. A MAINT host orders a hot pack exchange, accepted into RAMPING or AWAIT_PACK or refused. -/
  | xchgGo (p : PortIx)
  /-- R267. Ten consecutive fresh reports show pack current at or below PORT_OPEN_I, and the exchange moves to DETACHING. -/
  | xchgRampDone (a : CellAddr)
  /-- R268. XCHG_ABORT ends the exchange as ABORTED, or is refused in CHECKING and CLOSING. -/
  | xchgAbort (p : PortIx)
  /-- R268. XCHG_TIMEOUT expires in SAFE_TO_REMOVE or AWAIT_PACK, and the exchange ends TIMED_OUT. -/
  | xchgTimeout (a : CellAddr) (dt : Nat)
  /-- R278. The command's LEDGER_COMMIT commits a PACK_CLOSE or COMMAND row. -/
  | ledgerCommit (a : CellAddr)
  /-- R278. A cell TAI second that is a multiple of COMMIT_PERIOD commits a PERIODIC or DAILY row. `dt` of cell time, 2^-8 ns, has passed. -/
  | ledgerPeriodic (a : CellAddr) (dt : Nat)
  /-- R278. VDD33 falls below the early-warning threshold, and a POWER_FAIL row is committed. -/
  | vdd33EarlyWarning (a : CellAddr) (dt : Nat)
  /-- R451. VDD33 rises past 3.00 V before a brown-out, and the cell runs on. -/
  | vdd33WarningClear (a : CellAddr)
  /-- R279. A two-phase commit writes and verifies its row and HEAD copy, and any merged request follows. `ok` says whether the phase read back. -/
  | ledgerCommitDone (a : CellAddr) (phase2 ok : Bool)
  /-- R288. ROW_FETCH copies the row ROW_SEL into ROW_W0–ROW_W7. -/
  | rowFetch (a : CellAddr) (storeOk : Bool)
  /-- R285. A LEDGER host fetches a row from a cell's ring through the management slot. -/
  | ledgerGo (p : PortIx)
  /-- R294. A controller correctly receives a frame, filters it and stores it in the receive queue or discards it. -/
  | canFrameRx (dt : Nat) (n : BusIx) (f : BusFrame)
  /-- R292. A transmit attempt ends: success, lost arbitration or error, with retry or one-shot result. `tdc` is the measured transmitter delay in CAN clock periods, where one was measured. -/
  | canTxDone (dt : Nat) (n : BusIx) (b : Fin 3) (how : TxEnd) (tdc : Option Nat)
  /-- R296. A bus error updates TEC or REC, changing the error state up to BUS_OFF. `kind` as LAST_ERR codes it. -/
  | canBusError (dt : Nat) (n : BusIx) (kind : Fin 8) (dataPhase : Bool) (role : ErrRole)
  /-- R295. The queue consumer acknowledges and releases the head entry. -/
  | rxAck (n : BusIx)
  /-- R302. Buffer 2 is set pending for transmission, or refused BUSY. `p` is the host port of a station order; a cell's order comes through the management slot. -/
  | tx2Go (p : Option PortIx) (n : BusIx)
  /-- R293. A pending buffer 2 is aborted, or ends ABORTED after its current attempt. -/
  | tx2Abort (p : Option PortIx) (n : BusIx)
  /-- R291. A write of CAN_CFG while OFFLINE sets the rates and takes the pack bus online. -/
  | canCfgWrite (a : CellAddr) (data : Word)
  /-- R291. A controller going online sees 11 consecutive recessive bits and joins bus traffic. -/
  | canBusIdleSeen (n : BusIx)
  /-- R298. The WC8400 writes CAN_RESTART to restart a cell's pack bus from BUS_OFF. -/
  | canRestart (a : CellAddr)
  /-- R298. A host sets RESTART_GO of a station channel to restart it from BUS_OFF. -/
  | channelRestartGo (p : PortIx) (n : Fin 2)
  /-- R298. A MAINT host orders a restart of a cell's pack bus. -/
  | cellCanRestart (p : PortIx)
  /-- R298. CAN_RESTART_DELAY after BUS_OFF the policy engine orders a restart within CAN_RESTART_MAX. -/
  | canAutoRestart (dt : Nat) (n : BusIx)
  /-- R298. 128 sequences of 11 recessive bits are seen, and the controller enters ERROR_ACTIVE with counters at 0. -/
  | canRecoveryDone (n : BusIx)
  /-- R299. 500 ms pass without acknowledgement or reception; BUS_ALONE is set and retransmission paced. -/
  | busAlone (dt : Nat) (n : BusIx)
  /-- R299. While BUS_ALONE, one paced attempt is started every 100 ms. -/
  | busAloneAttempt (n : BusIx)
  /-- R295. A station queue head stays owned longer than RX_STALL, and a bus fault is raised. -/
  | canRxStall (dt : Nat) (n : BusIx)
  /-- R300. 16 bit errors at one position under one identifier abort the buffer with result CLASH. -/
  | identClash (n : BusIx) (b : Fin 3)
  /-- R304. The WC8400 finds a cell in LISTEN or BIVOUAC at a populated position and starts admitting it. -/
  | admissionStart (a : CellAddr)
  /-- R304. Every 10 ms a READ of CELL_STATE is sent to B-served positions that give no report. -/
  | admitPollRead (a : CellAddr)
  /-- R306. No confirmation of the EPOCH write within two frames; it is repeated or the attempt fails. -/
  | epochConfirmTimeout (a : CellAddr)
  /-- R309. The backoff after a failed attempt ends and the next admission attempt may start. -/
  | admitBackoffEnd (a : CellAddr) (dt : Nat)
  /-- R309. Once per ADMIT_BACKOFF_MAX the DIE_UID of an abandoned position is read for a change. -/
  | abandonedUidCheck (a : CellAddr)
  /-- R309. A MAINT host clears an abandoned position's failures, or re-admits an enrolled cell. -/
  | readmitGo (p : PortIx)
  /-- R311. No valid report from a cell for 80 µs; it is counted as BIVOUAC and sent TO_BIVOUAC. -/
  | cellLost (a : CellAddr)
  /-- R318. A MAINT host takes a rope out of service as a fence-rope reaction does. -/
  | ropeDownGo (p : PortIx)
  /-- R318. A MAINT host returns a DOWN rope to service, and both Ridges launch frames on it again. -/
  | ropeUpGo (p : PortIx)
  /-- R320. A Ridge fails; the Summit declares it lost and holds it in reset, and its partner takes its ropes into TRAVERSE. `detail` is 0 for the status exchange, 1 for the synthesiser, 2 for the temperature. -/
  | ridgeFailure (d : RidgeIx) (detail : Fin 3)
  /-- R322. A MAINT host releases a lost Ridge from reset, refused while hot or while its partner is lost. -/
  | ridgeRestart (p : PortIx)
  /-- R322. A restarted Ridge ends its self-test and RIDGE_RESULT shows done or failed. -/
  | ridgeSelfTestDone (d : RidgeIx) (ok : Bool)
  /-- R319. A die-to-die link fails, and each Ridge sets its own ropes to SPLIT at n. -/
  | dieToDieLinkLost (k : Fin 2)
  /-- R319. A die-to-die link returns, and its ropes heal under the heal rule. -/
  | dieToDieLinkUp (k : Fin 2)
  /-- R323. A lockstep comparator finds a mismatch; the active plane's outputs are blocked, or the spare is taken out of service. -/
  | lockstepMismatch (k : Fin 2)
  /-- R26. At the next frame boundary the spare plane becomes active and a plane failover fault is raised. -/
  | planeFailover
  /-- R26. A failed plane has been reset and resynchronised and is declared the new spare. -/
  | planeResyncDone
  /-- R328. The collector receives a fault message and places it in the cycle in progress. `frame` is the frame of the report that carried the message, `late` that it came after its cutoff. -/
  | faultMessageRx (msg : BitVec 64) (frame : Word) (late : Bool)
  /-- R336. A host acknowledges one active-table entry by key. -/
  | ackGo (p : PortIx)
  /-- R336. A host acknowledges every active-table entry. -/
  | ackAll (p : PortIx)
  /-- R338. A PROTECT host clears the first-fault register at the next cycle close. -/
  | firstReset (p : PortIx)
  /-- R342. A PROTECT host releases TRIP_N, refused while a severity-7 entry or a safety trip demand is held. -/
  | tripReset (p : PortIx)
  /-- R340. A host injects a fault message, delivered into the cycle or through the named cell. -/
  | injGo (p : PortIx)
  /-- R348. A cell queues an injected level-1 fault message with INJECTED set. -/
  | cellInjGo (a : CellAddr)
  /-- R343. A MAINT host lifts the fence of a unit named by level and index. -/
  | unfenceGo (p : PortIx)
  /-- R341. A PROTECT host writes FAULT_HOLD, which holds FAULT_N low outside pulses. -/
  | faultHoldWrite (p : PortIx) (v : Bool)
  /-- R341. The 2 ms FAULT_N pulse ends and FAULT_N follows FAULT_HOLD. -/
  | faultNPulseEnd (dt : Nat)
  /-- R5. A read of FIRST_MSG_LO snapshots the first-fault register. -/
  | firstMsgLoRead (p : PortIx)
  /-- R345. A read of LOG_W0 latches the selected fault log entry and its result. -/
  | logW0Read (p : PortIx)
  /-- R5. A read of HEAD_LO snapshots the cell's fault queue head. -/
  | headLoRead (a : CellAddr)
  /-- R357. A 1 ms recorder window ends and the rate level is raised or lowered. -/
  | rateWindowEnd (dt : Nat)
  /-- R353. A level trigger's condition holds for LT_HOLD samples and triggers the recorder. -/
  | levelTrigger (t : Fin 32)
  /-- R353. A PROTECT host triggers the recorder from the start of the next frame. -/
  | trigGo (p : PortIx)
  /-- R353. A task executes its trigger instruction and triggers the recorder. -/
  | recorderTriggerInstr (d : Fin 1024)
  /-- R354. PRE_TIME has passed since the buffer was taken, and the recorder enters ARMED. -/
  | preTimeExpiry (dt : Nat)
  /-- R354. POST_TIME after the trigger the buffer goes to CLOSING and the recorder re-arms or enters FULL. -/
  | postTimeExpiry (dt : Nat)
  /-- R356. 20 ms after its post part ends a CLOSING buffer becomes HELD. -/
  | closingEnd (dt : Nat) (b : Fin 16)
  /-- R356. A PROTECT host releases a HELD buffer. -/
  | relGo (p : PortIx)
  /-- R360. A read of RD_W0 latches a recorder record and increments RD_IDX. -/
  | rdW0Read (p : PortIx)
  /-- R5. A read of BD_STATE snapshots the selected buffer's description. -/
  | bdStateRead (p : PortIx)
  /-- R362. Every 250 µs the safety block evaluates each input on its filtered channels and updates its state. `chs` gives the filtered levels of channels A and B of the eight inputs, `fb0` and `fb1` those of SAFE_FB0 and SAFE_FB1. -/
  | safetyEvaluation (dt : Nat) (chs : List (Bool × Bool)) (fb0 fb1 : Bool)
  /-- R363. TPA or TPB drops for TP_WIDTH once per TP_PERIOD and the pulse is checked on its channel. `seen` gives per input whether the pulse was seen on channels A and B; none where the channel is not evaluated. -/
  | testPulse (dt : Nat) (tpb : Bool) (seen : List (Option Bool × Option Bool))
  /-- R362. An input's channels disagree longer than DISC_TIME and it enters FAULT. -/
  | discrepancyTimeout (dt : Nat) (x : Fin 8)
  /-- R362. A FAULT input runs clean for 10 test periods and enters LATCHED. -/
  | inputFaultClear (dt : Nat) (x : Fin 8)
  /-- R366. An output's OFF_DELAY runs out and the output is de-energised. -/
  | offDelayExpiry (dt : Nat) (y : Fin 2)
  /-- R368. A PROTECT host resets the safe outputs, which re-energise if every condition holds. -/
  | safetyReset (p : PortIx)
  /-- R368. Every 10 s each output channel is switched off for 300 µs to prove it can switch off. -/
  | outputOffPulseTest (dt : Nat) (y ch : Fin 2) (ok : Bool)
  /-- R369. SAFE_FB fails to follow an output change within FB_TIME; the output is de-energised with a fault. -/
  | fbTimeExpiry (dt : Nat) (y : Fin 2)
  /-- R370. DEGRADED_LEFT reaches 0; a trip is demanded and every output de-energised. -/
  | degradedExpiry (dt : Nat)
  /-- R378. A host port's link comes up and the port enters LINKED. -/
  | hostLinkUp (p : PortIx) (width speed : Fin 8)
  /-- R379. A host link goes down and the port detaches with cause 1. -/
  | hostLinkDown (p : PortIx)
  /-- R379. Hh_RESET_N is asserted and the port goes DOWN with cause 2. -/
  | hostResetAssert (p : PortIx)
  /-- R379. A Function Level Reset or entry to D3hot detaches the port with cause 3. -/
  | functionLevelReset (p : PortIx)
  /-- R379. Bus Master Enable is cleared and the port detaches with cause 4. -/
  | busMasterDisable (p : PortIx)
  /-- R379. An uncorrectable error is reported under AER and the port detaches with cause 6. -/
  | aerUncorrectable (p : PortIx)
  /-- R378. A host attaches its LINKED port and takes its rights. `bme`, `mse` and `mps` are Bus Master Enable, Memory Space Enable and Max Payload Size of the function. -/
  | attach (p : PortIx) (bme mse : Bool) (mps : Nat)
  /-- R379. A host detaches its port in order, ending its rights and streams. -/
  | detach (p : PortIx)
  /-- R381. An ORDER port claims the order token, refused while the other holds it. -/
  | orderClaim (p : PortIx)
  /-- R381. The token holder gives the order token back without starting a hold. -/
  | orderRelease (p : PortIx)
  /-- R380. A write of HEARTBEAT restarts the port's watchdog. -/
  | heartbeat (p : PortIx) (v : Word)
  /-- R380. HOST_WATCHDOG passes without a heartbeat and the port detaches with cause 5. -/
  | hostWatchdogExpiry (dt : Nat) (p : PortIx)
  /-- R382. The token holder commits its order set registers as new targets from the next LOOP_START. -/
  | orderGo (p : PortIx)
  /-- R385. ORDER_HOLD after the holder's detach, the targets become FALLBACK and the applied values ramp there. -/
  | orderHoldExpiry (dt : Nat)
  /-- R386. An ORDER or PROTECT host blocks the regions of BLOCK_REQ. -/
  | blockGo (p : PortIx)
  /-- R386. The token holder deblocks the regions of DEBLOCK_REQ, refused whole on any deblock refusal. -/
  | deblockGo (p : PortIx)
  /-- R386. A PROTECT host drives TRIP_N low and blocks every region. -/
  | tripGo (p : PortIx)
  /-- R387. A host sets ENABLE and the stream becomes ACTIVE with its ring, or is refused. -/
  | streamEnable (p : PortIx) (st : StreamIx)
  /-- R388. A host writes RD_PTR after consuming records, which frees ring space. -/
  | rdPtrWrite (p : PortIx) (st : StreamIx) (v : Word)
  /-- R388. A buffered stream record, once the ring has room, is written by DMA and the head mirror updated. -/
  | streamRecordWrite (dt : Nat) (p : PortIx) (st : StreamIx)
  /-- R388. A record that finds its stream buffer full is dropped whole and counted. `len` is the length of the record that finds the buffer full. -/
  | streamRecordDrop (p : PortIx) (st : StreamIx) (len : Nat)
  /-- R390. The link partner acknowledges a DMA write and its in-flight entry is freed. -/
  | dmaAck (p : PortIx)
  /-- R392. INT_DELAY after the first unsignalled record, the stream's MSI-X vector fires. -/
  | intDelayExpiry (dt : Nat) (p : PortIx) (st : StreamIx)
  /-- R375. A BAR0 access other than one aligned full word is rejected and counted in ACCESS_ERR. -/
  | malformedAccess (p : PortIx) (write : Bool)
  /-- R414. A write to a register with no row of its own is checked field by field against rights and applied. `addr` is the byte offset in the host window. -/
  | registerWrite (p : PortIx) (addr : Nat) (data : Word)
  /-- R402. RESET_N is released and the WC8400 loads and checks its fuses in RESET. `testMode` is TEST_MODE at the release; `ok` says that the fuse block agrees with its redundant copy. -/
  | wcResetRelease (testMode : Fin 4) (ok : Bool)
  /-- R403. The built-in tests end; start-up continues, possibly degraded, or halts. Each operand says what failed: the Summit common logic, the safety block, control planes, Ridges, recorder memory. -/
  | selfTestDone (summit safety : Bool) (planes : List (Fin 2)) (ridges : List RidgeIx) (recorder : Bool)
  /-- R397. The route card copies are read and a candidate selected by signature, or the device halts. Whether each copy could be read, and whether its digest and signature hold. -/
  | cardReadDone (readA readB sigA sigB : Bool)
  /-- R400. The validator finishes; the card passes or the device halts in HALT_CONFIG. `image` is a conflict found in the image itself, with its detail; `card` is what the image says. -/
  | validateDone (image : Option (Fin 65536 × Word)) (card : Machine.Card)
  /-- R402. The card is loaded, the commit record written if absent and key and rollback fuses blown as set. `readBack` says that the configuration read back as written. -/
  | configureDone (readBack : Bool)
  /-- R402. Lanes and links are up and frames launched; the device enters RUN and releases TRIP_N. `ms` is the time since the release of RESET_N. -/
  | linksDone (ms : Nat)
  /-- R404. A port of a halted WC8400 restarts it from RESET. -/
  | restartGo (p : PortIx)
  /-- R405. A MAINT host erases a 64 KiB sector of the inactive copy. -/
  | eraseGo (p : PortIx)
  /-- R405. A MAINT host programs a 256-byte page of the inactive copy. -/
  | programGo (p : PortIx)
  /-- R405. A host reads a page of flash into FLASH_PAGE0–63. -/
  | readGo (p : PortIx)
  /-- R405. A flash operation completes or ends in a flash error. -/
  | flashOpDone (ok : Bool)
  /-- R406. A MAINT host starts re-provisioning with every region blocked. -/
  | provisionGo (p : PortIx)
  /-- R407. The inactive copy passes or fails validation; a passing one is switched in at the next frame boundary. As CARD_READ_DONE and VALIDATE_DONE, for the copy being provisioned. -/
  | provisionDone (dt : Nat) (sigOk : Bool) (image : Option (Fin 65536 × Word)) (card : Machine.Card)
  /-- R410. A MAINT host arms field closure of the WC8400. -/
  | fieldCloseArm (p : PortIx)
  /-- R410. Within 10 s of arming, a MAINT host blows the WC8400 field fuse. -/
  | fieldCloseGo (p : PortIx) (dt : Nat)
  /-- R410. 10 s pass after FIELD_CLOSE_ARM without FIELD_CLOSE_GO, and the arm expires. -/
  | fieldCloseArmExpiry (dt : Nat)
  /-- R411. A WN140 in ADMIT blows its field fuse when the code matches its DIE_UID. `readBack` says that the fuse reads back closed. -/
  | cellFieldCloseGo (a : CellAddr) (readBack : Bool)
  /-- R409. A fuse disagrees with its redundant copy in service and FUSE_INTEGRITY is raised. `row` is the fuse row that disagrees. -/
  | fuseIntegrityFailure (row : Nat)
  /-- R423. A WC8400 supply is outside its operating range for 10 µs and a SUPPLY fault is raised. `mv` is the measured supply in mV. -/
  | supplyOutOfRange (k : Fin 5) (mv : Nat)
  /-- R423. A WC8400 supply falls below its reset threshold and the device enters reset within 1 µs. -/
  | supplyBelowReset (k : Fin 5)
  /-- R423. VS24A or VS24B is outside its monitor window for 1 ms, a safety block failure that trips the station. -/
  | vs24OutOfWindow (k : Fin 2)
  /-- R428. A die temperature sample raises or clears the warning, or shuts down a Ridge or the Summit. `t` is in the unit of the die temperature registers. -/
  | dieTempSample (die : Fin 5) (t : Int)
  /-- R44. A read of TIME_NS snapshots the time base and frame number for that port. -/
  | timeNsRead (dt : Nat) (p : PortIx)
  /-- R5. A read of an angle channel's ANGLE snapshots its fraction, RATE and stamp. -/
  | angleRead (dt : Nat) (p : PortIx) (n : ChanIx)
  /-- R5. A read of PTP_GM_ID_LO snapshots the grandmaster identity. -/
  | ptpGmIdLoRead (p : PortIx)
  /-- R5. A read of DIE_UID_LO snapshots the die identity. -/
  | dieUidLoRead (p : PortIx)
  /-- R5. A read of CELL_TIME_NS snapshots the cell time seconds. -/
  | cellTimeNsRead (a : CellAddr)
  /-- R5. A read of TEST_ERR_COUNT snapshots TEST_BITS. -/
  | testErrCountRead (p : PortIx) (lane : LaneRef)
  /-- R143. A read of PROBE_KEY snapshots the rank probe of the selected cell. -/
  | probeKeyRead (p : PortIx) (r : RegionIx)
  /-- R5. A read of PR_SOC snapshots the policy probe of the selected cell. -/
  | prSocRead (p : PortIx)
  /-- R5. A read of BC_INTEG snapshots the battery-current slot state. -/
  | bcIntegRead (a : CellAddr)
  /-- R5. A read of a slot's OUT snapshots its integrator, error and status. -/
  | slotOutRead (p : PortIx) (j : Fin 128)
  /-- R5. A read of REF_V0 snapshots the region loop outputs. -/
  | refV0Read (p : PortIx) (r : RegionIx)
  /-- R5. A read of CORR_RE snapshots the correlator's last result. -/
  | corrReRead (a : CellAddr) (k : Fin 4)
  /-- R5. A read of IMP_ABS snapshots the impedance probe of the selected cell and point. -/
  | impAbsRead (p : PortIx)
  /-- R5. A read of ADM_STATE snapshots the admission probe of the selected cell. -/
  | admStateRead (p : PortIx)
  /-- R5. A read of PP_PACK_STATE snapshots the pack probe of the selected cell. -/
  | ppPackStateRead (p : PortIx)
  /-- R5. A read of CHARGE_WH_LO snapshots the live energy counts. -/
  | chargeWhLoRead (a : CellAddr)
  /-- R419. A read of a cell table entry's word 0 snapshots words 1–3. -/
  | ctStateRead (p : PortIx) (a : CellAddr)
  /-- R263. PACK_PRESENT_N falls while the cell is in NO_PACK, and the cell enters DEBOUNCE and starts timing PRESENT_DEBOUNCE. -/
  | packConnectorMated (a : CellAddr) (dt : Nat)
  /-- R256. The cell's write and read-back of the other calibration copy completes or fails, and CAL_RESULT becomes 3 or 7. -/
  | calCopyWriteDone (a : CellAddr) (ok : Bool)
  /-- R392. A correctable error is reported on a host link, setting LINK_ERR_SEEN and signalling MSI-X vector 0. -/
  | linkCorrectableError (p : PortIx)
  /-- R33. The Summit common logic fails in service; TRIP_N is driven low and the safe outputs are de-energised. -/
  | summitCommonLogicFailure
  /-- R371. The running self-test of the safety block fails, with cause 8; both safe outputs are de-energised and the station trips. -/
  | safetyBlockSelfTestFailure
  /-- R368. The continuous read-back of a safe output disagrees with its command; both channels are de-energised, an output fault with cause 5 is raised and a trip is demanded. -/
  | safeOutputReadbackMismatch (y : Fin 2)
  /-- R435. RESET_N is driven low from outside, and the WC8400 enters reset with every output in its reset state. -/
  | wcResetNAsserted
  /-- R423. A WC8400 supply that fell below its reset threshold returns, and the device restarts from RESET. -/
  | wcSupplyReturn (k : Fin 5)
  /-- R352. 1 ms after a protection action the cell ends its capture with the entries written so far and queues it, if fewer than 60 have been written. -/
  | cellCaptureWindowEnd (a : CellAddr) (dt : Nat)
  deriving DecidableEq, Repr

end Sys2Proof
end

