-- ==== Sys2Proof/Config.lean ====
section
/-! DEFINITION. What the specification leaves open, as constants without a body, and the fixed sizes it states.
Each `opaque` constant is a free value: nothing can be proved about which value it has, so a statement about it holds for
every value. notes/assumptions/2.md lists them. -/

namespace Sys2Proof

/-- A value the specification leaves undefined, by the number of the occurrence (the state counts occurrences). -/
opaque Config.freeValue : Nat → Nat

/-- The phase term of the time base servo, in units of 2^-40, for an offset in ns, before its limit (R39 gives no law). -/
opaque Config.servoPhase : Int → Int

/-- What the grid tracker adds to RATE (2^-16 ac/ns) for a bandwidth in Hz, the phase error of the frame before and the one of
this frame, in short-angle units; R55 states the loop's order, damping and bandwidth and no difference equation. -/
opaque Config.gridRateStep : Nat → Int → Int → Int

/-- The rate the cell PLL adds, in units of 2^-40, for a phase error in 2^-8 ns (R50 states no law). -/
opaque Config.pllStep : Int → Int

/-- The integer that a unit takes from a binary32 value that is not a number (the rules give none). -/
opaque Config.nanAsInt : Int

/-- How far the cosine and sine of a correlator lie from their true values, in units of 2^-48 by phase; R244 bounds it. -/
opaque Config.sineError : Nat → Int

/-- The resistance ratio of a probe result, in 2^-48, where Z_BOL or its temperature factor is not above 0 and R151 divides by
it: by |Z| (binary32) and temperature (1/16 °C). -/
opaque Config.ratioOpen : Nat → Int → Int

/-- The battery current reference, 0.05 A before slew and clamp, of a pack whose reported voltage is 0 (R160 divides by it). -/
opaque Config.refAtZeroVolts : Nat → Int

/-- A binary32 quotient that R249 forms with a divisor of 0 (a current of 0, a window without length), by the cell. -/
opaque Config.quotientOpen : Nat → Nat

/-- The 64 bits in the place of a MAC that a die without a fused ledger key would write, by the bytes covered (R277 keys every
MAC; R307 enrols no WN140-B without a key). -/
opaque Config.keylessMac : List Nat → Nat

end Sys2Proof
end

