-- ==== Sys2Proof/Machine/Arith.lean ====
section
/-! DEFINITION. Arithmetic that several units share: IEEE 754 binary32 and binary64 on their bit patterns (R169, R171, R242,
R244, R260), and sine, arc sine and phase on whole turns of 2^32. -/

namespace Sys2Proof.Machine

/-- An IEEE 754 binary format: precision, exponent bias and the code of infinity. -/
structure Fmt where
  prec : Nat
  bias : Nat
  width : Nat
  deriving DecidableEq, Repr

/-- binary32. -/
def f32 : Fmt := ⟨24, 127, 32⟩

/-- binary64. -/
def f64 : Fmt := ⟨53, 1023, 64⟩

/-- The code of infinity in a format. -/
def Fmt.infCode (f : Fmt) : Nat := 2 ^ (f.width - 1) - 2 ^ (f.prec - 1)

/-- A value of an IEEE format, or an exact result before rounding: (−1)^neg × num / den, an infinity, or not a number. -/
inductive Fp where
  | fin (neg : Bool) (num den : Nat)
  | inf (neg : Bool)
  | nan
  deriving DecidableEq, Repr

/-- The value of a bit pattern. (notes/assumptions: 5 PRESUMED) -/
def Fmt.dec (f : Fmt) (b : Nat) : Fp :=
  let neg := decide (bits b (f.width - 1) 1 = 1)
  let x := b % 2 ^ (f.width - 1)
  let ex := x / 2 ^ (f.prec - 1)
  let fr := x % 2 ^ (f.prec - 1)
  if f.infCode ≤ x then (if x = f.infCode then .inf neg else .nan)
  else if ex = 0 then .fin neg fr (2 ^ (f.bias + f.prec - 2))
  else
    let m := fr + 2 ^ (f.prec - 1)
    let s := f.bias + f.prec - 1
    if s ≤ ex then .fin neg (m * 2 ^ (ex - s)) 1 else .fin neg m (2 ^ (s - ex))

/-- The binary logarithm of num / den, rounded down. -/
def ratLog2 (num den : Nat) : Int :=
  let l : Int := (Nat.log2 num : Int) - Nat.log2 den
  let below := if 0 ≤ l then decide (num < den * 2 ^ l.toNat) else decide (num * 2 ^ (-l).toNat < den)
  if below then l - 1 else l

/-- num / den rounded to an integer, ties to even. -/
def divEven (num den : Nat) : Nat :=
  let q := num / den
  let r := num % den
  if den < 2 * r ∨ (2 * r = den ∧ q % 2 = 1) then q + 1 else q

/-- The bit pattern of a value, rounded to nearest with ties to even; PRESUMED, notes/assumptions/5.md.
(notes/assumptions: 5 PRESUMED) -/
def Fmt.enc (f : Fmt) : Fp → Nat
  | .nan => f.infCode + 2 ^ (f.prec - 2)
  | .inf neg => f.infCode + bit neg * 2 ^ (f.width - 1)
  | .fin neg num den =>
    let s := bit neg * 2 ^ (f.width - 1)
    if num = 0 ∨ den = 0 then s
    else
      let e := max (ratLog2 num den) (1 - (f.bias : Int))
      let q := e - ((f.prec : Int) - 1)
      let m := if 0 ≤ q then divEven num (den * 2 ^ q.toNat) else divEven (num * 2 ^ (-q).toNat) den
      let code := (e + (f.bias : Int) - 1).toNat * 2 ^ (f.prec - 1) + m
      s + min code f.infCode

/-- The exact sum. (notes/assumptions: 5 PRESUMED) -/
def Fp.add : Fp → Fp → Fp
  | .nan, _ => .nan
  | _, .nan => .nan
  | .inf a, .inf b => if a = b then .inf a else .nan
  | .inf a, .fin .. => .inf a
  | .fin .., .inf b => .inf b
  | .fin a n d, .fin b m e =>
    let x : Int := (if a then -1 else 1) * (n * e : Nat) + (if b then -1 else 1) * (m * d : Nat)
    if x = 0 then .fin (a && b) 0 1 else .fin (decide (x < 0)) x.natAbs (d * e)

/-- The negative. -/
def Fp.neg : Fp → Fp
  | .nan => .nan
  | .inf a => .inf (!a)
  | .fin a n d => .fin (!a) n d

/-- The exact product. (notes/assumptions: 5 PRESUMED) -/
def Fp.mul : Fp → Fp → Fp
  | .nan, _ => .nan
  | _, .nan => .nan
  | .inf a, .inf b => .inf (a != b)
  | .inf a, .fin b n _ => if n = 0 then .nan else .inf (a != b)
  | .fin a n _, .inf b => if n = 0 then .nan else .inf (a != b)
  | .fin a n d, .fin b m e => .fin (a != b) (n * m) (d * e)

/-- The exact quotient. (notes/assumptions: 5 PRESUMED) -/
def Fp.div : Fp → Fp → Fp
  | .nan, _ => .nan
  | _, .nan => .nan
  | .inf _, .inf _ => .nan
  | .inf a, .fin b _ _ => .inf (a != b)
  | .fin a _ _, .inf b => .fin (a != b) 0 1
  | .fin a n d, .fin b m e => if m = 0 then (if n = 0 then .nan else .inf (a != b)) else .fin (a != b) (n * e) (d * m)

/-- A whole number. -/
def Fp.ofInt (i : Int) : Fp := .fin (decide (i < 0)) i.natAbs 1

/-- num / den. -/
def Fp.ofRat (num : Int) (den : Nat) : Fp := .fin (decide (num < 0)) num.natAbs den

/-- Less than; false where either side is not a number. -/
def Fp.lt : Fp → Fp → Bool
  | .nan, _ => false
  | _, .nan => false
  | .inf a, .inf b => a && !b
  | .inf a, .fin .. => a
  | .fin .., .inf b => !b
  | .fin a n d, .fin b m e =>
    decide ((if a then -1 else 1 : Int) * (n * e : Nat) < (if b then -1 else 1 : Int) * (m * d : Nat))

/-- The magnitude. -/
def Fp.abs : Fp → Fp
  | .nan => .nan
  | .inf _ => .inf false
  | .fin _ n d => .fin false n d

/-- The value times `k`, rounded to the nearest whole number, halves away from zero (R160), and held between `lo` and `hi`;
of a value that is not a number the rules give no integer: a free one. (notes/assumptions: 11 DESIGN CHOICE) -/
def Fp.toInt (x : Fp) (k : Nat) (lo hi : Int) : Int :=
  match x with
  | .nan => clampInt lo hi Config.nanAsInt
  | .inf neg => if neg then lo else hi
  | .fin neg n d => clampInt lo hi (divRound ((if neg then -1 else 1 : Int) * (n * k : Nat)) d)

/-- Is the pattern a finite binary32 number? -/
def f32Finite (b : Nat) : Bool := decide (b % 2 ^ 31 < f32.infCode)

/-- The binary32 sum, difference, product and quotient of bit patterns. -/
def fAdd (a b : Nat) : Nat := f32.enc ((f32.dec a).add (f32.dec b))
@[inherit_doc fAdd] def fSub (a b : Nat) : Nat := f32.enc ((f32.dec a).add (f32.dec b).neg)
@[inherit_doc fAdd] def fMul (a b : Nat) : Nat := f32.enc ((f32.dec a).mul (f32.dec b))
@[inherit_doc fAdd] def fDiv (a b : Nat) : Nat := f32.enc ((f32.dec a).div (f32.dec b))

/-- Is binary32 `a` less than `b`? -/
def fLt (a b : Nat) : Bool := (f32.dec a).lt (f32.dec b)

/-- The magnitude of a binary32 value. -/
def fAbs (a : Nat) : Nat := a % 2 ^ 31

/-- The binary32 pattern of a whole number. -/
def fInt (i : Int) : Nat := f32.enc (Fp.ofInt i)

/-- The binary32 pattern of num / den. -/
def fRat (num : Int) (den : Nat) : Nat := f32.enc (Fp.ofRat num den)

/-- A binary32 value times `k` as a whole number between `lo` and `hi`, halves away from zero.
(notes/assumptions: 11 DESIGN CHOICE) -/
def fToInt (a k : Nat) (lo hi : Int) : Int := (f32.dec a).toInt k lo hi

/-- A binary32 value held between two others. -/
def fClamp (lo hi x : Nat) : Nat := if fLt x lo then lo else if fLt hi x then hi else x

/-- The binary64 sum of bit patterns. -/
def dAdd (a b : Nat) : Nat := f64.enc ((f64.dec a).add (f64.dec b))

/-- The largest number whose square does not exceed `n`: `k` steps of bisection between `lo` and `hi`. -/
def sqrtBetween (n lo hi : Nat) : Nat → Nat
  | 0 => lo
  | k + 1 =>
    let m := (lo + hi + 1) / 2
    if m * m ≤ n then sqrtBetween n m hi k else sqrtBetween n lo (m - 1) k

/-- The integer square root. -/
def isqrt (n : Nat) : Nat := sqrtBetween n 0 (2 ^ (Nat.log2 n / 2 + 1)) (Nat.log2 n / 2 + 2)

/-- The square root of num / den as a rational with 64 bits after the point. -/
def ratSqrt (num den : Nat) : Nat × Nat := if den = 0 then (0, 1) else (isqrt (num * 2 ^ 128 / den), 2 ^ 64)

/-- sin of a turn fraction in the first octant, 0 ≤ x ≤ 2^29 of 2^32, in units of 2^-48: seven terms of its series.
(notes/assumptions: 38 DESIGN CHOICE) -/
def sinSeries (x : Nat) : Int :=
  -- 2π in units of 2^-60
  let r : Int := (7244019458077122842 * x / 2 ^ 44 : Nat)
  let r2 := r * r / 2 ^ 48
  let step (acc : Int) (d : Int) : Int := 2 ^ 48 - r2 * acc / 2 ^ 48 / d
  r * (step (step (step (step (step (step (2 ^ 48) 156) 110) 72) 42) 20) 6) / 2 ^ 48

/-- cos of a turn fraction in the first octant, in units of 2^-48. -/
def cosSeries (x : Nat) : Int :=
  let r : Int := (7244019458077122842 * x / 2 ^ 44 : Nat)
  let r2 := r * r / 2 ^ 48
  let step (acc : Int) (d : Int) : Int := 2 ^ 48 - r2 * acc / 2 ^ 48 / d
  step (step (step (step (step (step (2 ^ 48) 132) 90) 56) 30) 12) 2

/-- sin in the first quadrant, 0 ≤ x ≤ 2^30. -/
def sinQuarter (x : Nat) : Int := if x ≤ 2 ^ 29 then sinSeries x else cosSeries (2 ^ 30 - x)

/-- sin(2π x / 2^32) in units of 2^-48. -/
def sinTurn (x : Nat) : Int :=
  let y := x % 2 ^ 32
  if y ≤ 2 ^ 30 then sinQuarter y
  else if y ≤ 2 ^ 31 then sinQuarter (2 ^ 31 - y)
  else if y ≤ 3 * 2 ^ 30 then -sinQuarter (y - 2 ^ 31)
  else -sinQuarter (2 ^ 32 - y)

/-- cos(2π x / 2^32) in units of 2^-48. -/
def cosTurn (x : Nat) : Int := sinTurn (x + 2 ^ 30)

/-- The largest ac angle between lo and hi that a predicate still holds of, by bisection over `k` steps. -/
def bisect (p : Nat → Bool) (lo hi : Nat) : Nat → Nat
  | 0 => lo
  | k + 1 =>
    let m := (lo + hi + 1) / 2
    if p m then bisect p m hi k else bisect p lo (m - 1) k

/-- The arc sine of num / den, −1 to 1, in ac (2^32 a turn), −2^30 to 2^30, rounded down in magnitude. -/
def asinAc (num : Int) (den : Nat) : Int :=
  let a : Int := bisect (fun x => decide (sinQuarter x * den ≤ (num.natAbs : Int) * 2 ^ 48)) 0 (2 ^ 30) 31
  if num < 0 then -a else a

/-- The phase of x + jy in ac, 0 to 2^32 − 1. -/
def phaseAc (x y : Int) : Nat :=
  let q := bisect (fun a => decide (sinQuarter a * x.natAbs ≤ cosTurn a * y.natAbs)) 0 (2 ^ 30) 31
  let a : Int := if 0 ≤ x then (if 0 ≤ y then q else -q) else (if 0 ≤ y then 2 ^ 31 - q else 2 ^ 31 + q)
  (a % (2 ^ 32 : Int)).toNat

end Sys2Proof.Machine
end

