-- ==== Sys2Proof/Machine/Store.lean ====
section
/-! DEFINITION. The two stores that the state is built on, as plain lists.
`Regs` holds every register field of both parts, keyed by the field's place. `find`, `insertKey` and `eraseKey` work on a
list of (key, value) pairs kept in one canonical form: keys strictly rising, and nothing listed that equals what an
unlisted key reads as (a field's reset value, a record's default). -/

namespace Sys2Proof.Machine

/-- The value listed under key `k`, if any. -/
def findKey {α : Type} (k : Nat) : List (Nat × α) → Option α
  | [] => none
  | (k', v) :: m => if k' = k then some v else findKey k m

/-- The list without any entry of key `k`. -/
def eraseKey {α : Type} (k : Nat) : List (Nat × α) → List (Nat × α)
  | [] => []
  | (k', v) :: m => if k' = k then eraseKey k m else (k', v) :: eraseKey k m

/-- The list with `v` under key `k`, in its place in the rising order. -/
def insertKey {α : Type} (k : Nat) (v : α) : List (Nat × α) → List (Nat × α)
  | [] => [(k, v)]
  | (k', v') :: m =>
    if k < k' then (k, v) :: (k', v') :: m
    else if k = k' then (k, v) :: m
    else (k', v') :: insertKey k v m

/-- What key `k` reads as, `d` where nothing is listed. -/
def mapGet {α : Type} (d : α) (m : List (Nat × α)) (k : Nat) : α := (findKey k m).getD d

/-- The store with `v` at key `k`; writing the default removes the entry. -/
def mapSet {α : Type} [DecidableEq α] (d : α) (m : List (Nat × α)) (k : Nat) (v : α) : List (Nat × α) :=
  if v = d then eraseKey k m else insertKey k v m

/-- The keys of a store rise strictly. -/
def keysRise {α : Type} : List (Nat × α) → Bool
  | [] => true
  | [_] => true
  | (a, _) :: (b, v) :: m => decide (a < b) && keysRise ((b, v) :: m)

/-- The canonical form of a store with default `d`. -/
def mapWf {α : Type} [DecidableEq α] (d : α) (m : List (Nat × α)) : Bool :=
  keysRise m && m.all (fun e => decide (e.2 ≠ d))

/-- `a` put into a list in the order of `le`. -/
def insertOrd {α : Type} (le : α → α → Bool) (a : α) : List α → List α
  | [] => [a]
  | b :: m => if le a b then a :: b :: m else b :: insertOrd le a m

/-- The list in the order of `le`; equals keep their order. -/
def sortOrd {α : Type} (le : α → α → Bool) (l : List α) : List α := l.foldr (insertOrd le) []

/-- A register field: its place, its width in bits and what it holds at reset. -/
structure Fld where
  key : Nat
  width : Nat
  reset : Nat
  deriving DecidableEq, Repr

/-- The register fields that do not hold their reset values, by key. -/
abbrev Regs := List (Nat × Nat)

/-- The value a field holds. -/
def regGet (m : Regs) (f : Fld) : Nat := mapGet f.reset m f.key

/-- The registers with the low bits of `v` in field `f`. -/
def regSet (m : Regs) (f : Fld) (v : Nat) : Regs := mapSet f.reset m f.key (v % 2 ^ f.width)

/-- A field that all ports share: byte offset in the host window, least significant bit, width, reset value. -/
def fldS (addr lo width reset : Nat) : Fld := ⟨addr * 32 + lo, width, reset⟩

/-- A field of which host port `p` has its own copy (R415). -/
def fldP (p addr lo width reset : Nat) : Fld := ⟨(1 + p) * 33554432 + addr * 32 + lo, width, reset⟩

/-- A field of the WN140 at cell address `a`, by management address. -/
def fldC (a addr lo width reset : Nat) : Fld := ⟨(8 + a) * 33554432 + addr * 32 + lo, width, reset⟩

/-- A field of a CAN controller, by word index: `c` below 16,384 is the pack bus of the cell at that address (management
address 0xB0 + index), `c` = 16,384 + n is station channel n (offset 0x3600 + n × 0x80 + 4 × index, R303). -/
def fldX (c word lo width reset : Nat) : Fld :=
  if c < 16384 then fldC c (0xB0 + word) lo width reset
  else fldS (0x3600 + (c - 16384) * 0x80 + 4 * word) lo width reset

/-- Host port `p`'s snapshot of a shared RS field (R5, R44); 0 until the port has read the group's low word (R416). -/
def Fld.snap (f : Fld) (p : Nat) : Fld := ⟨f.key + (1 + p) * 33554432, f.width, 0⟩

/-- The snapshot of an RS field of which each port has its own copy: kept beside the field, in the port's own range. -/
def Fld.snapOwn (f : Fld) : Fld := ⟨f.key + 0x90000 * 32, f.width, 0⟩

/-- The snapshot of a WN140's RS field, one per cell (the management slot is its only reader). -/
def Fld.cellSnap (f : Fld) : Fld := ⟨f.key + 0x400 * 32, f.width, 0⟩

end Sys2Proof.Machine
end

