-- ==== Sys2Proof/Machine/RegsCell.lean ====
section
/-! DEFINITION. Where every register field lives: the fields of the WN140 management registers, and the CAN controller fields that both parts share.
One definition per field of the register tables of the specification: its place (space, word address, least
significant bit), its width and its reset value. The docstring gives the access code, the rule that holds the
table and the table's own description. An argument p is the host port of a field held per port (R415), a the cell
address, g the global rope index, r the region, e the rope end, b the lane port, j the element of a run of words. -/

namespace Sys2Proof.Machine

/-! ### WN140 time and PLL group (management addresses 0x10–0x2F) (R53, 02_time_and_angle.md) -/

/-- RS, R53: Cell time, ns; snapshots 0x11–0x12. -/
def Reg.CTime.CELL_TIME_NS (a : Nat) : Fld := fldC a 0x10 0 30 0
/-- RS, R53: Seconds [31:0]. -/
def Reg.CTime.CELL_TIME_SEC_LO (a : Nat) : Fld := fldC a 0x11 0 32 0
/-- RS, R53: Seconds [47:32]. -/
def Reg.CTime.CELL_TIME_SEC_HI (a : Nat) : Fld := fldC a 0x12 0 16 0
/-- RW, R53: Path delay from end A, units 2^-8 ns. -/
def Reg.CTime.DELAY_A (a : Nat) : Fld := fldC a 0x14 0 24 0
/-- RW, R53: Path delay from end B, units 2^-8 ns. -/
def Reg.CTime.DELAY_B (a : Nat) : Fld := fldC a 0x15 0 24 0
/-- RO, R53: Residence A to B, units 2^-8 ns. -/
def Reg.CTime.RES_AB (a : Nat) : Fld := fldC a 0x16 0 16 0
/-- RO, R53: Residence B to A, units 2^-8 ns. -/
def Reg.CTime.RES_BA (a : Nat) : Fld := fldC a 0x16 16 16 0
/-- RO, R53: Echo turnaround, units 2^-8 ns. -/
def Reg.CTime.TURN (a : Nat) : Fld := fldC a 0x17 0 16 0
/-- RO, R53: Cell PLL locked (R45). -/
def Reg.CTime.PLL_LOCKED (a : Nat) : Fld := fldC a 0x18 0 1 0
/-- RO, R53: No valid cairn block in the last frame. -/
def Reg.CTime.COASTING (a : Nat) : Fld := fldC a 0x18 1 1 0
/-- RO, R53: Timing clock running from the 25 MHz crystal. -/
def Reg.CTime.ON_CRYSTAL (a : Nat) : Fld := fldC a 0x18 2 1 1
/-- RO, R53: Last cairn block received at port B. -/
def Reg.CTime.FROM_B (a : Nat) : Fld := fldC a 0x18 3 1 0
/-- RO, R53: Last err, signed, units 0.25 ns, saturating. -/
def Reg.CTime.PHASE_ERR (a : Nat) : Fld := fldC a 0x18 8 8 0
/-- RW, R53: 0 FREEZE, 1 GATE; a 1 is ignored on a WN140-B. -/
def Reg.CTime.LOSS_ACTION (a : Nat) : Fld := fldC a 0x19 0 1 0
/-- RW, R53: ns, 0–8,000, written from the route card at admission. -/
def Reg.CTime.LATE_WINDOW (a : Nat) : Fld := fldC a 0x1a 0 13 2000
/-- RO, R53: Late actions executed, wrapping. -/
def Reg.CTime.LATE_COUNT (a : Nat) : Fld := fldC a 0x1b 0 32 0
/-- RO, R53: Actions discarded, wrapping. -/
def Reg.CTime.DROPPED_COUNT (a : Nat) : Fld := fldC a 0x1c 0 32 0
/-! ### WN140 lane group (management addresses 0x30–0x4F; port B at address + 0x10) (R87, 03_rope_lanes.md) -/

/-- RO, R87: Receive PLL locked. -/
def Reg.CLane.PLL_LOCKED (a b : Nat) : Fld := fldC a (b * 0x10 + 0x30) 0 1 0
/-- RO, R87: Block lock held. -/
def Reg.CLane.BLOCK_LOCKED (a b : Nat) : Fld := fldC a (b * 0x10 + 0x30) 1 1 0
/-- RO, R87: Port UP (R72). -/
def Reg.CLane.PORT_UP (a b : Nat) : Fld := fldC a (b * 0x10 + 0x30) 2 1 0
/-- RO, R87: Pattern test running. -/
def Reg.CLane.TEST_ACTIVE (a b : Nat) : Fld := fldC a (b * 0x10 + 0x30) 3 1 0
/-- RO, R87: Checker synchronised. -/
def Reg.CLane.CHECKER_SYNC (a b : Nat) : Fld := fldC a (b * 0x10 + 0x30) 4 1 0
/-- RO, R87: Receive equaliser code. -/
def Reg.CLane.RX_EQ (a b : Nat) : Fld := fldC a (b * 0x10 + 0x30) 8 4 0
/-- W1C, R87: Port went down. -/
def Reg.CLane.LOCK_LOST (a b : Nat) : Fld := fldC a (b * 0x10 + 0x31) 0 1 0
/-- W1C, R87: Port came UP. -/
def Reg.CLane.LOCK_GAINED (a b : Nat) : Fld := fldC a (b * 0x10 + 0x31) 1 1 0
/-- W1C, R87: A window exceeded ERR_LIMIT. -/
def Reg.CLane.ERR_LIMIT (a b : Nat) : Fld := fldC a (b * 0x10 + 0x31) 2 1 0
/-- W1C, R87: Invalid TX_EQ written. -/
def Reg.CLane.WRITE_REFUSED (a b : Nat) : Fld := fldC a (b * 0x10 + 0x31) 3 1 0
/-- RW, R87: C_PRE [3:0], C_MAIN [9:4], C_POST [14:10] (R77). -/
def Reg.CLane.TX_EQ (a b : Nat) : Fld := fldC a (b * 0x10 + 0x32) 0 15 9072
/-- RO, R87: Invalid blocks received, wrapping. -/
def Reg.CLane.BLOCK_ERR_COUNT (a b : Nat) : Fld := fldC a (b * 0x10 + 0x33) 0 32 0
/-- RO, R87: ERROR blocks received, wrapping. -/
def Reg.CLane.FWD_ERR_COUNT (a b : Nat) : Fld := fldC a (b * 0x10 + 0x34) 0 32 0
/-- RO, R87: Invalid blocks in the last complete 100 ms window. -/
def Reg.CLane.ERR_IN_WINDOW (a b : Nat) : Fld := fldC a (b * 0x10 + 0x35) 0 16 0
/-- RW, R87: Written from the route card at admission. -/
def Reg.CLane.ERR_LIMIT_VALUE (a b : Nat) : Fld := fldC a (b * 0x10 + 0x35) 16 16 16
/-- RW, R87: As in LANE_TEST. -/
def Reg.CLane.PATTERN (a b : Nat) : Fld := fldC a (b * 0x10 + 0x36) 0 3 0
/-- RW, R87: Generator on. -/
def Reg.CLane.GEN_EN (a b : Nat) : Fld := fldC a (b * 0x10 + 0x36) 3 1 0
/-- RW, R87: Checker on. -/
def Reg.CLane.CHK_EN (a b : Nat) : Fld := fldC a (b * 0x10 + 0x36) 4 1 0
/-- RW, R87: Complement. -/
def Reg.CLane.INVERT (a b : Nat) : Fld := fldC a (b * 0x10 + 0x36) 5 1 0
/-- WS, R87: Invert one bit. -/
def Reg.CLane.INJ_SINGLE (a b : Nat) : Fld := fldC a (b * 0x10 + 0x36) 7 1 0
/-- WS, R87: Invert BURST_LEN + 1 bits. -/
def Reg.CLane.INJ_BURST (a b : Nat) : Fld := fldC a (b * 0x10 + 0x36) 8 1 0
/-- RW, R87: Burst length − 1. -/
def Reg.CLane.BURST_LEN (a b : Nat) : Fld := fldC a (b * 0x10 + 0x36) 9 6 0
/-- RS, R87: Checker errors, saturating; snapshots 0x38. -/
def Reg.CLane.TEST_ERR_COUNT (a b : Nat) : Fld := fldC a (b * 0x10 + 0x37) 0 32 0
/-- RS, R87: Checked bits, units of 2^16 bits. -/
def Reg.CLane.TEST_BITS (a b : Nat) : Fld := fldC a (b * 0x10 + 0x38) 0 32 0
/-- RW, R87: Frame number at which the test starts, both ports. -/
def Reg.CLane.TEST_START_FRAME (a : Nat) : Fld := fldC a 0x3c 0 32 0
/-- RW, R87: Test length, ms. -/
def Reg.CLane.TEST_DURATION_MS (a : Nat) : Fld := fldC a 0x3d 0 20 0
/-- RW, R87: User pattern bits [31:0]. -/
def Reg.CLane.USER_PATTERN_LO (a : Nat) : Fld := fldC a 0x3e 0 32 0
/-- RW, R87: User pattern bits [63:32]. -/
def Reg.CLane.USER_PATTERN_HI (a : Nat) : Fld := fldC a 0x3f 0 32 0
/-! ### WN140 battery-current slot (management addresses 0x98–0x9F) (R188, 07_loop_engine.md) -/

/-- RW, R188: Proportional gain, binary32, duty per A. -/
def Reg.BcSlot.BC_KP (a : Nat) : Fld := fldC a 0x98 0 32 0
/-- RW, R188: Integral gain, binary32, duty per A·s. -/
def Reg.BcSlot.BC_KI (a : Nat) : Fld := fldC a 0x99 0 32 0
/-- RW, R188: Lower duty limit, units 2^-16. -/
def Reg.BcSlot.BC_DUTY_MIN (a : Nat) : Fld := fldC a 0x9a 0 16 0
/-- RW, R188: Upper duty limit, units 2^-16. -/
def Reg.BcSlot.BC_DUTY_MAX (a : Nat) : Fld := fldC a 0x9a 16 16 0
/-- RW, R188: 0.05 A per µs; 0 no limit. -/
def Reg.BcSlot.BC_REF_SLEW (a : Nat) : Fld := fldC a 0x9b 0 16 0
/-- RW, R188: Runs, 1–16; 0 read as 1. -/
def Reg.BcSlot.BC_LOST_LIMIT (a : Nat) : Fld := fldC a 0x9b 16 4 4
/-- RS, R188: Integrator, binary32; snapshots 0x9D–0x9E. -/
def Reg.BcSlot.BC_INTEG (a : Nat) : Fld := fldC a 0x9c 0 32 0
/-- RS, R188: Duty in force, units 2^-16. -/
def Reg.BcSlot.BC_DUTY (a : Nat) : Fld := fldC a 0x9d 0 16 0
/-- RS, R188: Slewed reference, signed, 0.05 A. -/
def Reg.BcSlot.BC_REF (a : Nat) : Fld := fldC a 0x9d 16 16 0
/-- RS, R188: 1 AUTO, 2 MANUAL; 0, 3 not used. -/
def Reg.BcSlot.BC_MODE (a : Nat) : Fld := fldC a 0x9e 0 2 2
/-- RS, R188: Duty at a limit. -/
def Reg.BcSlot.BC_SAT (a : Nat) : Fld := fldC a 0x9e 2 1 0
/-- RS, R188: Last run had no fresh feedback. -/
def Reg.BcSlot.BC_AGED (a : Nat) : Fld := fldC a 0x9e 3 1 0
/-- W1C, R188: R188 acted. -/
def Reg.BcSlot.BC_FB_LOST (a : Nat) : Fld := fldC a 0x9f 0 1 0
/-- W1C, R188: Preset reached an integrator limit. -/
def Reg.BcSlot.BC_PRESET_CLAMPED (a : Nat) : Fld := fldC a 0x9f 1 1 0
/-! ### Identity and state group (management addresses 0x00–0x0F) (R231, 09_wn140_cell_controller.md) -/

/-- RO, R231: WN140. -/
def Reg.CId.PART_CODE (a : Nat) : Fld := fldC a 0x0 0 16 320
/-- RW, R231: Cell address; written in ADMIT. -/
def Reg.CId.CELL_ADDR (a : Nat) : Fld := fldC a 0x4 0 14 0
/-- RW, R231: Admission epoch (R231). -/
def Reg.CId.EPOCH (a : Nat) : Fld := fldC a 0x5 0 16 0
/-- RW, R231: Tag admitted under (R94); written in ADMIT. -/
def Reg.CId.ROUTE_TAG (a : Nat) : Fld := fldC a 0x6 0 16 0
/-- RO, R231: Code of R210. -/
def Reg.CId.CELL_STATE (a : Nat) : Fld := fldC a 0x7 0 4 1
/-- RO, R231: State before the last change. -/
def Reg.CId.PREV_STATE (a : Nat) : Fld := fldC a 0x7 4 4 0
/-- RO, R231: 0 power, 1 lock, 2 EPOCH, 3 ENROL, 4 RUN, 5 BYPASS/BLOCK, 6 command gap, 7 horizon, 8 ROUTE_TAG, 9 TO_BIVOUAC, 10 ADMIT_TIMEOUT, 11 FENCE_REQ, 12 hard fence, 13 UNFENCE_REQ; 14–15 reserved. -/
def Reg.CId.LAST_CAUSE (a : Nat) : Fld := fldC a 0x7 8 4 0
/-- WS, R231: ADMIT to READY or FENCED. -/
def Reg.CId.ENROL (a : Nat) : Fld := fldC a 0x8 0 1 0
/-- WS, R231: Soft fence (R224). -/
def Reg.CId.FENCE_REQ (a : Nat) : Fld := fldC a 0x8 1 1 0
/-- WS, R231: Unfence (R224). -/
def Reg.CId.UNFENCE_REQ (a : Nat) : Fld := fldC a 0x8 2 1 0
/-- WS, R231: Enter BIVOUAC. -/
def Reg.CId.TO_BIVOUAC (a : Nat) : Fld := fldC a 0x8 3 1 0
/-- RO, R231: Frames since the last state change, saturating. -/
def Reg.CId.STATE_FRAMES (a : Nat) : Fld := fldC a 0x9 0 32 0
/-- RO, R231: Entries into ADMIT since power-up, wrapping. -/
def Reg.CId.ADMIT_COUNT (a : Nat) : Fld := fldC a 0xa 0 16 0
/-- RO, R231: Entries into BIVOUAC, wrapping. -/
def Reg.CId.BIVOUAC_COUNT (a : Nat) : Fld := fldC a 0xa 16 16 0
/-- RO, R231: A fence record is held. -/
def Reg.CId.FENCE_RECORD (a : Nat) : Fld := fldC a 0xb 0 1 0
/-- RO, R231: The record is a hard fence. -/
def Reg.CId.FENCE_HARD (a : Nat) : Fld := fldC a 0xb 1 1 0
/-- RO, R231: The cell has passed through OFF since the record. -/
def Reg.CId.OFF_SINCE_FENCE (a : Nat) : Fld := fldC a 0xb 2 1 0
/-- RO, R231: Fault kind code of the fence cause. -/
def Reg.CId.FENCE_KIND (a : Nat) : Fld := fldC a 0xb 8 8 0
/-! ### Gate timing group (management addresses 0x80–0x97) (R231, 09_wn140_cell_controller.md) -/

/-- RW, R231: Ticks of 0.8 ns, 250–2,500 (R142). -/
def Reg.Gate.DEAD_TIME (a : Nat) : Fld := fldC a 0x80 0 12 750
/-- RW, R231: Ticks of 0.8 ns, 500–2,500. -/
def Reg.Gate.MIN_PULSE (a : Nat) : Fld := fldC a 0x80 16 12 1000
/-- RW, R231: 0 upper, 1 lower (R213). -/
def Reg.Gate.BYP_PATTERN (a : Nat) : Fld := fldC a 0x81 0 1 0
/-- RO, R231: Target in force, coded as R97. -/
def Reg.Gate.TARGET_NOW (a : Nat) : Fld := fldC a 0x82 0 2 3
/-- RO, R231: Levels of G4–G1. -/
def Reg.Gate.G_OUT (a : Nat) : Fld := fldC a 0x82 2 4 0
/-- RO, R231: Level of BYP_FIRE. -/
def Reg.Gate.BYP_FIRE_OUT (a : Nat) : Fld := fldC a 0x82 6 1 0
/-- RO, R231: A change is deferred. -/
def Reg.Gate.DEFER_PENDING (a : Nat) : Fld := fldC a 0x82 7 1 0
/-- RO, R231: Source in force: 0 hard fence, 1 FENCED/BIVOUAC, 2 hold, 3 alignment, 4 BLOCK command, 5 RUN, 6 belay, 7 state default. -/
def Reg.Gate.SOURCE (a : Nat) : Fld := fldC a 0x82 8 3 7
/-- RO, R231: Changes executed, wrapping. -/
def Reg.Gate.EDGES_EXECUTED (a : Nat) : Fld := fldC a 0x83 0 32 0
/-- RO, R231: R215, R216, wrapping. -/
def Reg.Gate.EDGE_DEFERRED (a : Nat) : Fld := fldC a 0x84 0 16 0
/-- RO, R231: R216, R227, wrapping. -/
def Reg.Gate.EDGE_SUPPRESSED (a : Nat) : Fld := fldC a 0x84 16 16 0
/-- RO, R231: Short stamp of the last executed change. -/
def Reg.Gate.LAST_CHANGE (a : Nat) : Fld := fldC a 0x85 0 32 0
/-- RO, R231: BELAY_LO in force. -/
def Reg.Gate.PLAN_LO (a : Nat) : Fld := fldC a 0x86 0 16 0
/-- RO, R231: BELAY_HI in force. -/
def Reg.Gate.PLAN_HI (a : Nat) : Fld := fldC a 0x86 16 16 0
/-- RO, R231: BELAY_POL in force. -/
def Reg.Gate.PLAN_POL (a : Nat) : Fld := fldC a 0x87 0 2 0
/-- RO, R231: BELAY_CH in force. -/
def Reg.Gate.PLAN_CH (a : Nat) : Fld := fldC a 0x87 2 2 0
/-- RO, R231: Belay schedule running. -/
def Reg.Gate.BELAY_RUN (a : Nat) : Fld := fldC a 0x87 4 1 0
/-- W1C, R231: A change was deferred. -/
def Reg.Gate.DEFER_SEEN (a : Nat) : Fld := fldC a 0x88 0 1 0
/-- W1C, R231: A change was suppressed. -/
def Reg.Gate.SUPPRESS_SEEN (a : Nat) : Fld := fldC a 0x88 1 1 0
/-- W1C, R231: A direct POS–NEG change executed (R213). -/
def Reg.Gate.POLARITY_DIRECT (a : Nat) : Fld := fldC a 0x88 2 1 0
/-! ### Protection group (management addresses 0xA0–0xAF) (R231, 09_wn140_cell_controller.md) -/

/-- RW, R231: ns after turn-on, 0–4,095. -/
def Reg.Prot.DESAT_BLANK (a : Nat) : Fld := fldC a 0xa0 0 12 1500
/-- RW, R231: Units of 10 ns, 0–2,550 ns. -/
def Reg.Prot.DESAT_FILTER (a : Nat) : Fld := fldC a 0xa0 16 8 10
/-- RW, R231: Fire BYP_FIRE on desaturation. -/
def Reg.Prot.DESAT_FIRE (a : Nat) : Fld := fldC a 0xa0 24 1 1
/-- RW, R231: 0.05 V; 0xFFFF off (R222). -/
def Reg.Prot.V_HOLD (a : Nat) : Fld := fldC a 0xa1 0 16 65535
/-- RW, R231: 0.05 V. -/
def Reg.Prot.V_HOLD_HYST (a : Nat) : Fld := fldC a 0xa1 16 16 0
/-- RW, R231: Comparator threshold at OVP_IN, mV, 200–1,100. -/
def Reg.Prot.OVP_REF (a : Nat) : Fld := fldC a 0xa2 0 10 1000
/-- RW, R231: Units of 10 µs, 1–65,535. -/
def Reg.Prot.BYP_FIRE_WIDTH (a : Nat) : Fld := fldC a 0xa3 0 16 500
/-- RW, R231: AIN input of the bypass feedback. -/
def Reg.Prot.BYP_FB_CH (a : Nat) : Fld := fldC a 0xa3 16 4 0
/-- RW, R231: ms, 1–4,095. -/
def Reg.Prot.BYP_CONFIRM_T (a : Nat) : Fld := fldC a 0xa3 20 12 20
/-- RW, R231: Raw code threshold, signed. -/
def Reg.Prot.BYP_CONFIRM_CODE (a : Nat) : Fld := fldC a 0xa4 0 16 0
/-- RO, R231: As in the report status word. -/
def Reg.Prot.LOCAL_HOLD (a : Nat) : Fld := fldC a 0xa5 0 1 0
/-- RO, R231: Comparator output now, live with the hysteresis of R446: it falls once OVP_IN drops below the threshold less the hysteresis, fenced or not. The crossing itself is latched in OVP_SEEN and in the fence record. -/
def Reg.Prot.OVP_LEVEL (a : Nat) : Fld := fldC a 0xa5 1 1 0
/-- RO, R231: 1 where DESAT_N[3:0] is low now. -/
def Reg.Prot.DESAT_LEVEL (a : Nat) : Fld := fldC a 0xa5 2 4 0
/-- RO, R231: BYP_FIRE asserted for the current fence. -/
def Reg.Prot.BYP_FIRED (a : Nat) : Fld := fldC a 0xa5 6 1 0
/-- RO, R231: Bypass confirmed (R223). -/
def Reg.Prot.BYP_CONFIRMED (a : Nat) : Fld := fldC a 0xa5 7 1 0
/-- W1C, R231: Desaturation on G1–G4. -/
def Reg.Prot.DESAT_SEEN (a : Nat) : Fld := fldC a 0xa6 0 4 0
/-- W1C, R231: OVP_IN crossed. -/
def Reg.Prot.OVP_SEEN (a : Nat) : Fld := fldC a 0xa6 4 1 0
/-- W1C, R231: Capacitor hold set. -/
def Reg.Prot.HOLD_SEEN (a : Nat) : Fld := fldC a 0xa6 5 1 0
/-- W1C, R231: R223. -/
def Reg.Prot.BYP_NOT_CONFIRMED (a : Nat) : Fld := fldC a 0xa6 6 1 0
/-- RO, R231: OVP_IN crossings, wrapping. -/
def Reg.Prot.OVP_COUNT (a : Nat) : Fld := fldC a 0xa7 0 16 0
/-- RO, R231: Holds set, wrapping. -/
def Reg.Prot.HOLD_COUNT (a : Nat) : Fld := fldC a 0xa7 16 16 0
/-! ### WN140 ADC and calibration group (management addresses 0x50–0x6F) (R251, 10_cell_measurement.md) -/

/-- RO, R251: Input of the conversion in progress or last. -/
def Reg.Adc.MUX_NOW (a : Nat) : Fld := fldC a 0x50 0 4 0
/-- RO, R251: Conversion in progress. -/
def Reg.Adc.BUSY (a : Nat) : Fld := fldC a 0x50 4 1 0
/-- RO, R251: Plan in force. -/
def Reg.Adc.PLAN_NOW (a : Nat) : Fld := fldC a 0x50 5 3 0
/-- RO, R251: R242. -/
def Reg.Adc.CAL_LOADED (a : Nat) : Fld := fldC a 0x50 8 1 0
/-- RO, R251: Built-in plan running (R234). -/
def Reg.Adc.BOOT_PLAN (a : Nat) : Fld := fldC a 0x50 9 1 1
/-- W1C, R251: An over-range occurred. -/
def Reg.Adc.OVR_STICKY (a : Nat) : Fld := fldC a 0x51 0 1 0
/-- W1C, R251: CONV_PLAN named no defined plan. -/
def Reg.Adc.PLAN_BAD (a : Nat) : Fld := fldC a 0x51 1 1 0
/-- W1C, R251: A conversion was dropped (R236). -/
def Reg.Adc.CONV_DROP_SEEN (a : Nat) : Fld := fldC a 0x51 2 1 0
/-- W1C, R251: A calibration point completed. -/
def Reg.Adc.CAL_DONE (a : Nat) : Fld := fldC a 0x51 3 1 0
/-- W1C, R251: CAL_GO refused or timed out. -/
def Reg.Adc.CAL_FAILED (a : Nat) : Fld := fldC a 0x51 4 1 0
/-- RO, R251: Conversions, wrapping. -/
def Reg.Adc.CONV_COUNT (a : Nat) : Fld := fldC a 0x52 0 32 0
/-- RO, R251: Over-range conversions, wrapping. -/
def Reg.Adc.OVR_COUNT (a : Nat) : Fld := fldC a 0x53 0 16 0
/-- RO, R251: SETTLING conversions, wrapping. -/
def Reg.Adc.SETTLING_COUNT (a : Nat) : Fld := fldC a 0x53 16 16 0
/-- RO, R251: R236, wrapping. -/
def Reg.Adc.CONV_DELAYED (a : Nat) : Fld := fldC a 0x54 0 16 0
/-- RO, R251: R236, wrapping. -/
def Reg.Adc.CONV_DROPPED (a : Nat) : Fld := fldC a 0x54 16 16 0
/-- RO, R251: R234, wrapping. -/
def Reg.Adc.PLAN_BAD_COUNT (a : Nat) : Fld := fldC a 0x55 0 16 0
/-- RW, R251: Inputs of V_CAP [3:0], I_CELL [7:4], V_PACK [11:8], I_PACK [15:12], I_DCDC [19:16], T_STAGE [23:20], T_PACK [27:24]. -/
def Reg.Adc.ROLE_MAP (a : Nat) : Fld := fldC a 0x56 0 28 106181136
/-- RW, R251: T_PACK from the BMS. -/
def Reg.Adc.T_PACK_BMS (a : Nat) : Fld := fldC a 0x56 28 1 0
/-- RW, R251: No pack temperature; T_PACK = 0x8000. -/
def Reg.Adc.T_PACK_NONE (a : Nat) : Fld := fldC a 0x56 29 1 0
/-- RW, R251: Plan memory index; incremented by each PLAN_DATA access. -/
def Reg.Adc.PLAN_IDX (a : Nat) : Fld := fldC a 0x58 0 8 0
/-- RW, R251: Plan entry at PLAN_IDX. -/
def Reg.Adc.PLAN_DATA (a : Nat) : Fld := fldC a 0x59 0 32 0
/-- RW, R251: FIRST of plan `pl` in the low byte, COUNT in the high byte. -/
def Reg.Adc.PLAN_DIR (a pl : Nat) : Fld := fldC a (0x5a + pl / 2) (16 * (pl % 2)) 16 0
/-- RO, R251: Next buffer index. -/
def Reg.Adc.BUF_HEAD (a : Nat) : Fld := fldC a 0x5e 0 10 0
/-- RO, R251: Wraps, wrapping. -/
def Reg.Adc.BUF_WRAPS (a : Nat) : Fld := fldC a 0x5e 16 16 0
/-- RW, R251: Entry to read. -/
def Reg.Adc.BUF_SEL (a : Nat) : Fld := fldC a 0x5f 0 10 0
/-- RS, R251: Entry word 0; snapshots 0x61. -/
def Reg.Adc.BUF_W0 (a : Nat) : Fld := fldC a 0x60 0 32 0
/-- RS, R251: Entry word 1. -/
def Reg.Adc.BUF_W1 (a : Nat) : Fld := fldC a 0x61 0 32 0
/-- RW, R251: Input for 0x63–0x65. -/
def Reg.Adc.CAL_SEL (a : Nat) : Fld := fldC a 0x62 0 4 0
/-- RW, R251: Signed, 1/16 code. -/
def Reg.Adc.CAL_OFS (a : Nat) : Fld := fldC a 0x63 0 16 0
/-- RW, R251: binary32 per code. -/
def Reg.Adc.CAL_GAIN (a : Nat) : Fld := fldC a 0x64 0 32 0
/-- RW, R251: 4–16; other values read as 12. -/
def Reg.Adc.CAL_N_LOG2 (a : Nat) : Fld := fldC a 0x65 0 5 12
/-- WS, R251: Average conversions of CAL_SEL (R243). -/
def Reg.Adc.CAL_GO (a : Nat) : Fld := fldC a 0x65 5 1 0
/-- RO, R251: Signed mean, 1/16 code. -/
def Reg.Adc.CAL_MEAN (a : Nat) : Fld := fldC a 0x66 0 32 0
/-- RO, R251: Largest minus smallest code. -/
def Reg.Adc.CAL_SPREAD (a : Nat) : Fld := fldC a 0x67 0 16 0
/-- RO, R251: Over-ranges during the point. -/
def Reg.Adc.CAL_OVR (a : Nat) : Fld := fldC a 0x67 16 16 0
/-- RO, R251: Per input, coefficients written. -/
def Reg.Adc.CAL_VALID (a : Nat) : Fld := fldC a 0x68 0 12 0
/-! ### WN140 correlator group (management addresses 0x70 + 4k, k = 0–3) (R251, 10_cell_measurement.md) -/

/-- RW, R251: Input 0–11. -/
def Reg.Corr.INPUT (a k : Nat) : Fld := fldC a (0x70 + 4 * k + 0) 0 4 0
/-- RW, R251: Channel 0–3. -/
def Reg.Corr.REF_CH (a k : Nat) : Fld := fldC a (0x70 + 4 * k + 0) 4 2 0
/-- RW, R251: 1–31; 0 read as 1. -/
def Reg.Corr.HARM (a k : Nat) : Fld := fldC a (0x70 + 4 * k + 0) 6 5 1
/-- RW, R251: 1–2,047; 0 read as 1. -/
def Reg.Corr.TURNS (a k : Nat) : Fld := fldC a (0x70 + 4 * k + 0) 11 11 20
/-- RW, R251: Turns. -/
def Reg.Corr.SETTLE (a k : Nat) : Fld := fldC a (0x70 + 4 * k + 0) 22 4 2
/-- RO, R251: Status byte (R246). -/
def Reg.Corr.CORR_STATUS (a k : Nat) : Fld := fldC a (0x70 + 4 * k + 1) 0 8 0
/-- RO, R251: Wrapping. -/
def Reg.Corr.ABORT_COUNT (a k : Nat) : Fld := fldC a (0x70 + 4 * k + 1) 8 8 0
/-- RO, R251: Results dropped, wrapping. -/
def Reg.Corr.CORR_LOST (a k : Nat) : Fld := fldC a (0x70 + 4 * k + 1) 16 16 0
/-- RS, R251: X_RE of the last result; snapshots +3. -/
def Reg.Corr.CORR_RE (a k : Nat) : Fld := fldC a (0x70 + 4 * k + 2) 0 32 0
/-- RS, R251: X_IM of the last result. -/
def Reg.Corr.CORR_IM (a k : Nat) : Fld := fldC a (0x70 + 4 * k + 3) 0 32 0
/-! ### WN140 identity bus group (management addresses 0xD0–0xDF) (R270, 11_pack_port.md) -/

/-- RO, R270: 0 NO_PACK, 1 DEBOUNCE, 2 CHECKING, 3 REFUSED, 4 OPEN, 5 CLOSING, 6 CLOSED, 7 DETACH_READY, 8 FENCED; 9–15 reserved. -/
def Reg.Idb.PACK_STATE (a : Nat) : Fld := fldC a 0xd0 0 4 0
/-- RO, R270: PACK_PRESENT_N low now. -/
def Reg.Idb.PRESENT (a : Nat) : Fld := fldC a 0xd0 4 1 0
/-- RO, R270: Level of PACK_EN. -/
def Reg.Idb.PACK_EN_OUT (a : Nat) : Fld := fldC a 0xd0 5 1 0
/-- RO, R270: Bus held (R253). -/
def Reg.Idb.ID_BUS_FAULT (a : Nat) : Fld := fldC a 0xd0 6 1 0
/-- WS, R270: Read both records. -/
def Reg.Idb.READ_IDS (a : Nat) : Fld := fldC a 0xd1 0 1 0
/-- WS, R270: Pack accepted; DEBOUNCE or CHECKING to OPEN. -/
def Reg.Idb.PACK_ACCEPT (a : Nat) : Fld := fldC a 0xd1 1 1 0
/-- WS, R270: To REFUSED. -/
def Reg.Idb.PACK_REFUSE (a : Nat) : Fld := fldC a 0xd1 2 1 0
/-- WS, R270: R264. -/
def Reg.Idb.PORT_CLOSE (a : Nat) : Fld := fldC a 0xd1 3 1 0
/-- WS, R270: R264. -/
def Reg.Idb.PORT_OPEN (a : Nat) : Fld := fldC a 0xd1 4 1 0
/-- WS, R270: R255. -/
def Reg.Idb.SUMMARY_WRITE (a : Nat) : Fld := fldC a 0xd1 5 1 0
/-- WS, R270: R256. -/
def Reg.Idb.CAL_WRITE (a : Nat) : Fld := fldC a 0xd1 6 1 0
/-- WS, R270: To FENCED, port open. -/
def Reg.Idb.PACK_FENCE (a : Nat) : Fld := fldC a 0xd1 7 1 0
/-- WS, R270: To OPEN after a fresh read and check. -/
def Reg.Idb.PACK_UNFENCE (a : Nat) : Fld := fldC a 0xd1 8 1 0
/-- WS, R270: Open the port for removal as PORT_OPEN does, and set PACK_STATE DETACH_READY (R267). -/
def Reg.Idb.DETACH (a : Nat) : Fld := fldC a 0xd1 9 1 0
/-- RW, R270: Word of the record buffer; incremented by each REC_DATA access. -/
def Reg.Idb.REC_IDX (a : Nat) : Fld := fldC a 0xd2 0 6 0
/-- RW, R270: 0 pack record, 1 stage record. -/
def Reg.Idb.REC_SEL (a : Nat) : Fld := fldC a 0xd2 6 1 0
/-- RW, R270: Bytes 4 × REC_IDX to 4 × REC_IDX + 3. -/
def Reg.Idb.REC_DATA (a : Nat) : Fld := fldC a 0xd3 0 32 0
/-- RO, R270: Pack record read with a valid STATIC_CRC. -/
def Reg.Idb.PACK_READ_OK (a : Nat) : Fld := fldC a 0xd4 0 1 0
/-- RO, R270: Stage record read with a valid STATIC_CRC. -/
def Reg.Idb.STAGE_READ_OK (a : Nat) : Fld := fldC a 0xd4 1 1 0
/-- RO, R270: A current summary slot exists. -/
def Reg.Idb.SUMMARY_VALID (a : Nat) : Fld := fldC a 0xd4 2 1 0
/-- RO, R270: Current slot: 0 A, 1 B. -/
def Reg.Idb.SUMMARY_SLOT (a : Nat) : Fld := fldC a 0xd4 3 1 0
/-- RO, R270: A current calibration copy exists. -/
def Reg.Idb.CAL_COPY_VALID (a : Nat) : Fld := fldC a 0xd4 4 1 0
/-- RO, R270: Current copy: 0 A, 1 B. -/
def Reg.Idb.CAL_COPY (a : Nat) : Fld := fldC a 0xd4 5 1 0
/-- W1C, R270: Debounced presence. -/
def Reg.Idb.PACK_INSERTED (a : Nat) : Fld := fldC a 0xd5 0 1 0
/-- W1C, R270: PACK_PRESENT_N rose. -/
def Reg.Idb.PACK_REMOVED (a : Nat) : Fld := fldC a 0xd5 1 1 0
/-- W1C, R270: R263. -/
def Reg.Idb.LIVE_REMOVAL (a : Nat) : Fld := fldC a 0xd5 2 1 0
/-- W1C, R270: R253. -/
def Reg.Idb.BUS_FAULT_SEEN (a : Nat) : Fld := fldC a 0xd5 3 1 0
/-- W1C, R270: R255, R256. -/
def Reg.Idb.WRITE_FAILED (a : Nat) : Fld := fldC a 0xd5 4 1 0
/-- W1C, R270: R264. -/
def Reg.Idb.CLOSE_FAILED (a : Nat) : Fld := fldC a 0xd5 5 1 0
/-- W1C, R270: R260. -/
def Reg.Idb.PROFILE_ERR (a : Nat) : Fld := fldC a 0xd5 6 1 0
/-- RW, R270: Input 0–11. -/
def Reg.Idb.PORT_FB_CH (a : Nat) : Fld := fldC a 0xd6 0 4 7
/-- RW, R270: 0.1 V. -/
def Reg.Idb.PORT_V_TOL (a : Nat) : Fld := fldC a 0xd6 4 12 200
/-- RW, R270: 10 ms units. -/
def Reg.Idb.PORT_CLOSE_T (a : Nat) : Fld := fldC a 0xd6 16 8 50
/-- RW, R270: 0.05 A. -/
def Reg.Idb.PORT_OPEN_I (a : Nat) : Fld := fldC a 0xd6 24 8 20
/-- RW, R270: ms. -/
def Reg.Idb.PRESENT_DEBOUNCE (a : Nat) : Fld := fldC a 0xd7 0 13 500
/-- RW, R270: Word 0–127 of the profile memory; incremented by each PROF_DATA access. -/
def Reg.Idb.PROF_IDX (a : Nat) : Fld := fldC a 0xd8 0 7 0
/-- RW, R270: Profile word at PROF_IDX. -/
def Reg.Idb.PROF_DATA (a : Nat) : Fld := fldC a 0xd9 0 32 0
/-- RO, R270: SUM_SEQ of the current slot. -/
def Reg.Idb.SUMMARY_SEQ (a : Nat) : Fld := fldC a 0xda 0 16 0
/-- RO, R270: Summary writes since power-up, wrapping. -/
def Reg.Idb.SUMMARY_WRITES (a : Nat) : Fld := fldC a 0xda 16 16 0
/-- RO, R270: SUM_TIME [31:0] of the current slot. -/
def Reg.Idb.SUMMARY_TIME (a : Nat) : Fld := fldC a 0xdb 0 32 0
/-- RO, R270: Unacknowledged transfers, wrapping. -/
def Reg.Idb.ID_NACK_COUNT (a : Nat) : Fld := fldC a 0xdc 0 16 0
/-- RO, R270: Bus recoveries, wrapping. -/
def Reg.Idb.ID_RECOVER_COUNT (a : Nat) : Fld := fldC a 0xdc 16 16 0
/-! ### WN140 ledger group (management addresses 0xE0–0xEF) (R288, 12_lease_ledger.md) -/

/-- RO, R288: Ring index of the committed head. -/
def Reg.Ring.RING_HEAD (a : Nat) : Fld := fldC a 0xe0 0 8 0
/-- RO, R288: A tenure is open. -/
def Reg.Ring.PACK_OPEN (a : Nat) : Fld := fldC a 0xe0 8 1 0
/-- RO, R288: A commit is running. -/
def Reg.Ring.COMMIT_BUSY (a : Nat) : Fld := fldC a 0xe0 9 1 0
/-- W1C, R288: R279. -/
def Reg.Ring.COMMIT_FAILED (a : Nat) : Fld := fldC a 0xe0 16 1 0
/-- W1C, R288: R272. -/
def Reg.Ring.METER_GAP_SEEN (a : Nat) : Fld := fldC a 0xe0 17 1 0
/-- W1C, R288: R280. -/
def Reg.Ring.PF_ROW_MISSED (a : Nat) : Fld := fldC a 0xe0 18 1 0
/-- W1C, R288: R279. -/
def Reg.Ring.RING_FAULT (a : Nat) : Fld := fldC a 0xe0 19 1 0
/-- RS, R288: Live charge count [31:0]; snapshots 0xE2–0xE3. -/
def Reg.Ring.CHARGE_WH_LO (a : Nat) : Fld := fldC a 0xe1 0 32 0
/-- RS, R288: Live discharge count [31:0]. -/
def Reg.Ring.DISCHARGE_WH_LO (a : Nat) : Fld := fldC a 0xe2 0 32 0
/-- RS, R288: [47:32]. -/
def Reg.Ring.CHARGE_WH_HI (a : Nat) : Fld := fldC a 0xe3 0 16 0
/-- RS, R288: [47:32]. -/
def Reg.Ring.DISCHARGE_WH_HI (a : Nat) : Fld := fldC a 0xe3 16 16 0
/-- RO, R288: ROW_SEQ of the committed head. -/
def Reg.Ring.ROW_SEQ_HEAD (a : Nat) : Fld := fldC a 0xe4 0 28 0
/-- RW, R288: s, 10–600. -/
def Reg.Ring.COMMIT_PERIOD (a : Nat) : Fld := fldC a 0xe5 0 10 60
/-- RO, R288: Wrapping. -/
def Reg.Ring.METER_GAP_COUNT (a : Nat) : Fld := fldC a 0xe5 16 16 0
/-- RW, R288: ROW_SEQ to fetch. -/
def Reg.Ring.ROW_SEL (a : Nat) : Fld := fldC a 0xe6 0 28 0
/-- WS, R288: Copy the row into 0xE8–0xEF, within 10 µs. -/
def Reg.Ring.ROW_FETCH (a : Nat) : Fld := fldC a 0xe7 0 1 0
/-- RO, R288: 0 none, 1 valid, 2 gone, 3 not yet, 4 store error. -/
def Reg.Ring.ROW_RESULT (a : Nat) : Fld := fldC a 0xe7 1 3 0
/-- RO, R288: Row bytes 4w to 4w + 3. -/
def Reg.Ring.ROW_W (a j : Nat) : Fld := fldC a (0xe8 + j) 0 32 0
/-! ### WN140 CAN group (management addresses 0xB0–0xCF) (R302, 13_message_bus_controller.md) -/

/-- RW, R302: Code of R290. -/
def Reg.Can.ARB_RATE (c : Nat) : Fld := fldX c 0 0 3 3
/-- RW, R302: Code of R290. -/
def Reg.Can.DATA_RATE (c : Nat) : Fld := fldX c 0 3 3 2
/-- RW, R302: 0 PRIORITY, 1 BUFFER. -/
def Reg.Can.TX_ORDER (c : Nat) : Fld := fldX c 0 6 1 0
/-- RW, R302: Bus monitoring. -/
def Reg.Can.LISTEN_ONLY (c : Nat) : Fld := fldX c 0 7 1 0
/-- RO, R302: 0 OFFLINE, 1 ERROR_ACTIVE, 2 ERROR_PASSIVE, 3 BUS_OFF; 4–7 not used. -/
def Reg.Can.CAN_STATE (c : Nat) : Fld := fldX c 1 0 3 0
/-- RO, R302: A counter at 96 or above. -/
def Reg.Can.ERR_WARN (c : Nat) : Fld := fldX c 1 3 1 0
/-- RO, R302: R299. -/
def Reg.Can.BUS_ALONE (c : Nat) : Fld := fldX c 1 4 1 0
/-- RO, R302: R298. -/
def Reg.Can.RECOVERING (c : Nat) : Fld := fldX c 1 5 1 0
/-- RO, R302: Saturating at 255. -/
def Reg.Can.TEC (c : Nat) : Fld := fldX c 1 8 8 0
/-- RO, R302: Saturating at 255. -/
def Reg.Can.REC (c : Nat) : Fld := fldX c 1 16 8 0
/-- W1C, R302: Entered ERROR_PASSIVE. -/
def Reg.Can.PASSIVE_SEEN (c : Nat) : Fld := fldX c 2 0 1 0
/-- W1C, R302: Entered BUS_OFF. -/
def Reg.Can.BUS_OFF_SEEN (c : Nat) : Fld := fldX c 2 1 1 0
/-- W1C, R302: BUS_ALONE set. -/
def Reg.Can.ALONE_SEEN (c : Nat) : Fld := fldX c 2 2 1 0
/-- W1C, R302: R300. -/
def Reg.Can.IDENT_CLASH (c : Nat) : Fld := fldX c 2 3 1 0
/-- W1C, R302: R295. -/
def Reg.Can.RX_OVERFLOW_SEEN (c : Nat) : Fld := fldX c 2 4 1 0
/-- W1C, R302: R292. -/
def Reg.Can.TX_SKIPPED_SEEN (c : Nat) : Fld := fldX c 2 5 1 0
/-- W1C, R302: R290. -/
def Reg.Can.TDC_RANGE (c : Nat) : Fld := fldX c 2 6 1 0
/-- WS, R302: Restart from BUS_OFF (R298). -/
def Reg.Can.CAN_RESTART (c : Nat) : Fld := fldX c 3 0 1 0
/-- WS, R302: Send buffer 2. -/
def Reg.Can.TX2_GO (c : Nat) : Fld := fldX c 3 1 1 0
/-- WS, R302: Abort buffer 2. -/
def Reg.Can.TX2_ABORT (c : Nat) : Fld := fldX c 3 2 1 0
/-- RO, R302: 0 empty, 1 pending, 2 sending, 3 DONE, 4 ABORTED, 5 FAILED, 6 CLASH, 7 BUS_OFF. -/
def Reg.Can.TX0_RESULT (c : Nat) : Fld := fldX c 4 0 4 0
/-- RO, R302: As TX0_RESULT. -/
def Reg.Can.TX1_RESULT (c : Nat) : Fld := fldX c 4 4 4 0
/-- RO, R302: As TX0_RESULT. -/
def Reg.Can.TX2_RESULT (c : Nat) : Fld := fldX c 4 8 4 0
/-- RO, R302: Data-field bit of the last clash. -/
def Reg.Can.CLASH_POS (c : Nat) : Fld := fldX c 4 12 9 0
/-- RW, R302: Identifier. -/
def Reg.Can.TX2_ID (c : Nat) : Fld := fldX c 5 0 29 0
/-- RW, R302: Extended identifier. -/
def Reg.Can.TX2_IDE (c : Nat) : Fld := fldX c 5 29 1 0
/-- RW, R302: FD frame. -/
def Reg.Can.TX2_FDF (c : Nat) : Fld := fldX c 5 30 1 0
/-- RW, R302: Bit rate switch. -/
def Reg.Can.TX2_BRS (c : Nat) : Fld := fldX c 5 31 1 0
/-- RW, R302: Data bytes, 0–8. -/
def Reg.Can.TX2_LEN (c : Nat) : Fld := fldX c 6 0 4 0
/-- RW, R302: R292. -/
def Reg.Can.TX2_ONE_SHOT (c : Nat) : Fld := fldX c 6 4 1 0
/-- RW, R302: Data bytes 0–3. -/
def Reg.Can.TX2_DATA_LO (c : Nat) : Fld := fldX c 7 0 32 0
/-- RW, R302: Data bytes 4–7. -/
def Reg.Can.TX2_DATA_HI (c : Nat) : Fld := fldX c 8 0 32 0
/-- RO, R302: Frames sent, wrapping. -/
def Reg.Can.TX_OK (c : Nat) : Fld := fldX c 9 0 16 0
/-- RO, R302: Wrapping. -/
def Reg.Can.TX_SKIPPED (c : Nat) : Fld := fldX c 9 16 16 0
/-- RO, R302: Frames queued, wrapping. -/
def Reg.Can.RX_OK (c : Nat) : Fld := fldX c 10 0 16 0
/-- RO, R302: Filtered, remote or FD at code 0, wrapping. -/
def Reg.Can.RX_DISCARDED (c : Nat) : Fld := fldX c 10 16 16 0
/-- RO, R302: Wrapping. -/
def Reg.Can.RX_OVERFLOW (c : Nat) : Fld := fldX c 11 0 16 0
/-- RO, R302: Owned entries, 0–16. -/
def Reg.Can.RXQ_DEPTH (c : Nat) : Fld := fldX c 11 16 5 0
/-- RO, R302: Wrapping. -/
def Reg.Can.BUS_OFF_COUNT (c : Nat) : Fld := fldX c 12 0 16 0
/-- RO, R302: Buffers ended CLASH, wrapping. -/
def Reg.Can.CLASH_COUNT (c : Nat) : Fld := fldX c 12 16 16 0
/-- RO, R302: 0 none, 1 stuff, 2 form, 3 acknowledgement, 4 bit 1, 5 bit 0, 6 CRC; 7 not used. -/
def Reg.Can.LAST_ERR (c : Nat) : Fld := fldX c 13 0 3 0
/-- RO, R302: Error in the data phase. -/
def Reg.Can.LAST_ERR_DATA (c : Nat) : Fld := fldX c 13 3 1 0
/-- RO, R302: Measured transmitter delay, CAN clock periods. -/
def Reg.Can.TDC_VALUE (c : Nat) : Fld := fldX c 13 8 8 0
/-! ### WN140 faults and test group (management addresses 0xF0–0xFF) (R348, 15_faults_and_fencing.md) -/

/-- RO, R348: Messages queued, 0–8 (R102). -/
def Reg.CFlt.QUEUE_DEPTH (a : Nat) : Fld := fldC a 0xf0 0 4 0
/-- RO, R348: Messages dropped, wrapping; as report word 13. -/
def Reg.CFlt.QUEUE_DROPPED (a : Nat) : Fld := fldC a 0xf0 4 12 0
/-- RO, R348: Queue not empty. -/
def Reg.CFlt.HEAD_VALID (a : Nat) : Fld := fldC a 0xf0 16 1 0
/-- RO, R348: Toggle of the head. -/
def Reg.CFlt.HEAD_T (a : Nat) : Fld := fldC a 0xf0 17 1 0
/-- RS, R348: Head message [31:0]; snapshots 0xF2. -/
def Reg.CFlt.HEAD_LO (a : Nat) : Fld := fldC a 0xf1 0 32 0
/-- RS, R348: Head message [63:32]. -/
def Reg.CFlt.HEAD_HI (a : Nat) : Fld := fldC a 0xf2 0 32 0
/-- RW, R348: DETAIL of the injected message. -/
def Reg.CFlt.INJ_DETAIL (a : Nat) : Fld := fldC a 0xf3 0 32 0
/-- RW, R348: Level-1 kind of R329. -/
def Reg.CFlt.INJ_KIND (a : Nat) : Fld := fldC a 0xf4 0 8 0
/-- WS, R348: Queue the message with INJECTED. -/
def Reg.CFlt.INJ_GO (a : Nat) : Fld := fldC a 0xf4 8 1 0
/-- RO, R348: 0 none, 1 queued, 2 dropped: queue full, 3 refused: kind not level 1. -/
def Reg.CFlt.INJ_RESULT (a : Nat) : Fld := fldC a 0xf4 9 2 0
/-- RO, R348: Messages queued, wrapping. -/
def Reg.CFlt.FAULTS_RAISED (a : Nat) : Fld := fldC a 0xf5 0 16 0
/-- RO, R348: Injected messages queued, wrapping. -/
def Reg.CFlt.FAULTS_INJECTED (a : Nat) : Fld := fldC a 0xf5 16 16 0
/-- RW, R348: Must equal DIE_UID [31:0] for FIELD_CLOSE_GO (R411). -/
def Reg.CFlt.FIELD_CLOSE_CODE (a : Nat) : Fld := fldC a 0xf7 0 32 0
/-- WS, R348: Blow the field fuse; accepted only in ADMIT; completes within 10 ms. -/
def Reg.CFlt.FIELD_CLOSE_GO (a : Nat) : Fld := fldC a 0xf8 0 1 0
/-- RO, R348: 0 none, 1 closed, 2 refused: code, 3 refused: state, 4 already closed, 5 fuse did not read back blown; 6–7 reserved. -/
def Reg.CFlt.FIELD_CLOSE_RESULT (a : Nat) : Fld := fldC a 0xf8 1 3 0

end Sys2Proof.Machine
end

