-- ==== Sys2Proof/Machine/RegsStation.lean ====
section
/-! DEFINITION. Where every register field lives: the fields of the WC8400 host window.
One definition per field of the register tables of the specification: its place (space, word address, least
significant bit), its width and its reset value. The docstring gives the access code, the rule that holds the
table and the table's own description. An argument p is the host port of a field held per port (R415), a the cell
address, g the global rope index, r the region, e the rope end, b the lane port, j the element of a run of words. -/

namespace Sys2Proof.Machine

/-! ### Region redundancy registers, region status block 0x1_0000 + region × 0x2000 (R22, 01_station_hierarchy.md) -/

/-- RO, R22: Insertable cells in the last frozen frame, 0–2,048. -/
def Reg.RegionRed.N_INSERTABLE (r : Nat) : Fld := fldS (0x10000 + r * 0x2000 + 0x10) 0 12 0
/-- RO, R22: Minimum insertable count from the route card. -/
def Reg.RegionRed.N_MIN (r : Nat) : Fld := fldS (0x10000 + r * 0x2000 + 0x10) 16 12 0
/-- RO, R22: N_INSERTABLE − N_MIN, two's complement. -/
def Reg.RegionRed.REDUNDANCY (r : Nat) : Fld := fldS (0x10000 + r * 0x2000 + 0x14) 0 13 0
/-- RO, R22: REDUNDANCY below REDUNDANCY_WARN. -/
def Reg.RegionRed.LOW (r : Nat) : Fld := fldS (0x10000 + r * 0x2000 + 0x14) 13 1 0
/-- RO, R22: REDUNDANCY below 0; the region is blocked. -/
def Reg.RegionRed.BELOW_MIN (r : Nat) : Fld := fldS (0x10000 + r * 0x2000 + 0x14) 14 1 0
/-- RO, R22: Warning margin from the route card. -/
def Reg.RegionRed.REDUNDANCY_WARN (r : Nat) : Fld := fldS (0x10000 + r * 0x2000 + 0x14) 16 12 0
/-! ### Die status, station status block, offset 0x0_3010 (R26, 01_station_hierarchy.md) -/

/-- RO, R26: 0 OFF (fused off or not started), 1 PARTNER_ONLY, 2 ACTIVE, 3 SERVING_PARTNER (TRAVERSE), 4 LOST; 5–15 reserved. -/
def Reg.Die.RIDGE0_STATE : Fld := fldS 0x3010 0 4 0
/-- RO, R26: As RIDGE0_STATE. -/
def Reg.Die.RIDGE1_STATE : Fld := fldS 0x3010 4 4 0
/-- RO, R26: As RIDGE0_STATE. -/
def Reg.Die.RIDGE2_STATE : Fld := fldS 0x3010 8 4 0
/-- RO, R26: As RIDGE0_STATE; PARTNER_ONLY on a WC8400-3 in normal service. -/
def Reg.Die.RIDGE3_STATE : Fld := fldS 0x3010 12 4 0
/-- RO, R26: Die-to-die link 0↔1 in service. -/
def Reg.Die.LINK01_UP : Fld := fldS 0x3010 16 1 0
/-- RO, R26: Die-to-die link 2↔3 in service. -/
def Reg.Die.LINK23_UP : Fld := fldS 0x3010 17 1 0
/-- RO, R26: Control plane 0 in lockstep and in service. -/
def Reg.Die.PLANE0_OK : Fld := fldS 0x3010 20 1 0
/-- RO, R26: Control plane 1 in lockstep and in service. -/
def Reg.Die.PLANE1_OK : Fld := fldS 0x3010 21 1 0
/-- RO, R26: Plane whose outputs drive the Ridges. -/
def Reg.Die.ACTIVE_PLANE : Fld := fldS 0x3010 22 1 0
/-- RO, R26: A plane is being resynchronised as spare. -/
def Reg.Die.RESYNC : Fld := fldS 0x3010 23 1 0
/-! ### Time registers, time and angle block, base 0x0_4000 (R43, 02_time_and_angle.md) -/

/-- RS, R43: Nanoseconds; a read snapshots 0x0_4004–0x0_4010. -/
def Reg.Time.TIME_NS : Fld := fldS 0x4000 0 30 0
/-- RS, R43: Seconds [31:0], from the snapshot. -/
def Reg.Time.TIME_SEC_LO : Fld := fldS 0x4004 0 32 0
/-- RS, R43: Seconds [47:32], from the snapshot. -/
def Reg.Time.TIME_SEC_HI : Fld := fldS 0x4008 0 16 0
/-- RS, R43: Fraction of a nanosecond, from the snapshot. -/
def Reg.Time.TIME_FRAC : Fld := fldS 0x400c 0 16 0
/-- RS, R43: Number of the frame containing the snapshot instant. -/
def Reg.Time.FRAME_NUM : Fld := fldS 0x4010 0 32 0
/-- RO, R43: Time base carries reference time: set at the step, or at the first lock when no step is taken (R37). -/
def Reg.Time.TIME_VALID : Fld := fldS 0x4014 0 1 0
/-- RO, R43: The single step of R37 has been taken. -/
def Reg.Time.STEPPED : Fld := fldS 0x4014 1 1 0
/-- RO, R43: Time base locked to the reference (R45). -/
def Reg.Time.REF_LOCKED : Fld := fldS 0x4014 2 1 0
/-- RO, R43: Reference lost or rejected. -/
def Reg.Time.HOLDOVER : Fld := fldS 0x4014 3 1 0
/-- RO, R43: Phase term of RATE_ADJ at ±TIME_SLEW_MAX (R39). -/
def Reg.Time.SLEWING : Fld := fldS 0x4014 4 1 0
/-- RO, R43: Holdover longer than HOLDOVER_LIMIT. -/
def Reg.Time.DEGRADED : Fld := fldS 0x4014 5 1 0
/-- RO, R43: PPS edge seen within the last 1.5 s. -/
def Reg.Time.PPS_PRESENT : Fld := fldS 0x4014 6 1 0
/-- RO, R43: PTP master selected and Sync received. -/
def Reg.Time.PTP_PRESENT : Fld := fldS 0x4014 7 1 0
/-- RO, R43: From the route card (R42). -/
def Reg.Time.REF_MODE : Fld := fldS 0x4014 8 2 0
/-- RO, R43: Frame period 20 µs. -/
def Reg.Time.FRAME_20US : Fld := fldS 0x4014 10 1 0
/-- W1C, R43: Reference lock declared. -/
def Reg.Time.REF_ACQUIRED : Fld := fldS 0x4018 0 1 0
/-- W1C, R43: Reference lost. -/
def Reg.Time.REF_LOST : Fld := fldS 0x4018 1 1 0
/-- W1C, R43: Step taken. -/
def Reg.Time.STEP_DONE : Fld := fldS 0x4018 2 1 0
/-- W1C, R43: Reference rejected (R40). -/
def Reg.Time.REF_REJECTED : Fld := fldS 0x4018 3 1 0
/-- W1C, R43: PPS missing for 3 s. -/
def Reg.Time.PPS_MISSING : Fld := fldS 0x4018 4 1 0
/-- W1C, R43: Frame epoch reset (R59, R38). -/
def Reg.Time.FRAME_RESYNC : Fld := fldS 0x4018 5 1 0
/-- RO, R43: Servo output, signed, units 2^-40. -/
def Reg.Time.RATE_ADJ : Fld := fldS 0x401c 0 32 0
/-- RO, R43: Time base minus reference at the last reference cycle, signed ns, saturating. -/
def Reg.Time.REF_OFFSET : Fld := fldS 0x4020 0 32 0
/-- RO, R43: From the route card, ns, 0–8,000. -/
def Reg.Time.LATE_WINDOW : Fld := fldS 0x4024 0 13 2000
/-- RO, R43: Actions executed late (R62, R63), wrapping. -/
def Reg.Time.LATE_COUNT : Fld := fldS 0x4028 0 32 0
/-- RO, R43: Actions discarded (R62, R63, R64), wrapping. -/
def Reg.Time.DROPPED_COUNT : Fld := fldS 0x402c 0 32 0
/-- WS, R43: Start a synchronisation by order (R58, R59); ORDER right. -/
def Reg.Time.SYNC_GO (p : Nat) : Fld := fldP p 0x4030 0 1 0
/-- RW, R43: Include the frame epoch. -/
def Reg.Time.SYNC_FRAME : Fld := fldS 0x4030 1 1 0
/-- RW, R43: Channels to reset; bits for channels 0 and 1 are ignored. -/
def Reg.Time.SYNC_MASK : Fld := fldS 0x4030 16 16 0
/-- RO, R43: 0 none, 1 done, 2 refused BUSY, 3 ignored from PPS. -/
def Reg.Time.SYNC_RESULT (p : Nat) : Fld := fldP p 0x4034 0 2 0
/-- RO, R43: 0 order, 1 PPS_IN. -/
def Reg.Time.SYNC_SOURCE : Fld := fldS 0x4034 2 1 0
/-- RO, R43: Channels reset by the last synchronisation. -/
def Reg.Time.SYNC_APPLIED : Fld := fldS 0x4034 16 16 0
/-- RS, R43: Grandmaster clockIdentity [31:0]; snapshots 0x0_403C. -/
def Reg.Time.PTP_GM_ID_LO : Fld := fldS 0x4038 0 32 0
/-- RS, R43: clockIdentity [63:32]. -/
def Reg.Time.PTP_GM_ID_HI : Fld := fldS 0x403c 0 32 0
/-- RO, R43: portState numbering of IEEE 1588-2019. -/
def Reg.Time.PTP_PORT_STATE : Fld := fldS 0x4040 0 4 1
/-- RO, R43: From the route card. -/
def Reg.Time.PTP_DOMAIN : Fld := fldS 0x4040 16 8 0
/-- RW, R43: Seconds [31:0] for the PPS-mode step; ORDER or MAINT right. -/
def Reg.Time.TIME_SET_SEC_LO : Fld := fldS 0x4044 0 32 0
/-- RW, R43: Seconds [47:32]. -/
def Reg.Time.TIME_SET_SEC_HI : Fld := fldS 0x4048 0 16 0
/-! ### Angle channel registers, base 0x0_4100 + n × 0x20, n = 0–15 (R60, 02_time_and_angle.md) -/

/-- RS, R60: Angle, ac; snapshots +0x04 to +0x0C. -/
def Reg.Angle.ANGLE (n : Nat) : Fld := fldS (0x4100 + n * 0x20) 0 32 0
/-- RS, R60: Fraction of an ac. -/
def Reg.Angle.ANGLE_FRAC (n : Nat) : Fld := fldS (0x4100 + n * 0x20 + 0x4) 0 16 0
/-- RS, R60: Signed, 2^-16 ac/ns. -/
def Reg.Angle.RATE (n : Nat) : Fld := fldS (0x4100 + n * 0x20 + 0x8) 0 32 0
/-- RS, R60: Short stamp of the instant the snapshot angle holds. -/
def Reg.Angle.STAMP (n : Nat) : Fld := fldS (0x4100 + n * 0x20 + 0xc) 0 32 0
/-- RO, R60: Channel output valid. -/
def Reg.Angle.VALID (n : Nat) : Fld := fldS (0x4100 + n * 0x20 + 0x10) 0 1 0
/-- RO, R60: Lock declared (R45) or profile running. -/
def Reg.Angle.LOCKED (n : Nat) : Fld := fldS (0x4100 + n * 0x20 + 0x10) 1 1 0
/-- RO, R60: Frozen on loss of reference. -/
def Reg.Angle.COASTING (n : Nat) : Fld := fldS (0x4100 + n * 0x20 + 0x10) 2 1 0
/-- RO, R60: Gated on loss of reference. -/
def Reg.Angle.GATED (n : Nat) : Fld := fldS (0x4100 + n * 0x20 + 0x10) 3 1 0
/-- RO, R60: Profile sequence running. -/
def Reg.Angle.RAMPING (n : Nat) : Fld := fldS (0x4100 + n * 0x20 + 0x10) 4 1 0
/-- RO, R60: Current profile segment. -/
def Reg.Angle.SEGMENT (n : Nat) : Fld := fldS (0x4100 + n * 0x20 + 0x10) 8 4 0
/-- RO, R60: Tracker error, signed short-angle units (grid channels). -/
def Reg.Angle.PHASE_ERR (n : Nat) : Fld := fldS (0x4100 + n * 0x20 + 0x10) 16 16 0
/-- RO, R60: 0 unused, 1 grid, 2 profile, 3 locked. -/
def Reg.Angle.KIND (n : Nat) : Fld := fldS (0x4100 + n * 0x20 + 0x14) 0 2 0
/-- RO, R60: 0 FREEZE, 1 GATE (grid channels). -/
def Reg.Angle.LOSS_ACTION (n : Nat) : Fld := fldS (0x4100 + n * 0x20 + 0x14) 2 1 0
/-- RO, R60: Reset by PPS_IN. -/
def Reg.Angle.SYNC_EN (n : Nat) : Fld := fldS (0x4100 + n * 0x20 + 0x14) 3 1 0
/-- RO, R60: Source channel (locked kind). -/
def Reg.Angle.LOCK_SOURCE (n : Nat) : Fld := fldS (0x4100 + n * 0x20 + 0x14) 4 4 0
/-- RO, R60: M, signed. -/
def Reg.Angle.LOCK_MULT (n : Nat) : Fld := fldS (0x4100 + n * 0x20 + 0x14) 8 8 0
/-- RO, R60: OFFSET, ac. -/
def Reg.Angle.LOCK_OFFSET (n : Nat) : Fld := fldS (0x4100 + n * 0x20 + 0x18) 0 32 0
/-- W1C, R60: Lock declared. -/
def Reg.Angle.LOCK_GAINED (n : Nat) : Fld := fldS (0x4100 + n * 0x20 + 0x1c) 0 1 0
/-- W1C, R60: Lock cleared. -/
def Reg.Angle.LOCK_LOST (n : Nat) : Fld := fldS (0x4100 + n * 0x20 + 0x1c) 1 1 0
/-- W1C, R60: Channel reset by synchronisation. -/
def Reg.Angle.SYNCED (n : Nat) : Fld := fldS (0x4100 + n * 0x20 + 0x1c) 2 1 0
/-- W1C, R60: END_ACTION reached. -/
def Reg.Angle.RAMP_DONE (n : Nat) : Fld := fldS (0x4100 + n * 0x20 + 0x1c) 3 1 0
/-- W1C, R60: Actions discarded on gating (R64). -/
def Reg.Angle.GATED_DROP (n : Nat) : Fld := fldS (0x4100 + n * 0x20 + 0x1c) 4 1 0
/-! ### Region lane test registers, region block offsets 0x0020–0x0030 (R87, 03_rope_lanes.md) -/

/-- RW, R87: User pattern bits [31:0] for this region's lanes and cells. -/
def Reg.LaneTest.USER_PATTERN_LO (r : Nat) : Fld := fldS (0x10000 + r * 0x2000 + 0x20) 0 32 0
/-- RW, R87: User pattern bits [63:32]. -/
def Reg.LaneTest.USER_PATTERN_HI (r : Nat) : Fld := fldS (0x10000 + r * 0x2000 + 0x24) 0 32 0
/-- RW, R87: Rope in region to test. -/
def Reg.LaneTest.ROPE (r : Nat) : Fld := fldS (0x10000 + r * 0x2000 + 0x28) 0 5 0
/-- RW, R87: 0 off, 1 PRBS7, 2 PRBS15, 3 PRBS23, 4 PRBS31, 5 USER; 6–7 reserved. -/
def Reg.LaneTest.PATTERN (r : Nat) : Fld := fldS (0x10000 + r * 0x2000 + 0x28) 5 3 0
/-- RW, R87: Test length, 1–1,048,575 ms. -/
def Reg.LaneTest.DURATION_MS (r : Nat) : Fld := fldS (0x10000 + r * 0x2000 + 0x28) 12 20 0
/-- WS, R87: Start the rope lane test (R81). -/
def Reg.LaneTest.START (r : Nat) : Fld := fldS (0x10000 + r * 0x2000 + 0x2c) 0 1 0
/-- WS, R87: End the test at the next frame; cells re-admitted. -/
def Reg.LaneTest.ABORT (r : Nat) : Fld := fldS (0x10000 + r * 0x2000 + 0x2c) 1 1 0
/-- RO, R87: 0 none, 1 running, 2 done, 3 refused, 4 aborted; 5–7 reserved. -/
def Reg.LaneTest.RESULT (r : Nat) : Fld := fldS (0x10000 + r * 0x2000 + 0x2c) 4 3 0
/-- RO, R87: Time left in the running test. -/
def Reg.LaneTest.REMAIN_MS (r : Nat) : Fld := fldS (0x10000 + r * 0x2000 + 0x30) 0 20 0
/-! ### Rope lane registers, region block offset 0x0400 + k × 0x40 + E × 0x20 (E = 0 end A, 1 end B) (R87, 03_rope_lanes.md) -/

/-- RO, R87: Receive PLL locked (R72). -/
def Reg.RLane.PLL_LOCKED (g e : Nat) : Fld := fldS (0x10400 + g / 32 * 0x2000 + g % 32 * 0x40 + e * 0x20) 0 1 0
/-- RO, R87: Block lock held. -/
def Reg.RLane.BLOCK_LOCKED (g e : Nat) : Fld := fldS (0x10400 + g / 32 * 0x2000 + g % 32 * 0x40 + e * 0x20) 1 1 0
/-- RO, R87: Lane UP. -/
def Reg.RLane.LANE_UP (g e : Nat) : Fld := fldS (0x10400 + g / 32 * 0x2000 + g % 32 * 0x40 + e * 0x20) 2 1 0
/-- RO, R87: Held down by module mismatch (R86). -/
def Reg.RLane.REFUSED (g e : Nat) : Fld := fldS (0x10400 + g / 32 * 0x2000 + g % 32 * 0x40 + e * 0x20) 3 1 0
/-- RO, R87: Pattern test running. -/
def Reg.RLane.TEST_ACTIVE (g e : Nat) : Fld := fldS (0x10400 + g / 32 * 0x2000 + g % 32 * 0x40 + e * 0x20) 4 1 0
/-- RO, R87: Checker synchronised. -/
def Reg.RLane.CHECKER_SYNC (g e : Nat) : Fld := fldS (0x10400 + g / 32 * 0x2000 + g % 32 * 0x40 + e * 0x20) 5 1 0
/-- RO, R87: Receive equaliser code. -/
def Reg.RLane.RX_EQ (g e : Nat) : Fld := fldS (0x10400 + g / 32 * 0x2000 + g % 32 * 0x40 + e * 0x20) 8 4 0
/-- W1C, R87: Lane went down. -/
def Reg.RLane.LOCK_LOST (g e : Nat) : Fld := fldS (0x10400 + g / 32 * 0x2000 + g % 32 * 0x40 + e * 0x20 + 0x4) 0 1 0
/-- W1C, R87: Lane came UP. -/
def Reg.RLane.LOCK_GAINED (g e : Nat) : Fld := fldS (0x10400 + g / 32 * 0x2000 + g % 32 * 0x40 + e * 0x20 + 0x4) 1 1 0
/-- W1C, R87: A window exceeded ERR_LIMIT (R76). -/
def Reg.RLane.ERR_LIMIT (g e : Nat) : Fld := fldS (0x10400 + g / 32 * 0x2000 + g % 32 * 0x40 + e * 0x20 + 0x4) 2 1 0
/-- W1C, R87: A write was refused (R77, R79, R82, R83). -/
def Reg.RLane.WRITE_REFUSED (g e : Nat) : Fld := fldS (0x10400 + g / 32 * 0x2000 + g % 32 * 0x40 + e * 0x20 + 0x4) 3 1 0
/-- W1C, R87: Module serial number changed. -/
def Reg.RLane.MODULE_CHANGED (g e : Nat) : Fld := fldS (0x10400 + g / 32 * 0x2000 + g % 32 * 0x40 + e * 0x20 + 0x4) 4 1 0
/-- W1C, R87: Module not accepted by the route card. -/
def Reg.RLane.MODULE_MISMATCH (g e : Nat) : Fld := fldS (0x10400 + g / 32 * 0x2000 + g % 32 * 0x40 + e * 0x20 + 0x4) 5 1 0
/-- W1C, R87: Receive power below RX_MIN. -/
def Reg.RLane.RX_POWER_LOW (g e : Nat) : Fld := fldS (0x10400 + g / 32 * 0x2000 + g % 32 * 0x40 + e * 0x20 + 0x4) 6 1 0
/-- RW, R87: Pre-cursor tap. -/
def Reg.RLane.C_PRE (g e : Nat) : Fld := fldS (0x10400 + g / 32 * 0x2000 + g % 32 * 0x40 + e * 0x20 + 0x8) 0 4 0
/-- RW, R87: Main tap. -/
def Reg.RLane.C_MAIN (g e : Nat) : Fld := fldS (0x10400 + g / 32 * 0x2000 + g % 32 * 0x40 + e * 0x20 + 0x8) 4 6 55
/-- RW, R87: Post-cursor tap. -/
def Reg.RLane.C_POST (g e : Nat) : Fld := fldS (0x10400 + g / 32 * 0x2000 + g % 32 * 0x40 + e * 0x20 + 0x8) 10 5 8
/-- RO, R87: Invalid blocks received, wrapping. -/
def Reg.RLane.BLOCK_ERR_COUNT (g e : Nat) : Fld := fldS (0x10400 + g / 32 * 0x2000 + g % 32 * 0x40 + e * 0x20 + 0xc) 0 32 0
/-- RO, R87: Invalid blocks in the last complete 100 ms window. -/
def Reg.RLane.ERR_IN_WINDOW (g e : Nat) : Fld := fldS (0x10400 + g / 32 * 0x2000 + g % 32 * 0x40 + e * 0x20 + 0x10) 0 16 0
/-- RO, R87: From the route card. -/
def Reg.RLane.ERR_LIMIT_VALUE (g e : Nat) : Fld := fldS (0x10400 + g / 32 * 0x2000 + g % 32 * 0x40 + e * 0x20 + 0x10) 16 16 16
/-- RW, R87: As in LANE_TEST. -/
def Reg.RLane.PATTERN (g e : Nat) : Fld := fldS (0x10400 + g / 32 * 0x2000 + g % 32 * 0x40 + e * 0x20 + 0x14) 0 3 0
/-- RW, R87: Generator on. -/
def Reg.RLane.GEN_EN (g e : Nat) : Fld := fldS (0x10400 + g / 32 * 0x2000 + g % 32 * 0x40 + e * 0x20 + 0x14) 3 1 0
/-- RW, R87: Checker on. -/
def Reg.RLane.CHK_EN (g e : Nat) : Fld := fldS (0x10400 + g / 32 * 0x2000 + g % 32 * 0x40 + e * 0x20 + 0x14) 4 1 0
/-- RW, R87: Send the complement of the pattern. -/
def Reg.RLane.INVERT (g e : Nat) : Fld := fldS (0x10400 + g / 32 * 0x2000 + g % 32 * 0x40 + e * 0x20 + 0x14) 5 1 0
/-- RW, R87: Internal serial loopback (R83). -/
def Reg.RLane.LOOPBACK (g e : Nat) : Fld := fldS (0x10400 + g / 32 * 0x2000 + g % 32 * 0x40 + e * 0x20 + 0x14) 6 1 0
/-- WS, R87: Invert one bit. -/
def Reg.RLane.INJ_SINGLE (g e : Nat) : Fld := fldS (0x10400 + g / 32 * 0x2000 + g % 32 * 0x40 + e * 0x20 + 0x14) 7 1 0
/-- WS, R87: Invert BURST_LEN + 1 bits. -/
def Reg.RLane.INJ_BURST (g e : Nat) : Fld := fldS (0x10400 + g / 32 * 0x2000 + g % 32 * 0x40 + e * 0x20 + 0x14) 8 1 0
/-- RW, R87: Burst length − 1. -/
def Reg.RLane.BURST_LEN (g e : Nat) : Fld := fldS (0x10400 + g / 32 * 0x2000 + g % 32 * 0x40 + e * 0x20 + 0x14) 9 6 0
/-- RS, R87: Checker errors, saturating; snapshots +0x1C. -/
def Reg.RLane.TEST_ERR_COUNT (g e : Nat) : Fld := fldS (0x10400 + g / 32 * 0x2000 + g % 32 * 0x40 + e * 0x20 + 0x18) 0 32 0
/-- RS, R87: Checked bits, units of 2^16 bits. -/
def Reg.RLane.TEST_BITS (g e : Nat) : Fld := fldS (0x10400 + g / 32 * 0x2000 + g % 32 * 0x40 + e * 0x20 + 0x1c) 0 32 0
/-! ### Hop table, region block offset 0x0C00 + h × 8, h = 0–64 (R87, 03_rope_lanes.md) -/

/-- RO, R87: Errors on hop h towards end B in the last rope lane test; 0xFFFF_FFFF if the checker lost or never gained synchronisation. -/
def Reg.Hop.DOWN_ERRORS (r h : Nat) : Fld := fldS (0x10C00 + r * 0x2000 + h * 8) 0 32 0
/-- RO, R87: The same towards end A. -/
def Reg.Hop.UP_ERRORS (r h : Nat) : Fld := fldS (0x10C00 + r * 0x2000 + h * 8 + 0x4) 0 32 0
/-! ### Module registers, region block offset 0x1000 + k × 0x80 + E × 0x40 (R87, 03_rope_lanes.md) -/

/-- RO, R87: A0h bytes 20–35, ASCII, byte 20 in the lowest byte of +0x00. -/
def Reg.Module.VENDOR_NAME (g e j : Nat) : Fld := fldS (0x11000 + g / 32 * 0x2000 + g % 32 * 0x80 + e * 0x40 + j * 4) 0 32 0
/-- RO, R87: A0h bytes 40–55. -/
def Reg.Module.PART_NUMBER (g e j : Nat) : Fld := fldS (0x11000 + g / 32 * 0x2000 + g % 32 * 0x80 + e * 0x40 + 0x10 + j * 4) 0 32 0
/-- RO, R87: A0h bytes 68–83. -/
def Reg.Module.SERIAL (g e j : Nat) : Fld := fldS (0x11000 + g / 32 * 0x2000 + g % 32 * 0x80 + e * 0x40 + 0x20 + j * 4) 0 32 0
/-- RO, R87: A0h bytes 60–61, nm. -/
def Reg.Module.WAVELENGTH (g e : Nat) : Fld := fldS (0x11000 + g / 32 * 0x2000 + g % 32 * 0x80 + e * 0x40 + 0x30) 0 16 0
/-- RO, R87: A2h bytes 96–97, signed, 1/256 °C. -/
def Reg.Module.TEMPERATURE (g e : Nat) : Fld := fldS (0x11000 + g / 32 * 0x2000 + g % 32 * 0x80 + e * 0x40 + 0x30) 16 16 0
/-- RO, R87: A2h bytes 104–105, 0.1 µW. -/
def Reg.Module.RX_POWER (g e : Nat) : Fld := fldS (0x11000 + g / 32 * 0x2000 + g % 32 * 0x80 + e * 0x40 + 0x34) 0 16 0
/-- RO, R87: A2h bytes 102–103, 0.1 µW. -/
def Reg.Module.TX_POWER (g e : Nat) : Fld := fldS (0x11000 + g / 32 * 0x2000 + g % 32 * 0x80 + e * 0x40 + 0x34) 16 16 0
/-- RO, R87: A2h bytes 100–101, 2 µA. -/
def Reg.Module.TX_BIAS (g e : Nat) : Fld := fldS (0x11000 + g / 32 * 0x2000 + g % 32 * 0x80 + e * 0x40 + 0x38) 0 16 0
/-- RO, R87: A2h bytes 98–99, 100 µV. -/
def Reg.Module.VCC (g e : Nat) : Fld := fldS (0x11000 + g / 32 * 0x2000 + g % 32 * 0x80 + e * 0x40 + 0x38) 16 16 0
/-- RO, R87: Module answers. -/
def Reg.Module.PRESENT (g e : Nat) : Fld := fldS (0x11000 + g / 32 * 0x2000 + g % 32 * 0x80 + e * 0x40 + 0x3c) 0 1 0
/-- RO, R87: Module accepted by the route card. -/
def Reg.Module.ID_MATCH (g e : Nat) : Fld := fldS (0x11000 + g / 32 * 0x2000 + g % 32 * 0x80 + e * 0x40 + 0x3c) 1 1 0
/-- RO, R87: Held down under REFUSE. -/
def Reg.Module.REFUSED (g e : Nat) : Fld := fldS (0x11000 + g / 32 * 0x2000 + g % 32 * 0x80 + e * 0x40 + 0x3c) 2 1 0
/-- RO, R87: Internally calibrated diagnostics present. -/
def Reg.Module.DIAG_VALID (g e : Nat) : Fld := fldS (0x11000 + g / 32 * 0x2000 + g % 32 * 0x80 + e * 0x40 + 0x3c) 3 1 0
/-- RO, R87: Receive power below RX_MIN. -/
def Reg.Module.RX_LOW (g e : Nat) : Fld := fldS (0x11000 + g / 32 * 0x2000 + g % 32 * 0x80 + e * 0x40 + 0x3c) 4 1 0
/-- RO, R87: I²C bus of this module suspended (R85). -/
def Reg.Module.BUS_FAULT (g e : Nat) : Fld := fldS (0x11000 + g / 32 * 0x2000 + g % 32 * 0x80 + e * 0x40 + 0x3c) 5 1 0
/-! ### Rope frame status, region block offset 0x0100 + k × 0x10 (R120, 04_rope_frames.md) -/

/-- RO, R120: 0 CHAIN, 1 SPLIT, 2 TRAVERSE, 3 DOWN. -/
def Reg.Rope.MODE (g : Nat) : Fld := fldS (0x10100 + g / 32 * 0x2000 + g % 32 * 0x10) 0 2 3
/-- RO, R120: b of SPLIT, 0–64. -/
def Reg.Rope.BREAK_POS (g : Nat) : Fld := fldS (0x10100 + g / 32 * 0x2000 + g % 32 * 0x10) 8 7 0
/-- RO, R120: n from the route card, 0 if unused. -/
def Reg.Rope.POPULATION (g : Nat) : Fld := fldS (0x10100 + g / 32 * 0x2000 + g % 32 * 0x10) 16 7 0
/-- RO, R120: TURNED_AT of the last A-frame returned to end A. -/
def Reg.Rope.TURNED_A (g : Nat) : Fld := fldS (0x10100 + g / 32 * 0x2000 + g % 32 * 0x10 + 0x4) 0 7 127
/-- RO, R120: TURNED_AT of the last B-frame returned to end B. -/
def Reg.Rope.TURNED_B (g : Nat) : Fld := fldS (0x10100 + g / 32 * 0x2000 + g % 32 * 0x10 + 0x4) 8 7 127
/-- RO, R120: HOPS of the last A-frame received. -/
def Reg.Rope.HOPS_A (g : Nat) : Fld := fldS (0x10100 + g / 32 * 0x2000 + g % 32 * 0x10 + 0x4) 16 7 0
/-- RO, R120: HOPS of the last B-frame received. -/
def Reg.Rope.HOPS_B (g : Nat) : Fld := fldS (0x10100 + g / 32 * 0x2000 + g % 32 * 0x10 + 0x4) 24 7 0
/-- RO, R120: Report copies failing CRC, wrapping. -/
def Reg.Rope.REPORT_CRC_ERR (g : Nat) : Fld := fldS (0x10100 + g / 32 * 0x2000 + g % 32 * 0x10 + 0x8) 0 32 0
/-- RO, R120: Reports missing at REPORT_CUTOFF, wrapping. -/
def Reg.Rope.REPORT_MISSING (g : Nat) : Fld := fldS (0x10100 + g / 32 * 0x2000 + g % 32 * 0x10 + 0xc) 0 16 0
/-- RO, R120: Cairn blocks received with a bad HDR_CRC, wrapping. -/
def Reg.Rope.CAIRN_ERR (g : Nat) : Fld := fldS (0x10100 + g / 32 * 0x2000 + g % 32 * 0x10 + 0xc) 16 16 0
/-! ### Region modulation parameters, region block offsets 0x0040–0x0054 (R142, 05_edge_placed_modulation.md) -/

/-- RO, R142: Insertable band lower bound, 0.05 V. -/
def Reg.Modp.V_INS_MIN (r : Nat) : Fld := fldS (0x10000 + r * 0x2000 + 0x40) 0 16 0
/-- RO, R142: Insertable band upper bound, 0.05 V. -/
def Reg.Modp.V_INS_MAX (r : Nat) : Fld := fldS (0x10000 + r * 0x2000 + 0x40) 16 16 0
/-- RO, R142: Ticks of 0.8 ns. -/
def Reg.Modp.DEAD_TIME (r : Nat) : Fld := fldS (0x10000 + r * 0x2000 + 0x44) 0 12 750
/-- RO, R142: Ticks of 0.8 ns. -/
def Reg.Modp.MIN_PULSE (r : Nat) : Fld := fldS (0x10000 + r * 0x2000 + 0x44) 16 12 1000
/-- RO, R142: Ticks, signed. -/
def Reg.Modp.T_COMP (r : Nat) : Fld := fldS (0x10000 + r * 0x2000 + 0x48) 0 12 0
/-- RO, R142: Frames. -/
def Reg.Modp.STALE_LIMIT (r : Nat) : Fld := fldS (0x10000 + r * 0x2000 + 0x48) 12 4 3
/-- RO, R142: Swaps per frame. -/
def Reg.Modp.SWAP_MAX (r : Nat) : Fld := fldS (0x10000 + r * 0x2000 + 0x48) 16 4 4
/-- RO, R142: 0 POS_ONLY, 1 BIPOLAR. -/
def Reg.Modp.POL_MODE (r : Nat) : Fld := fldS (0x10000 + r * 0x2000 + 0x48) 20 1 0
/-- RO, R142: Conduction-drop table 0–7; 8 none, a drop of 0 V; 9–15 reserved. -/
def Reg.Modp.COND_TABLE (r : Nat) : Fld := fldS (0x10000 + r * 0x2000 + 0x48) 21 4 0
/-- RO, R142: 0.05 V. -/
def Reg.Modp.SWAP_HYST (r : Nat) : Fld := fldS (0x10000 + r * 0x2000 + 0x4c) 0 16 80
/-- RO, R142: 0.1 A. -/
def Reg.Modp.I_DIR_HYST (r : Nat) : Fld := fldS (0x10000 + r * 0x2000 + 0x4c) 16 16 200
/-- RO, R142: 0.05 V. -/
def Reg.Modp.W_MAX (r : Nat) : Fld := fldS (0x10000 + r * 0x2000 + 0x50) 0 16 400
/-- RO, R142: 0.05 V per frame. -/
def Reg.Modp.W_SLEW (r : Nat) : Fld := fldS (0x10000 + r * 0x2000 + 0x50) 16 16 10
/-- RO, R142: V. -/
def Reg.Modp.POL_HYST (r : Nat) : Fld := fldS (0x10000 + r * 0x2000 + 0x54) 0 17 700
/-! ### Region modulation status, region block offsets 0x0060–0x007C (R142, 05_edge_placed_modulation.md) -/

/-- RO, R142: Last computed frame: 0 CHARGE, 1 DISCHARGE. -/
def Reg.Mods.DUTY (r : Nat) : Fld := fldS (0x10000 + r * 0x2000 + 0x60) 0 1 0
/-- RO, R142: 0 POS, 1 NEG. -/
def Reg.Mods.POLARITY (r : Nat) : Fld := fldS (0x10000 + r * 0x2000 + 0x60) 1 1 0
/-- RO, R142: R136 acted in the last frame. -/
def Reg.Mods.CLIPPED (r : Nat) : Fld := fldS (0x10000 + r * 0x2000 + 0x60) 2 1 0
/-- RO, R142: Last rank: 0 incremental, 1 full. -/
def Reg.Mods.RANK_PATH (r : Nat) : Fld := fldS (0x10000 + r * 0x2000 + 0x60) 3 1 0
/-- RO, R142: Last rank duration, Ridge cycles. -/
def Reg.Mods.RANK_TIME (r : Nat) : Fld := fldS (0x10000 + r * 0x2000 + 0x60) 16 16 0
/-- RO, R142: Setpoint in use, 0.05 V. -/
def Reg.Mods.V_SET (r : Nat) : Fld := fldS (0x10000 + r * 0x2000 + 0x64) 0 16 0
/-- RO, R142: Cells inserted at the end of the last computed frame. -/
def Reg.Mods.N_INSERTED (r : Nat) : Fld := fldS (0x10000 + r * 0x2000 + 0x64) 16 12 0
/-- RO, R142: Level changes placed in the last frame, 0–128. -/
def Reg.Mods.EDGES_LAST (r : Nat) : Fld := fldS (0x10000 + r * 0x2000 + 0x68) 0 8 0
/-- RO, R142: Swaps in the last frame. -/
def Reg.Mods.SWAPS_LAST (r : Nat) : Fld := fldS (0x10000 + r * 0x2000 + 0x68) 8 4 0
/-- RO, R142: Steps deferred (R134), wrapping. -/
def Reg.Mods.DEFERRED_COUNT (r : Nat) : Fld := fldS (0x10000 + r * 0x2000 + 0x6c) 0 32 0
/-- RO, R142: Frames clipped (R136), wrapping. -/
def Reg.Mods.OVERMOD_COUNT (r : Nat) : Fld := fldS (0x10000 + r * 0x2000 + 0x70) 0 32 0
/-- RO, R142: Cells ranked on a carried prediction in the last frame. -/
def Reg.Mods.MISSING_RANKED (r : Nat) : Fld := fldS (0x10000 + r * 0x2000 + 0x74) 0 12 0
/-- RO, R142: Stale cells in the last frame. -/
def Reg.Mods.STALE_CELLS (r : Nat) : Fld := fldS (0x10000 + r * 0x2000 + 0x74) 16 12 0
/-- W1C, R142: Clipping acted. -/
def Reg.Mods.OVERMOD_SEEN (r : Nat) : Fld := fldS (0x10000 + r * 0x2000 + 0x7c) 0 1 0
/-- W1C, R142: A step was deferred. -/
def Reg.Mods.DEFER_SEEN (r : Nat) : Fld := fldS (0x10000 + r * 0x2000 + 0x7c) 1 1 0
/-- W1C, R142: 64 level changes placed in one direction. -/
def Reg.Mods.BUDGET_HIT (r : Nat) : Fld := fldS (0x10000 + r * 0x2000 + 0x7c) 2 1 0
/-- W1C, R142: A rank passed its bound; commands of that frame sent EMPTY. -/
def Reg.Mods.RANK_LATE (r : Nat) : Fld := fldS (0x10000 + r * 0x2000 + 0x7c) 3 1 0
/-- W1C, R142: Polarity reversed (R131). -/
def Reg.Mods.POL_REVERSED (r : Nat) : Fld := fldS (0x10000 + r * 0x2000 + 0x7c) 4 1 0
/-! ### Rank probe, region block offsets 0x0080–0x008C (R143, 05_edge_placed_modulation.md) -/

/-- RW, R143: Cell address bits [10:0] within this region. -/
def Reg.RankProbe.PROBE_CELL (p r : Nat) : Fld := fldP p (0x10000 + r * 0x2000 + 0x80) 0 11 0
/-- RS, R143: KEY, signed, 0.05 V; snapshots 0x0088–0x008C. -/
def Reg.RankProbe.PROBE_KEY (p r : Nat) : Fld := fldP p (0x10000 + r * 0x2000 + 0x84) 0 24 0
/-- RS, R143: E_DEV, signed, 0.05 V. -/
def Reg.RankProbe.PROBE_E_DEV (p r : Nat) : Fld := fldP p (0x10000 + r * 0x2000 + 0x88) 0 16 0
/-- RS, R143: W_APPLIED, signed, 0.05 V. -/
def Reg.RankProbe.PROBE_W (p r : Nat) : Fld := fldP p (0x10000 + r * 0x2000 + 0x88) 16 16 0
/-- RS, R143: Place in the ascending order, 0 = lowest key. -/
def Reg.RankProbe.PROBE_PLACE (p r : Nat) : Fld := fldP p (0x10000 + r * 0x2000 + 0x8c) 0 12 0
/-- RS, R143: Cell insertable and in the order. -/
def Reg.RankProbe.PROBE_RANKED (p r : Nat) : Fld := fldP p (0x10000 + r * 0x2000 + 0x8c) 12 1 0
/-- RS, R143: Inserted at the end of the last computed frame. -/
def Reg.RankProbe.PROBE_INSERTED (p r : Nat) : Fld := fldP p (0x10000 + r * 0x2000 + 0x8c) 13 1 0
/-- RS, R143: AGE above STALE_LIMIT. -/
def Reg.RankProbe.PROBE_STALE (p r : Nat) : Fld := fldP p (0x10000 + r * 0x2000 + 0x8c) 14 1 0
/-- RS, R143: AGE, saturating at 15. -/
def Reg.RankProbe.PROBE_AGE (p r : Nat) : Fld := fldP p (0x10000 + r * 0x2000 + 0x8c) 16 4 0
/-! ### Policy status, station status block offsets 0x0_3200–0x0_3228 (R166, 06_energy_dispatch.md) -/

/-- RO, R166: Completed ticks, wrapping. -/
def Reg.Pol.TICK_COUNT : Fld := fldS 0x3200 0 32 0
/-- RO, R166: P_BATT_ORDER latched by the last tick, signed kW. -/
def Reg.Pol.P_BATT_IN_USE : Fld := fldS 0x3204 0 32 0
/-- RO, R166: Σ I_BATT_REF × V_PACK of the last tick, signed kW. -/
def Reg.Pol.P_BATT_ALLOC : Fld := fldS 0x3208 0 32 0
/-- RO, R166: Mean Σ V_PACK × I_PACK of fresh reports over the last tick, signed kW. -/
def Reg.Pol.P_BATT_MEAS : Fld := fldS 0x320c 0 32 0
/-- RO, R166: Order not placeable (R158), kW. -/
def Reg.Pol.P_BATT_SHORT : Fld := fldS 0x3210 0 32 0
/-- RO, R166: Duration of the last tick, µs. -/
def Reg.Pol.TICK_TIME : Fld := fldS 0x3214 0 16 0
/-- RO, R166: 0 CHARGE, 1 DISCHARGE. -/
def Reg.Pol.DIRECTION : Fld := fldS 0x3214 16 1 0
/-- RO, R166: Station total. -/
def Reg.Pol.PACKS_ELIGIBLE : Fld := fldS 0x3218 0 15 0
/-- RO, R166: Packs with DERATE ≠ 0. -/
def Reg.Pol.PACKS_DERATED : Fld := fldS 0x3218 16 15 0
/-- RO, R166: Packs fenced by policy. -/
def Reg.Pol.PACKS_FENCED : Fld := fldS 0x321c 0 15 0
/-- RO, R166: Cells fenced by policy. -/
def Reg.Pol.CELLS_FENCED : Fld := fldS 0x321c 16 15 0
/-- RO, R166: Abandoned ticks (R146), wrapping. -/
def Reg.Pol.POLICY_LATE_COUNT : Fld := fldS 0x3220 0 32 0
/-- W1C, R166: A tick was abandoned. -/
def Reg.Pol.POLICY_LATE : Fld := fldS 0x3224 0 1 0
/-- W1C, R166: P_BATT_SHORT was non-zero. -/
def Reg.Pol.SHORTFALL : Fld := fldS 0x3224 1 1 0
/-- W1C, R166: A cell fence was held (R163). -/
def Reg.Pol.FENCE_HELD : Fld := fldS 0x3224 2 1 0
/-- W1C, R166: A pack's quota reached 0. -/
def Reg.Pol.QUOTA_OUT : Fld := fldS 0x3224 3 1 0
/-! ### Lease registers, offsets 0x0_3240–0x0_3250 (R166, 06_energy_dispatch.md) -/

/-- RW, R166: Cell address. -/
def Reg.Lease.LEASE_CELL (p : Nat) : Fld := fldP p 0x3240 0 14 0
/-- RW, R166: Low 32 bits of the pack identity. -/
def Reg.Lease.LEASE_UID (p : Nat) : Fld := fldP p 0x3244 0 32 0
/-- RW, R166: 0.001 cost unit per kWh. -/
def Reg.Lease.LEASE_COST (p : Nat) : Fld := fldP p 0x3248 0 16 0
/-- RW, R166: Wh; 0xFFFF_FFFF unlimited. -/
def Reg.Lease.LEASE_QUOTA (p : Nat) : Fld := fldP p 0x324c 0 32 0
/-- WS, R166: Apply the terms (R156). -/
def Reg.Lease.LEASE_GO (p : Nat) : Fld := fldP p 0x3250 0 1 0
/-- RW, R166: 0 replace quota, 1 add to quota. -/
def Reg.Lease.LEASE_MODE (p : Nat) : Fld := fldP p 0x3250 1 1 0
/-- RO, R166: 0 none, 1 applied, 2 refused: no pack or UID mismatch, 3 refused: rights; 4–7 reserved. -/
def Reg.Lease.LEASE_RESULT (p : Nat) : Fld := fldP p 0x3250 4 3 0
/-! ### Policy probe, offsets 0x0_3280–0x0_329C (R166, 06_energy_dispatch.md) -/

/-- RW, R166: Cell address. -/
def Reg.PolProbe.POLICY_PROBE_CELL (p : Nat) : Fld := fldP p 0x3280 0 14 0
/-- RS, R166: SOC[j], 0.01 %; snapshots 0x0_3288–0x0_329C. -/
def Reg.PolProbe.PR_SOC (p : Nat) : Fld := fldP p 0x3284 0 16 0
/-- RS, R166: H[j], 0.1 %. -/
def Reg.PolProbe.PR_HEALTH (p : Nat) : Fld := fldP p 0x3284 16 10 0
/-- RS, R166: Signed, 0.05 A. -/
def Reg.PolProbe.PR_I_BATT_REF (p : Nat) : Fld := fldP p 0x3288 0 16 0
/-- RS, R166: Signed, 0.05 V. -/
def Reg.PolProbe.PR_W_TARGET (p : Nat) : Fld := fldP p 0x3288 16 16 0
/-- RS, R166: 0.05 A. -/
def Reg.PolProbe.PR_I_LIM_CH (p : Nat) : Fld := fldP p 0x328c 0 16 0
/-- RS, R166: 0.05 A. -/
def Reg.PolProbe.PR_I_LIM_DIS (p : Nat) : Fld := fldP p 0x328c 16 16 0
/-- RS, R166: DERATE bits (R154). -/
def Reg.PolProbe.PR_DERATE (p : Nat) : Fld := fldP p 0x3290 0 8 0
/-- RS, R166: 0 no pack, 1 eligible, 2 not eligible, 3 quota out, 4 pack fenced, 5 cell fenced; 6–7 reserved. -/
def Reg.PolProbe.PR_PACK_STATE (p : Nat) : Fld := fldP p 0x3290 8 3 0
/-- RS, R166: m[j], units 1/1,024. -/
def Reg.PolProbe.PR_MERIT (p : Nat) : Fld := fldP p 0x3290 16 16 0
/-- RS, R166: Wh. -/
def Reg.PolProbe.PR_Q_REMAIN (p : Nat) : Fld := fldP p 0x3294 0 32 0
/-- RS, R166: 0.001 cost unit per kWh. -/
def Reg.PolProbe.PR_COST (p : Nat) : Fld := fldP p 0x3298 0 16 0
/-- RS, R166: RR[j], units 1/1,024. -/
def Reg.PolProbe.PR_RR (p : Nat) : Fld := fldP p 0x3298 16 16 0
/-- RS, R166: Hours since the last probe result used, saturating. -/
def Reg.PolProbe.PR_HEALTH_AGE (p : Nat) : Fld := fldP p 0x329c 0 16 0
/-! ### Region policy status, region block offsets 0x0090–0x00A4 (R166, 06_energy_dispatch.md) -/

/-- RO, R166: Share of the last tick, signed kW. -/
def Reg.RegPol.P_REGION (r : Nat) : Fld := fldS (0x10000 + r * 0x2000 + 0x90) 0 32 0
/-- RO, R166: Σ P_MAX in the tick's direction, kW. -/
def Reg.RegPol.P_REGION_MAX (r : Nat) : Fld := fldS (0x10000 + r * 0x2000 + 0x94) 0 32 0
/-- RO, R166: 0.01 %. -/
def Reg.RegPol.SOC_MEAN (r : Nat) : Fld := fldS (0x10000 + r * 0x2000 + 0x98) 0 16 0
/-- RO, R166: Lowest SOC of eligible packs, 0.01 %. -/
def Reg.RegPol.SOC_LOW (r : Nat) : Fld := fldS (0x10000 + r * 0x2000 + 0x9c) 0 16 0
/-- RO, R166: Highest, 0.01 %. -/
def Reg.RegPol.SOC_HIGH (r : Nat) : Fld := fldS (0x10000 + r * 0x2000 + 0x9c) 16 16 0
/-- RO, R166: In this region. -/
def Reg.RegPol.PACKS_ELIGIBLE (r : Nat) : Fld := fldS (0x10000 + r * 0x2000 + 0xa0) 0 12 0
/-- RO, R166: In this region. -/
def Reg.RegPol.PACKS_DERATED (r : Nat) : Fld := fldS (0x10000 + r * 0x2000 + 0xa0) 16 12 0
/-- RO, R166: Packs fenced by policy. -/
def Reg.RegPol.PACKS_FENCED (r : Nat) : Fld := fldS (0x10000 + r * 0x2000 + 0xa4) 0 12 0
/-- RO, R166: Cells fenced by policy. -/
def Reg.RegPol.CELLS_FENCED (r : Nat) : Fld := fldS (0x10000 + r * 0x2000 + 0xa4) 16 12 0
/-! ### Loop engine status, station status block offsets 0x0_3400–0x0_3414 (R189, 07_loop_engine.md) -/

/-- RO, R189: Completed steps, wrapping. -/
def Reg.Loop.LOOP_STEP_COUNT : Fld := fldS 0x3400 0 32 0
/-- RO, R189: Duration of the last step, ns. -/
def Reg.Loop.LOOP_TIME : Fld := fldS 0x3404 0 16 0
/-- RO, R189: Missed slot runs (R178), wrapping. -/
def Reg.Loop.MISSED_COUNT : Fld := fldS 0x3408 0 32 0
/-- RO, R189: Entries into R179, wrapping. -/
def Reg.Loop.FB_LOST_COUNT : Fld := fldS 0x340c 0 32 0
/-- W1C, R189: A slot missed. -/
def Reg.Loop.MISSED_SEEN : Fld := fldS 0x3410 0 1 0
/-- W1C, R189: Feedback lost. -/
def Reg.Loop.FB_LOST_SEEN : Fld := fldS 0x3410 1 1 0
/-- W1C, R189: A source frozen. -/
def Reg.Loop.FB_FROZEN_SEEN : Fld := fldS 0x3410 2 1 0
/-- W1C, R189: Sensors disagreed. -/
def Reg.Loop.XCHK_SEEN : Fld := fldS 0x3410 3 1 0
/-- W1C, R189: Drop table read beyond entry 255. -/
def Reg.Loop.DROP_RANGE : Fld := fldS 0x3410 4 1 0
/-- W1C, R189: A preset reached an integrator limit. -/
def Reg.Loop.PRESET_CLAMPED : Fld := fldS 0x3410 5 1 0
/-- RO, R189: Slots in use, 0–128. -/
def Reg.Loop.SLOTS_USED : Fld := fldS 0x3414 0 8 0
/-- RO, R189: Slots in AUTO. -/
def Reg.Loop.SLOTS_AUTO : Fld := fldS 0x3414 8 8 0
/-- RO, R189: Slots in MANUAL under R179. -/
def Reg.Loop.SLOTS_FB_LOST : Fld := fldS 0x3414 16 8 0
/-! ### Loop control, offsets 0x0_3420–0x0_3428 (R189, 07_loop_engine.md) -/

/-- RW, R189: Slot 0–127. -/
def Reg.LoopCtl.SLOT_SEL (p : Nat) : Fld := fldP p 0x3420 0 7 0
/-- RW, R189: 0 none, 1 AUTO, 2 MANUAL; 3 reserved. -/
def Reg.LoopCtl.MODE_REQ (p : Nat) : Fld := fldP p 0x3420 8 2 0
/-- RW, R189: binary32, slot output units. -/
def Reg.LoopCtl.MAN_VALUE (p : Nat) : Fld := fldP p 0x3424 0 32 0
/-- WS, R189: Apply the request (R177). -/
def Reg.LoopCtl.SLOT_GO (p : Nat) : Fld := fldP p 0x3428 0 1 0
/-- RO, R189: 0 none, 1 applied, 2 not permitted, 3 rights, 4 BUSY; 5–7 reserved. -/
def Reg.LoopCtl.SLOT_RESULT (p : Nat) : Fld := fldP p 0x3428 1 3 0
/-! ### Slot status, offset 0x0_3800 + s × 0x10, s = 0–127 (R189, 07_loop_engine.md) -/

/-- RS, R189: Output, binary32; snapshots +0x4 to +0xC. -/
def Reg.Slot.OUT (i : Nat) : Fld := fldS (0x3800 + i * 0x10) 0 32 0
/-- RS, R189: Integrator, binary32. -/
def Reg.Slot.INTEG (i : Nat) : Fld := fldS (0x3800 + i * 0x10 + 0x4) 0 32 0
/-- RS, R189: Last fresh error e, binary32. -/
def Reg.Slot.ERR (i : Nat) : Fld := fldS (0x3800 + i * 0x10 + 0x8) 0 32 0
/-- RS, R189: 0 OFF, 1 AUTO, 2 MANUAL, 3 TRACK. -/
def Reg.Slot.MODE (i : Nat) : Fld := fldS (0x3800 + i * 0x10 + 0xc) 0 2 0
/-- RS, R189: Output clamped. -/
def Reg.Slot.SAT (i : Nat) : Fld := fldS (0x3800 + i * 0x10 + 0xc) 2 1 0
/-- RS, R189: Integrator at a limit. -/
def Reg.Slot.I_CLAMP (i : Nat) : Fld := fldS (0x3800 + i * 0x10 + 0xc) 3 1 0
/-- RS, R189: Last run missed. -/
def Reg.Slot.MISSED (i : Nat) : Fld := fldS (0x3800 + i * 0x10 + 0xc) 4 1 0
/-- RS, R189: FB age 1 to LOST_LIMIT. -/
def Reg.Slot.FB_AGED (i : Nat) : Fld := fldS (0x3800 + i * 0x10 + 0xc) 5 1 0
/-- RS, R189: In MANUAL under R179. -/
def Reg.Slot.FB_LOST (i : Nat) : Fld := fldS (0x3800 + i * 0x10 + 0xc) 6 1 0
/-- RS, R189: A SENSOR term of FB is frozen. -/
def Reg.Slot.FB_FROZEN (i : Nat) : Fld := fldS (0x3800 + i * 0x10 + 0xc) 7 1 0
/-- RS, R189: A term uses its alternate. -/
def Reg.Slot.ON_ALT (i : Nat) : Fld := fldS (0x3800 + i * 0x10 + 0xc) 8 1 0
/-- RS, R189: Primary and alternate disagree. -/
def Reg.Slot.XCHK (i : Nat) : Fld := fldS (0x3800 + i * 0x10 + 0xc) 9 1 0
/-- RS, R189: Last preset was clamped. -/
def Reg.Slot.PRESET_CLAMPED (i : Nat) : Fld := fldS (0x3800 + i * 0x10 + 0xc) 10 1 0
/-- RS, R189: Frames, saturating at 255. -/
def Reg.Slot.FB_AGE (i : Nat) : Fld := fldS (0x3800 + i * 0x10 + 0xc) 16 8 0
/-! ### Region loop outputs, region block offsets 0x00B0–0x00CC (R189, 07_loop_engine.md) -/

/-- RS, R189: V0 of the last computed frame, binary32 V; snapshots 0x00B4–0x00CC. -/
def Reg.RegLoop.REF_V0 (r : Nat) : Fld := fldS (0x10000 + r * 0x2000 + 0xb0) 0 32 0
/-- RS, R189: VH, binary32 V. -/
def Reg.RegLoop.REF_VH (r : Nat) : Fld := fldS (0x10000 + r * 0x2000 + 0xb4) 0 32 0
/-- RS, R189: V1, binary32 V. -/
def Reg.RegLoop.REF_V1 (r : Nat) : Fld := fldS (0x10000 + r * 0x2000 + 0xb8) 0 32 0
/-- RS, R189: binary32 A, sign of I_CELL. -/
def Reg.RegLoop.I_ARM_PRED (r : Nat) : Fld := fldS (0x10000 + r * 0x2000 + 0xbc) 0 32 0
/-- RS, R189: binary32 V. -/
def Reg.RegLoop.BELAY_DC (r : Nat) : Fld := fldS (0x10000 + r * 0x2000 + 0xc0) 0 32 0
/-- RS, R189: binary32 V. -/
def Reg.RegLoop.BELAY_AC (r : Nat) : Fld := fldS (0x10000 + r * 0x2000 + 0xc4) 0 32 0
/-- RS, R189: Short angle. -/
def Reg.RegLoop.BELAY_PHASE (r : Nat) : Fld := fldS (0x10000 + r * 0x2000 + 0xc8) 0 16 0
/-- RS, R189: Channel 0–3. -/
def Reg.RegLoop.BELAY_CH (r : Nat) : Fld := fldS (0x10000 + r * 0x2000 + 0xc8) 16 2 0
/-- RS, R189: binary32 V. -/
def Reg.RegLoop.DROP_PRED (r : Nat) : Fld := fldS (0x10000 + r * 0x2000 + 0xcc) 0 32 0
/-! ### Scheduler trace block, offsets 0x0_9000–0x0_9068 (R208, 08_task_scheduler.md) -/

/-- RO, R208: Instances in flight, 0–512. -/
def Reg.Trace.IN_FLIGHT : Fld := fldS 0x9000 0 10 0
/-- RO, R208: Highest since start-up. -/
def Reg.Trace.IN_FLIGHT_PEAK : Fld := fldS 0x9000 16 10 0
/-- RO, R208: From the route card, 0–1,024. -/
def Reg.Trace.DESCRIPTORS_USED : Fld := fldS 0x9004 0 11 0
/-- RO, R208: 0–64. -/
def Reg.Trace.FLOWS_USED : Fld := fldS 0x9004 16 7 0
/-- RO, R208: Refused activations (R194), wrapping. -/
def Reg.Trace.ACT_REFUSED_COUNT : Fld := fldS 0x9008 0 32 0
/-- RO, R208: Instances cancelled (R200, R201), wrapping. -/
def Reg.Trace.CANCEL_COUNT : Fld := fldS 0x900c 0 32 0
/-- RO, R208: Ended by DEADLINE or TIMEOUT, wrapping. -/
def Reg.Trace.DEADLINE_COUNT : Fld := fldS 0x9010 0 32 0
/-- RO, R208: Runs beyond BUDGET, wrapping. -/
def Reg.Trace.OVERRUN_COUNT : Fld := fldS 0x9014 0 32 0
/-- W1C, R208: An activation was refused. -/
def Reg.Trace.REFUSED_SEEN : Fld := fldS 0x9018 0 1 0
/-- W1C, R208: A deadline or timeout ended an instance. -/
def Reg.Trace.DEADLINE_SEEN : Fld := fldS 0x9018 1 1 0
/-- W1C, R208: A task overran its BUDGET. -/
def Reg.Trace.OVERRUN_SEEN : Fld := fldS 0x9018 2 1 0
/-- RO, R208: Sequence number of the next entry. -/
def Reg.Trace.TRACE_HEAD : Fld := fldS 0x9020 0 32 0
/-- RW, R208: Flows 0–31 (R207); PROTECT or MAINT. -/
def Reg.Trace.TRACE_FLOW_MASK_LO : Fld := fldS 0x9024 0 32 0
/-- RW, R208: Flows 32–63. -/
def Reg.Trace.TRACE_FLOW_MASK_HI : Fld := fldS 0x9028 0 32 0
/-- RO, R208: From the route card. -/
def Reg.Trace.TRACE_FREEZE_SEV : Fld := fldS 0x902c 0 3 6
/-- RO, R208: Trace frozen. -/
def Reg.Trace.FROZEN : Fld := fldS 0x902c 3 1 0
/-- WS, R208: Restart the trace; PROTECT or MAINT. -/
def Reg.Trace.UNFREEZE (p : Nat) : Fld := fldP p 0x902c 4 1 0
/-- RO, R208: From the route card. -/
def Reg.Trace.TRACE_POST : Fld := fldS 0x902c 16 13 1024
/-- RO, R208: Sequence number at the freezing fault. -/
def Reg.Trace.FROZEN_AT : Fld := fldS 0x9030 0 32 0
/-- RW, R208: Sequence number to read; per port. -/
def Reg.Trace.TRACE_SEL (p : Nat) : Fld := fldP p 0x9040 0 32 0
/-- RS, R208: Entry bytes 0–3; snapshots 0x0_9048–0x0_9054. -/
def Reg.Trace.TRACE_W0 (p : Nat) : Fld := fldP p 0x9044 0 32 0
/-- RS, R208: Entry bytes 4–7. -/
def Reg.Trace.TRACE_W1 (p : Nat) : Fld := fldP p 0x9048 0 32 0
/-- RS, R208: Entry bytes 8–11. -/
def Reg.Trace.TRACE_W2 (p : Nat) : Fld := fldP p 0x904c 0 32 0
/-- RS, R208: Entry bytes 12–15. -/
def Reg.Trace.TRACE_W3 (p : Nat) : Fld := fldP p 0x9050 0 32 0
/-- RS, R208: 0 VALID, 1 GONE, 2 NOT_YET; 3 reserved. -/
def Reg.Trace.TRACE_RESULT (p : Nat) : Fld := fldP p 0x9054 0 2 0
/-- RW, R208: Descriptor index; per port. -/
def Reg.Trace.TASK_ORDER_SEL (p : Nat) : Fld := fldP p 0x9060 0 10 0
/-- RW, R208: ARG for the activated instance. -/
def Reg.Trace.TASK_ORDER_ARG (p : Nat) : Fld := fldP p 0x9064 0 32 0
/-- WS, R208: Activate (R205); ORDER. -/
def Reg.Trace.ACT_GO (p : Nat) : Fld := fldP p 0x9068 0 1 0
/-- WS, R208: Cancel (R205); ORDER. -/
def Reg.Trace.CANCEL_GO (p : Nat) : Fld := fldP p 0x9068 1 1 0
/-- RO, R208: 0 none, 1 applied, 2 refused full or in flight, 3 refused rights, 4 not callable, 5 nothing in flight; 6–7 reserved. -/
def Reg.Trace.TASK_ORDER_RESULT (p : Nat) : Fld := fldP p 0x9068 4 3 0
/-- RO, R208: Serial of the instance activated. -/
def Reg.Trace.TASK_ORDER_SERIAL (p : Nat) : Fld := fldP p 0x9068 16 16 0
/-! ### Task statistics, offsets 0x0_9080–0x0_908C, per port (R208, 08_task_scheduler.md) -/

/-- RW, R208: Descriptor index. -/
def Reg.TaskStat.TASK_SEL (p : Nat) : Fld := fldP p 0x9080 0 10 0
/-- RS, R208: Publications, wrapping; snapshots 0x0_9088–0x0_908C. -/
def Reg.TaskStat.TASK_RUNS (p : Nat) : Fld := fldP p 0x9084 0 32 0
/-- RS, R208: Last run time, ns, saturating. -/
def Reg.TaskStat.TASK_LAST_NS (p : Nat) : Fld := fldP p 0x9088 0 16 0
/-- RS, R208: Longest run time since start-up, ns, saturating. -/
def Reg.TaskStat.TASK_WORST_NS (p : Nat) : Fld := fldP p 0x9088 16 16 0
/-- RS, R208: Instances ended without publication, wrapping. -/
def Reg.TaskStat.TASK_ENDS (p : Nat) : Fld := fldP p 0x908c 0 16 0
/-- RS, R208: Runs beyond BUDGET, wrapping. -/
def Reg.TaskStat.TASK_OVERRUNS (p : Nat) : Fld := fldP p 0x908c 16 16 0
/-! ### Calibration order, region block offsets 0x00D0–0x00E8 (MAINT to write, OBSERVE to read) (R251, 10_cell_measurement.md) -/

/-- RW, R251: Cell address bits [10:0] in this region. -/
def Reg.Cal.CAL_CELL (p r : Nat) : Fld := fldP p (0x10000 + r * 0x2000 + 0xd0) 0 11 0
/-- RW, R251: Input 0–11. -/
def Reg.Cal.CAL_AIN (p r : Nat) : Fld := fldP p (0x10000 + r * 0x2000 + 0xd0) 11 4 0
/-- RW, R251: 0 zero, 1 full scale. -/
def Reg.Cal.POINT (p r : Nat) : Fld := fldP p (0x10000 + r * 0x2000 + 0xd0) 15 1 0
/-- RW, R251: As CAL_N_LOG2: 4–16; other values read as 12. -/
def Reg.Cal.N_LOG2 (p r : Nat) : Fld := fldP p (0x10000 + r * 0x2000 + 0xd0) 16 5 12
/-- RW, R251: binary32, full-scale value applied. -/
def Reg.Cal.CAL_APPLIED (p r : Nat) : Fld := fldP p (0x10000 + r * 0x2000 + 0xd4) 0 32 0
/-- WS, R251: Take the point. -/
def Reg.Cal.CAL_GO (p r : Nat) : Fld := fldP p (0x10000 + r * 0x2000 + 0xd8) 0 1 0
/-- WS, R251: Compute and store (R243). -/
def Reg.Cal.CAL_STORE (p r : Nat) : Fld := fldP p (0x10000 + r * 0x2000 + 0xd8) 1 1 0
/-- RO, R251: 0 none, 1 running, 2 point done, 3 stored, 4 cell not FENCED or timed out, 5 BUSY or rights, 6 out of limits, 7 record write failed. -/
def Reg.Cal.CAL_RESULT (p r : Nat) : Fld := fldP p (0x10000 + r * 0x2000 + 0xd8) 4 3 0
/-- RO, R251: Mean of the last point, signed, 1/16 code. -/
def Reg.Cal.CAL_MEAN (r : Nat) : Fld := fldS (0x10000 + r * 0x2000 + 0xdc) 0 32 0
/-- RO, R251: Spread of the last point, codes. -/
def Reg.Cal.CAL_SPREAD (r : Nat) : Fld := fldS (0x10000 + r * 0x2000 + 0xe0) 0 16 0
/-- RO, R251: Offset stored, 1/16 code. -/
def Reg.Cal.CAL_OFS_NEW (r : Nat) : Fld := fldS (0x10000 + r * 0x2000 + 0xe4) 0 16 0
/-- RO, R251: Gain stored, binary32. -/
def Reg.Cal.CAL_GAIN_NEW (r : Nat) : Fld := fldS (0x10000 + r * 0x2000 + 0xe8) 0 32 0
/-! ### Impedance sweep, station status block offsets 0x0_3300–0x0_3330 (R251, 10_cell_measurement.md) -/

/-- RO, R251: 0 idle, 1 running, 2 stopping; 3 reserved. -/
def Reg.Sweep.SWEEP_STATE : Fld := fldS 0x3300 0 2 0
/-- RO, R251: Point being held. -/
def Reg.Sweep.SWEEP_POINT : Fld := fldS 0x3300 2 3 0
/-- WS, R251: Start (R248); ORDER or MAINT. -/
def Reg.Sweep.SWEEP_GO (p : Nat) : Fld := fldP p 0x3300 5 1 0
/-- WS, R251: Stop; ORDER or MAINT. -/
def Reg.Sweep.SWEEP_STOP (p : Nat) : Fld := fldP p 0x3300 6 1 0
/-- RO, R251: 0 none, 1 started, 2 BUSY, 3 rights, 4 all regions blocked; 5–7 reserved. -/
def Reg.Sweep.SWEEP_RESULT (p : Nat) : Fld := fldP p 0x3300 8 3 0
/-- RO, R251: Completed sweeps, wrapping. -/
def Reg.Sweep.SWEEP_COUNT : Fld := fldS 0x3304 0 32 0
/-- RO, R251: Impedances computed, wrapping. -/
def Reg.Sweep.PAIRS_USED : Fld := fldS 0x3308 0 32 0
/-- RO, R251: R249, wrapping. -/
def Reg.Sweep.LOW_EXC_COUNT : Fld := fldS 0x330c 0 16 0
/-- RO, R251: R249, wrapping. -/
def Reg.Sweep.UNPAIRED_COUNT : Fld := fldS 0x330c 16 16 0
/-- RO, R251: From the route card, binary32 A. -/
def Reg.Sweep.EXC_AMP : Fld := fldS 0x3310 0 32 0
/-- RO, R251: From the route card. -/
def Reg.Sweep.HEALTH_POINT : Fld := fldS 0x3314 0 3 0
/-- RO, R251: Sweep points − 1. -/
def Reg.Sweep.POINTS : Fld := fldS 0x3314 4 3 0
/-- RW, R251: Cell address; per port. -/
def Reg.Sweep.IMP_PROBE_CELL (p : Nat) : Fld := fldP p 0x3320 0 14 0
/-- RW, R251: Sweep point. -/
def Reg.Sweep.IMP_PROBE_POINT (p : Nat) : Fld := fldP p 0x3320 16 3 0
/-- RS, R251: |Z|, binary32 Ω; snapshots 0x0_3328–0x0_3330. -/
def Reg.Sweep.IMP_ABS (p : Nat) : Fld := fldP p 0x3324 0 32 0
/-- RS, R251: arg Z, binary32 degrees. -/
def Reg.Sweep.IMP_PHASE (p : Nat) : Fld := fldP p 0x3328 0 32 0
/-- RS, R251: binary32 Hz. -/
def Reg.Sweep.IMP_FREQ (p : Nat) : Fld := fldP p 0x332c 0 32 0
/-- RS, R251: T_PACK of the pair, 1/16 °C. -/
def Reg.Sweep.IMP_T (p : Nat) : Fld := fldP p 0x3330 0 16 0
/-- RS, R251: Minutes since the pair, saturating; 0xFFFF none. -/
def Reg.Sweep.IMP_AGE (p : Nat) : Fld := fldP p 0x3330 16 16 65535
/-! ### Pack exchange and probe, station status block offsets 0x0_3500–0x0_3528 (R271, 11_pack_port.md) -/

/-- RW, R271: Cell address. -/
def Reg.Xchg.XCHG_CELL (p : Nat) : Fld := fldP p 0x3500 0 14 0
/-- WS, R271: Order an exchange (R266). -/
def Reg.Xchg.XCHG_GO (p : Nat) : Fld := fldP p 0x3504 0 1 0
/-- WS, R271: R268. -/
def Reg.Xchg.XCHG_ABORT (p : Nat) : Fld := fldP p 0x3504 1 1 0
/-- RO, R271: 0 none, 1 accepted, 2 refused: cell or state, 3 refused: rights, 4 BUSY, 5 two-hand not satisfied; 6–7 reserved. -/
def Reg.Xchg.XCHG_RESULT (p : Nat) : Fld := fldP p 0x3504 4 3 0
/-- RO, R271: Exchanges in progress, 0–16. -/
def Reg.Xchg.XCHG_ACTIVE : Fld := fldS 0x3508 0 5 0
/-- RW, R271: Cell address. -/
def Reg.Xchg.PACK_PROBE_CELL (p : Nat) : Fld := fldP p 0x3510 0 14 0
/-- RS, R271: As PACK_STATE; snapshots 0x0_3518–0x0_3528. -/
def Reg.Xchg.PP_PACK_STATE (p : Nat) : Fld := fldP p 0x3514 0 4 0
/-- RS, R271: As *Exchange states*; 0 none. -/
def Reg.Xchg.PP_XCHG_STATE (p : Nat) : Fld := fldP p 0x3514 4 4 0
/-- RS, R271: BMS status flags [7:0]. -/
def Reg.Xchg.PP_BMS_FLAGS (p : Nat) : Fld := fldP p 0x3514 8 8 0
/-- RS, R271: PACK_UID [31:0]. -/
def Reg.Xchg.PP_UID_LO (p : Nat) : Fld := fldP p 0x3518 0 32 0
/-- RS, R271: PACK_UID [63:32]. -/
def Reg.Xchg.PP_UID_HI (p : Nat) : Fld := fldP p 0x351c 0 32 0
/-- RS, R271: MAKER_ID. -/
def Reg.Xchg.PP_MAKER (p : Nat) : Fld := fldP p 0x3520 0 16 0
/-- RS, R271: MODEL_ID. -/
def Reg.Xchg.PP_MODEL (p : Nat) : Fld := fldP p 0x3520 16 16 0
/-- RS, R271: Failed check bits of R257. -/
def Reg.Xchg.PP_CHECKS (p : Nat) : Fld := fldP p 0x3524 0 32 0
/-- RS, R271: Seconds since XCHG_GO, saturating. -/
def Reg.Xchg.PP_XCHG_TIME (p : Nat) : Fld := fldP p 0x3528 0 32 0
/-! ### Ledger block, offsets 0x0_8000–0x0_8038 (per port) (R285, 12_lease_ledger.md) -/

/-- RW, R285: Cell address. -/
def Reg.Ledg.LEDGER_CELL (p : Nat) : Fld := fldP p 0x8000 0 14 0
/-- RW, R285: ROW_SEQ [27:0] to fetch; 0xFFFF_FFFF the latest committed row. -/
def Reg.Ledg.LEDGER_SEQ (p : Nat) : Fld := fldP p 0x8004 0 32 0
/-- WS, R285: Fetch. -/
def Reg.Ledg.LEDGER_GO (p : Nat) : Fld := fldP p 0x8008 0 1 0
/-- RO, R285: 0 none, 1 running, 2 done, 3 gone from the ring, 4 not yet committed, 5 BUSY, 6 rights, 7 no ledger at the cell. -/
def Reg.Ledg.LEDGER_RESULT (p : Nat) : Fld := fldP p 0x8008 1 3 0
/-- RO, R285: Row bytes 4w to 4w + 3. -/
def Reg.Ledg.LEDGER_ROW (p j : Nat) : Fld := fldP p (0x800c + j * 4) 0 32 0
/-- RO, R285: PACK_UID [31:0] of the row. -/
def Reg.Ledg.LEDGER_UID_LO (p : Nat) : Fld := fldP p 0x802c 0 32 0
/-- RO, R285: PACK_UID [63:32]. -/
def Reg.Ledg.LEDGER_UID_HI (p : Nat) : Fld := fldP p 0x8030 0 32 0
/-- RO, R285: Pack not admitted at this cell since start-up; LEDGER_UID_HI is 0. -/
def Reg.Ledg.UID_PARTIAL (p : Nat) : Fld := fldP p 0x8034 0 1 0
/-- RO, R285: Rows received from all cells, wrapping. -/
def Reg.Ledg.LEDGER_ROWS (p : Nat) : Fld := fldP p 0x8038 0 32 0
/-! ### Station channel additions (R303, 13_message_bus_controller.md) -/

/-- RO, R303: 0 none, 1 applied, 2 refused: state, 3 refused: rights. -/
def Reg.StCan.RESTART_RESULT (c : Nat) : Fld := fldS (0x3600 + c * 0x80 + 0x38) 0 2 0
/-- RO, R303: Automatic restarts in the preceding 3,600 s. -/
def Reg.StCan.AUTO_RESTARTS (c : Nat) : Fld := fldS (0x3600 + c * 0x80 + 0x38) 2 6 0
/-- RO, R303: 0–32, from the route card. -/
def Reg.StCan.FILTERS_USED (c : Nat) : Fld := fldS (0x3600 + c * 0x80 + 0x3c) 0 6 0
/-- RW, R303: Data bytes 4w to 4w + 3. -/
def Reg.StCan.TX2_DATA (c j : Nat) : Fld := fldS (0x3600 + c * 0x80 + 0x40 + j * 4) 0 32 0
/-! ### Cell pack-bus restart, station status block offset 0x0_3700 (per port) (R303, 13_message_bus_controller.md) -/

/-- RW, R303: Cell address. -/
def Reg.CanRst.CELL_CAN_SEL (p : Nat) : Fld := fldP p 0x3700 0 14 0
/-- WS, R303: Restart the cell's pack bus (R298); MAINT. -/
def Reg.CanRst.CELL_CAN_RESTART (p : Nat) : Fld := fldP p 0x3700 16 1 0
/-- RO, R303: 0 none, 1 applied, 2 refused: state, 3 refused: rights, 4 no WN140-B at the cell. -/
def Reg.CanRst.CELL_CAN_RESULT (p : Nat) : Fld := fldP p 0x3700 17 3 0
/-! ### Recovery status and rope service, station status block offsets 0x0_3100–0x0_3120 (R327, 14_admission_and_recovery.md) -/

/-- RO, R327: Ropes in SPLIT. -/
def Reg.Recov.ROPES_SPLIT : Fld := fldS 0x3100 0 9 0
/-- RO, R327: Ropes in TRAVERSE. -/
def Reg.Recov.ROPES_TRAVERSE : Fld := fldS 0x3100 9 9 0
/-- RO, R327: Ropes in DOWN, unused ropes included. -/
def Reg.Recov.ROPES_DOWN : Fld := fldS 0x3100 18 9 0
/-- RO, R327: Entries into SPLIT, wrapping. -/
def Reg.Recov.SPLIT_EVENTS : Fld := fldS 0x3104 0 16 0
/-- RO, R327: Returns to CHAIN, wrapping. -/
def Reg.Recov.HEAL_EVENTS : Fld := fldS 0x3104 16 16 0
/-- RO, R327: Ridge losses, wrapping. -/
def Reg.Recov.TRAVERSE_EVENTS : Fld := fldS 0x3108 0 16 0
/-- RO, R327: Plane failovers, wrapping. -/
def Reg.Recov.FAILOVER_COUNT : Fld := fldS 0x3108 16 16 0
/-- RO, R327: 0 none, 1 SPLIT, 2 heal, 3 TRAVERSE, 4 return from TRAVERSE, 5 SPLIT at n by R319, 6 plane failover, 7 DOWN by R20; 8–15 reserved. -/
def Reg.Recov.LAST_KIND : Fld := fldS 0x310c 0 4 0
/-- RO, R327: Global rope index. -/
def Reg.Recov.LAST_ROPE : Fld := fldS 0x310c 8 8 0
/-- RO, R327: b, 0–64. -/
def Reg.Recov.LAST_BREAK_POS : Fld := fldS 0x310c 16 7 0
/-- RO, R327: Longest command gap in that recovery, frames, from CMD_OK of fresh reports, saturating. -/
def Reg.Recov.LAST_GAP : Fld := fldS 0x310c 24 8 0
/-- RO, R327: Short stamp of the decision. -/
def Reg.Recov.LAST_STAMP : Fld := fldS 0x3110 0 32 0
/-- W1C, R327: A rope entered SPLIT. -/
def Reg.Recov.SPLIT_SEEN : Fld := fldS 0x3114 0 1 0
/-- W1C, R327: A Ridge was lost. -/
def Reg.Recov.TRAVERSE_SEEN : Fld := fldS 0x3114 1 1 0
/-- W1C, R327: A plane failover occurred. -/
def Reg.Recov.FAILOVER_SEEN : Fld := fldS 0x3114 2 1 0
/-- W1C, R327: R20 placed a rope in DOWN. -/
def Reg.Recov.ROPE_DOWN_SEEN : Fld := fldS 0x3114 3 1 0
/-- W1C, R327: LAST_GAP above 3 frames at 10 µs, or 2 at 20 µs. -/
def Reg.Recov.GAP_EXCEEDED : Fld := fldS 0x3114 4 1 0
/-- W1C, R327: R309 abandoned a position. -/
def Reg.Recov.ADMIT_ABANDONED_SEEN : Fld := fldS 0x3114 5 1 0
/-- W1C, R327: R311. -/
def Reg.Recov.CELL_LOST_SEEN : Fld := fldS 0x3114 6 1 0
/-- RW, R327: Ridge 0–3. -/
def Reg.Recov.RIDGE_SEL (p : Nat) : Fld := fldP p 0x3118 0 2 0
/-- WS, R327: Restart a lost Ridge (R322). -/
def Reg.Recov.RIDGE_RESTART (p : Nat) : Fld := fldP p 0x3118 2 1 0
/-- RO, R327: 0 none, 1 started, 2 done, 3 refused: state or temperature, 4 refused: rights, 5 self-test failed; 6–7 reserved. -/
def Reg.Recov.RIDGE_RESULT (p : Nat) : Fld := fldP p 0x3118 4 3 0
/-- RW, R327: Global rope index (R318). -/
def Reg.Recov.ROPE_SEL (p : Nat) : Fld := fldP p 0x3120 0 8 0
/-- WS, R327: Take the rope out of service (R318). -/
def Reg.Recov.ROPE_DOWN_GO (p : Nat) : Fld := fldP p 0x3120 8 1 0
/-- WS, R327: Return the rope to service (R318). -/
def Reg.Recov.ROPE_UP_GO (p : Nat) : Fld := fldP p 0x3120 9 1 0
/-- RO, R327: 0 none, 1 applied, 2 refused: state or lane test, 3 refused: rights, 4 refused: REDUNDANCY would fall below 0, 5 refused: entry held, 6 refused: rope unused; 7 reserved. -/
def Reg.Recov.ROPE_RESULT (p : Nat) : Fld := fldP p 0x3120 12 3 0
/-! ### Admission order and probe, station status block offsets 0x0_3140–0x0_3154 (R327, 14_admission_and_recovery.md) -/

/-- RW, R327: Cell address. -/
def Reg.Adm.ADM_CELL (p : Nat) : Fld := fldP p 0x3140 0 14 0
/-- WS, R327: Abandoned position: clear failures and admission. Enrolled cell: TO_BIVOUAC, then admission. -/
def Reg.Adm.READMIT_GO (p : Nat) : Fld := fldP p 0x3144 0 1 0
/-- RO, R327: 0 none, 1 accepted, 2 refused: state, 3 refused: rights, 4 refused: REDUNDANCY would fall below 0, 5 BUSY; 6–7 reserved. -/
def Reg.Adm.ADM_RESULT (p : Nat) : Fld := fldP p 0x3144 4 3 0
/-- RS, R327: 0 UNUSED, 1 AWAITING, 2 IDENTIFYING, 3 EPOCH_SENT, 4 CONFIGURING, 5 CHECKING, 6 ENROLLED, 7 BACKOFF, 8 ABANDONED, 9 LOST; 10–15 reserved; snapshots 0x0_314C–0x0_3154. -/
def Reg.Adm.ADM_STATE (p : Nat) : Fld := fldP p 0x3148 0 4 0
/-- RS, R327: Consecutive failures. -/
def Reg.Adm.ADM_FAILS (p : Nat) : Fld := fldP p 0x3148 4 4 0
/-- RS, R327: Reason of the last failure (R307). -/
def Reg.Adm.ADM_REASON (p : Nat) : Fld := fldP p 0x3148 8 8 0
/-- RS, R327: EPOCH_REC. -/
def Reg.Adm.ADM_EPOCH (p : Nat) : Fld := fldP p 0x3148 16 16 0
/-- RS, R327: DIE_UID [31:0]. -/
def Reg.Adm.ADM_UID_LO (p : Nat) : Fld := fldP p 0x314c 0 32 0
/-- RS, R327: DIE_UID [63:32]. -/
def Reg.Adm.ADM_UID_HI (p : Nat) : Fld := fldP p 0x3150 0 32 0
/-- RS, R327: ms since ADM_STATE changed, saturating. -/
def Reg.Adm.ADM_SINCE (p : Nat) : Fld := fldP p 0x3154 0 32 0
/-! ### Region admission counts, region block offsets 0x00F0–0x00F8 (R327, 14_admission_and_recovery.md) -/

/-- RO, R327: Cells in steps 1–5. -/
def Reg.RegAdm.CELLS_ADMITTING (r : Nat) : Fld := fldS (0x10000 + r * 0x2000 + 0xf0) 0 12 0
/-- RO, R327: Cells in BIVOUAC. -/
def Reg.RegAdm.CELLS_BIVOUAC (r : Nat) : Fld := fldS (0x10000 + r * 0x2000 + 0xf0) 16 12 0
/-- RO, R327: Successful ENROLs, wrapping. -/
def Reg.RegAdm.ADMISSIONS (r : Nat) : Fld := fldS (0x10000 + r * 0x2000 + 0xf4) 0 16 0
/-- RO, R327: Failed attempts, wrapping. -/
def Reg.RegAdm.ADMIT_FAILURES (r : Nat) : Fld := fldS (0x10000 + r * 0x2000 + 0xf4) 16 16 0
/-- RO, R327: Abandoned positions. -/
def Reg.RegAdm.CELLS_ABANDONED (r : Nat) : Fld := fldS (0x10000 + r * 0x2000 + 0xf8) 0 12 0
/-- RO, R327: Lost cells (R311). -/
def Reg.RegAdm.CELLS_LOST (r : Nat) : Fld := fldS (0x10000 + r * 0x2000 + 0xf8) 16 12 0
/-! ### Fault collector block, offsets 0x0_5000–0x0_5094 (R347, 15_faults_and_fencing.md) -/

/-- RO, R347: Entries held, 0–1,024. -/
def Reg.Flt.ACTIVE_ENTRIES : Fld := fldS 0x5000 0 11 0
/-- RO, R347: Table full now. -/
def Reg.Flt.TABLE_FULL : Fld := fldS 0x5000 11 1 0
/-- RO, R347: Highest effective severity held; a capped entry counts at 2 (R339). -/
def Reg.Flt.UNACK_MAX_SEV : Fld := fldS 0x5000 12 3 0
/-- RO, R347: Level of FAULT_N is low. -/
def Reg.Flt.FAULT_N_LOW : Fld := fldS 0x5000 16 1 0
/-- RO, R347: 2 ms pulse running. -/
def Reg.Flt.PULSE_RUNNING : Fld := fldS 0x5000 17 1 0
/-- RO, R347: TRIP_N low. -/
def Reg.Flt.TRIP : Fld := fldS 0x5000 18 1 1
/-- RO, R347: Station derate in force. -/
def Reg.Flt.DERATE_ACTIVE : Fld := fldS 0x5000 19 1 0
/-- RO, R347: A severity-6 or severity-7 entry is held; capped entries do not count (R339). -/
def Reg.Flt.BLOCK_ACTIVE : Fld := fldS 0x5000 20 1 0
/-- RO, R347: Sequence number of the next log entry. -/
def Reg.Flt.LOG_HEAD : Fld := fldS 0x5004 0 32 0
/-- RO, R347: Faults received, wrapping. -/
def Reg.Flt.FAULT_COUNT : Fld := fldS 0x5008 0 32 0
/-- RO, R347: Wrapping. -/
def Reg.Flt.ESCALATED_COUNT : Fld := fldS 0x500c 0 16 0
/-- RO, R347: Wrapping. -/
def Reg.Flt.INJECTED_COUNT : Fld := fldS 0x500c 16 16 0
/-- RW, R347: R341. -/
def Reg.Flt.FAULT_HOLD : Fld := fldS 0x5010 0 1 0
/-- RO, R347: From the route card. -/
def Reg.Flt.FAULT_PIN_SEV : Fld := fldS 0x5010 4 3 3
/-- RO, R347: From the route card. -/
def Reg.Flt.FIRST_MIN_SEV : Fld := fldS 0x5010 8 3 3
/-- RO, R347: From the route card. -/
def Reg.Flt.LIVE_INJECTION : Fld := fldS 0x5010 11 1 0
/-- RO, R347: %, from the route card. -/
def Reg.Flt.FAULT_DERATE : Fld := fldS 0x5010 16 7 50
/-- W1C, R347: A fault was logged. -/
def Reg.Flt.NEW_FAULT_SEEN : Fld := fldS 0x5014 0 1 0
/-- W1C, R347: A fault was escalated. -/
def Reg.Flt.ESCALATED_SEEN : Fld := fldS 0x5014 1 1 0
/-- W1C, R347: R336. -/
def Reg.Flt.TABLE_FULL_SEEN : Fld := fldS 0x5014 2 1 0
/-- W1C, R347: An injected fault was logged. -/
def Reg.Flt.INJECTED_SEEN : Fld := fldS 0x5014 3 1 0
/-- W1C, R347: A severity-7 reaction occurred. -/
def Reg.Flt.TRIP_SEEN : Fld := fldS 0x5014 4 1 0
/-- RO, R347: Regions of the source that began the block (R333). -/
def Reg.Flt.BLOCK_ORIGIN : Fld := fldS 0x5018 0 8 0
/-- RS, R347: Message [31:0]; snapshots 0x0_5024–0x0_5030. -/
def Reg.Flt.FIRST_MSG_LO : Fld := fldS 0x5020 0 32 0
/-- RS, R347: Message [63:32]. -/
def Reg.Flt.FIRST_MSG_HI : Fld := fldS 0x5024 0 32 0
/-- RS, R347: STAMP of its cycle. -/
def Reg.Flt.FIRST_STAMP : Fld := fldS 0x5028 0 32 0
/-- RS, R347: Frame of the report from which the collector took the message, that is its first copy received intact (R102), or of detection for a W source. -/
def Reg.Flt.FIRST_FRAME : Fld := fldS 0x502c 0 32 0
/-- RS, R347: Effective severity. -/
def Reg.Flt.FIRST_SEV : Fld := fldS 0x5030 0 3 0
/-- RS, R347: Register holds a fault. -/
def Reg.Flt.FIRST_VALID : Fld := fldS 0x5030 3 1 0
/-- RS, R347: Other faults of its cycle, saturating. -/
def Reg.Flt.FIRST_COMPANIONS : Fld := fldS 0x5030 8 8 0
/-- WS, R347: R338. -/
def Reg.Flt.FIRST_RESET (p : Nat) : Fld := fldP p 0x5034 0 1 0
/-- WS, R347: R342. -/
def Reg.Flt.TRIP_RESET (p : Nat) : Fld := fldP p 0x5034 1 1 0
/-- RO, R347: 0 none, 1 applied, 2 refused: condition, 3 refused: rights; 4–7 reserved. -/
def Reg.Flt.RESET_RESULT (p : Nat) : Fld := fldP p 0x5034 4 3 0
/-- RW, R347: Sequence number to read. -/
def Reg.Flt.LOG_SEL (p : Nat) : Fld := fldP p 0x5040 0 32 0
/-- RS, R347: Entry bytes 0–3; snapshots 0x0_5048–0x0_5054. -/
def Reg.Flt.LOG_W0 (p : Nat) : Fld := fldP p 0x5044 0 32 0
/-- RS, R347: Bytes 4–7. -/
def Reg.Flt.LOG_W1 (p : Nat) : Fld := fldP p 0x5048 0 32 0
/-- RS, R347: Bytes 8–11. -/
def Reg.Flt.LOG_W2 (p : Nat) : Fld := fldP p 0x504c 0 32 0
/-- RS, R347: Bytes 12–15. -/
def Reg.Flt.LOG_W3 (p : Nat) : Fld := fldP p 0x5050 0 32 0
/-- RS, R347: 0 VALID, 1 GONE, 2 NOT_YET; 3 reserved. -/
def Reg.Flt.LOG_RESULT (p : Nat) : Fld := fldP p 0x5054 0 2 0
/-- RW, R347: Source index. -/
def Reg.Flt.ACK_SOURCE (p : Nat) : Fld := fldP p 0x5060 0 16 0
/-- RW, R347: Kind. -/
def Reg.Flt.ACK_KIND (p : Nat) : Fld := fldP p 0x5060 16 8 0
/-- RW, R347: Level. -/
def Reg.Flt.ACK_LEVEL (p : Nat) : Fld := fldP p 0x5060 24 4 0
/-- RW, R347: Acknowledge the injected key. -/
def Reg.Flt.ACK_INJ (p : Nat) : Fld := fldP p 0x5060 28 1 0
/-- WS, R347: Acknowledge the named key. -/
def Reg.Flt.ACK_GO (p : Nat) : Fld := fldP p 0x5064 0 1 0
/-- WS, R347: Acknowledge every entry. -/
def Reg.Flt.ACK_ALL (p : Nat) : Fld := fldP p 0x5064 1 1 0
/-- RO, R347: 0 none, 1 applied, 2 no entry, 3 refused: rights; 4–7 reserved. -/
def Reg.Flt.ACK_RESULT (p : Nat) : Fld := fldP p 0x5064 4 3 0
/-- RW, R347: Message [31:0]. -/
def Reg.Flt.INJ_MSG_LO (p : Nat) : Fld := fldP p 0x5070 0 32 0
/-- RW, R347: Message [63:32]; bits [35:32] ignored. -/
def Reg.Flt.INJ_MSG_HI (p : Nat) : Fld := fldP p 0x5074 0 32 0
/-- WS, R347: R340. -/
def Reg.Flt.INJ_GO (p : Nat) : Fld := fldP p 0x5078 0 1 0
/-- RO, R347: 0 none, 1 applied, 2 refused: field or cell state, 3 refused: rights, 4 BUSY; 5–7 reserved. -/
def Reg.Flt.INJ_RESULT (p : Nat) : Fld := fldP p 0x5078 4 3 0
/-- RW, R347: Source index. -/
def Reg.Flt.UNFENCE_INDEX (p : Nat) : Fld := fldP p 0x5080 0 16 0
/-- RW, R347: Level. -/
def Reg.Flt.UNFENCE_LEVEL (p : Nat) : Fld := fldP p 0x5080 16 4 0
/-- WS, R347: R343. -/
def Reg.Flt.UNFENCE_GO (p : Nat) : Fld := fldP p 0x5084 0 1 0
/-- RO, R347: 0 none, 1 applied, 2 refused: not fenced or entry held, 3 refused: rights, 4 refused: condition of R224, 5 refused: rope or Ridge, which return by their own orders (R343); 6–7 reserved. -/
def Reg.Flt.UNFENCE_RESULT (p : Nat) : Fld := fldP p 0x5084 4 3 0
/-- RO, R347: Cells FENCED, every cause. -/
def Reg.Flt.CELLS_FENCED : Fld := fldS 0x5090 0 15 0
/-- RO, R347: Ropes fenced by reaction or R20. -/
def Reg.Flt.ROPES_FENCED : Fld := fldS 0x5090 16 9 0
/-- RO, R347: Per Ridge. -/
def Reg.Flt.RIDGES_FENCED : Fld := fldS 0x5094 0 4 0
/-- RO, R347: Per plane. -/
def Reg.Flt.PLANES_FENCED : Fld := fldS 0x5094 4 2 0
/-- RO, R347: Links 0↔1, 2↔3. -/
def Reg.Flt.LINKS_FENCED : Fld := fldS 0x5094 6 2 0
/-- RO, R347: Per port. -/
def Reg.Flt.HOSTS_FENCED : Fld := fldS 0x5094 8 4 0
/-- RO, R347: Per station channel. -/
def Reg.Flt.CAN_FENCED : Fld := fldS 0x5094 12 2 0
/-! ### Class table, offset 0x0_5400 + kind × 4, kind 0–255 (R347, 15_faults_and_fencing.md) -/

/-- RO, R347: From the route card (R330). -/
def Reg.Class.SEVERITY (kind : Nat) : Fld := fldS (0x5400 + kind * 4) 0 3 0
/-- RO, R347: From the route card. -/
def Reg.Class.AUTO_ACK (kind : Nat) : Fld := fldS (0x5400 + kind * 4) 3 1 0
/-- RO, R347: Lowest permitted severity. -/
def Reg.Class.MIN_SEV (kind : Nat) : Fld := fldS (0x5400 + kind * 4) 4 3 0
/-- RO, R347: Occurrences, wrapping. -/
def Reg.Class.CLASS_COUNT (kind : Nat) : Fld := fldS (0x5400 + kind * 4) 8 24 0
/-! ### Recorder block, offsets 0x0_6000–0x0_6098 (R360, 16_disturbance_recorder.md) -/

/-- RO, R360: 0 OFF (no card), 1 ARMING, 2 ARMED, 3 POST, 4 FULL; 5–7 reserved. -/
def Reg.Rec.REC_STATE : Fld := fldS 0x6000 0 3 0
/-- RO, R360: L of R357. -/
def Reg.Rec.RATE_LEVEL : Fld := fldS 0x6000 3 3 0
/-- RO, R360: Buffer taking records. -/
def Reg.Rec.ACTIVE_BUF : Fld := fldS 0x6000 8 4 0
/-- RO, R360: 0–16. -/
def Reg.Rec.BUFS_HELD : Fld := fldS 0x6000 16 5 0
/-- RO, R360: log2 N_BUFFERS, from the route card. -/
def Reg.Rec.N_BUF_LOG2 : Fld := fldS 0x6000 24 3 0
/-- RO, R360: Recordings completed, wrapping. -/
def Reg.Rec.RECORDINGS : Fld := fldS 0x6004 0 32 0
/-- RO, R360: R358, wrapping. -/
def Reg.Rec.TRIG_IGNORED : Fld := fldS 0x6008 0 32 0
/-- RO, R360: R357, wrapping. -/
def Reg.Rec.RATE_CHANGES : Fld := fldS 0x600c 0 16 0
/-- RO, R360: 0 none, 1 pre-trigger not full, 2 re-arm, 3 no free buffer. -/
def Reg.Rec.LAST_IGNORED_CAUSE : Fld := fldS 0x600c 16 2 0
/-- W1C, R360: A recording started. -/
def Reg.Rec.TRIGGERED_SEEN : Fld := fldS 0x6010 0 1 0
/-- W1C, R360: A trigger was ignored. -/
def Reg.Rec.IGNORED_SEEN : Fld := fldS 0x6010 1 1 0
/-- W1C, R360: The level rose. -/
def Reg.Rec.RATE_REDUCED_SEEN : Fld := fldS 0x6010 2 1 0
/-- W1C, R360: The recorder entered FULL. -/
def Reg.Rec.FULL_SEEN : Fld := fldS 0x6010 3 1 0
/-- RO, R360: ms, from the route card. -/
def Reg.Rec.PRE_TIME : Fld := fldS 0x6014 0 16 200
/-- RO, R360: ms. -/
def Reg.Rec.POST_TIME : Fld := fldS 0x6014 16 16 800
/-- RO, R360: %. -/
def Reg.Rec.PRE_SHARE : Fld := fldS 0x6018 0 7 25
/-- RO, R360: R358. -/
def Reg.Rec.EXTEND : Fld := fldS 0x6018 7 1 0
/-- RO, R360: R356. -/
def Reg.Rec.AUTO_RELEASE : Fld := fldS 0x6018 8 1 0
/-- RO, R360: R356. -/
def Reg.Rec.OVERWRITE_OLDEST : Fld := fldS 0x6018 9 1 0
/-- RO, R360: R353. -/
def Reg.Rec.INJ_TRIGGER : Fld := fldS 0x6018 10 1 0
/-- RO, R360: R353. -/
def Reg.Rec.TRIG_MIN_SEV : Fld := fldS 0x6018 11 3 4
/-- RO, R360: 0–512. -/
def Reg.Rec.CHANNELS_USED : Fld := fldS 0x6018 16 10 0
/-- WS, R360: Host trigger (R353). -/
def Reg.Rec.TRIG_GO (p : Nat) : Fld := fldP p 0x601c 0 1 0
/-- RO, R360: 0 none, 1 taken, 2 marked in POST, 3 ignored, 4 refused: rights; 5–7 reserved. -/
def Reg.Rec.TRIG_RESULT (p : Nat) : Fld := fldP p 0x601c 4 3 0
/-- RW, R360: Buffer to release. -/
def Reg.Rec.REL_BUF (p : Nat) : Fld := fldP p 0x6020 0 4 0
/-- WS, R360: R356. -/
def Reg.Rec.REL_GO (p : Nat) : Fld := fldP p 0x6020 4 1 0
/-- RO, R360: 0 none, 1 released, 2 not HELD, 3 refused: rights; 4–7 reserved. -/
def Reg.Rec.REL_RESULT (p : Nat) : Fld := fldP p 0x6020 5 3 0
/-- RW, R360: Buffer described at 0x0_6044–0x0_6068. -/
def Reg.Rec.BD_SEL (p : Nat) : Fld := fldP p 0x6040 0 4 0
/-- RS, R360: 0 FREE, 1 RECORDING, 2 CLOSING, 3 HELD; snapshots 0x0_6048–0x0_6068. -/
def Reg.Rec.BD_STATE (p : Nat) : Fld := fldP p 0x6044 0 2 0
/-- RS, R360: Started by an injected fault. -/
def Reg.Rec.BD_INJECTED (p : Nat) : Fld := fldP p 0x6044 2 1 0
/-- RS, R360: R355. -/
def Reg.Rec.PRE_SHORT (p : Nat) : Fld := fldP p 0x6044 3 1 0
/-- RS, R360: R355. -/
def Reg.Rec.POST_SHORT (p : Nat) : Fld := fldP p 0x6044 4 1 0
/-- RS, R360: Delivered whole to every PROTECT port. -/
def Reg.Rec.BD_DELIVERED (p : Nat) : Fld := fldP p 0x6044 5 1 0
/-- RS, R360: Highest rate level in the recording. -/
def Reg.Rec.BD_MAX_LEVEL (p : Nat) : Fld := fldP p 0x6044 6 3 0
/-- RS, R360: TRIGGER records, saturating. -/
def Reg.Rec.BD_TRIGGERS (p : Nat) : Fld := fldP p 0x6044 16 16 0
/-- RS, R360: Recording number. -/
def Reg.Rec.BD_SEQ (p : Nat) : Fld := fldP p 0x6048 0 32 0
/-- RS, R360: t_trig, nanoseconds. -/
def Reg.Rec.BD_TRIG_NS (p : Nat) : Fld := fldP p 0x604c 0 30 0
/-- RS, R360: t_trig, seconds [31:0]. -/
def Reg.Rec.BD_TRIG_SEC_LO (p : Nat) : Fld := fldP p 0x6050 0 32 0
/-- RS, R360: Seconds [47:32]. -/
def Reg.Rec.BD_TRIG_SEC_HI (p : Nat) : Fld := fldP p 0x6054 0 16 0
/-- RS, R360: Source code of R353. -/
def Reg.Rec.BD_CAUSE (p : Nat) : Fld := fldP p 0x6054 16 3 0
/-- RS, R360: Frame of t_trig. -/
def Reg.Rec.BD_TRIG_FRAME (p : Nat) : Fld := fldP p 0x6058 0 32 0
/-- RS, R360: Index of R353. -/
def Reg.Rec.BD_INDEX (p : Nat) : Fld := fldP p 0x605c 0 32 0
/-- RS, R360: Fault message [31:0] for cause 1. -/
def Reg.Rec.BD_FIRST_MSG_LO (p : Nat) : Fld := fldP p 0x6060 0 32 0
/-- RS, R360: Message [63:32]. -/
def Reg.Rec.BD_FIRST_MSG_HI (p : Nat) : Fld := fldP p 0x6064 0 32 0
/-- RS, R360: Records in the recording. -/
def Reg.Rec.BD_RECORDS (p : Nat) : Fld := fldP p 0x6068 0 23 0
/-- RW, R360: Buffer to read. -/
def Reg.Rec.RD_BUF (p : Nat) : Fld := fldP p 0x6080 0 4 0
/-- RW, R360: Record index; incremented by each RD_W0 read. -/
def Reg.Rec.RD_IDX (p : Nat) : Fld := fldP p 0x6084 0 23 0
/-- RS, R360: Record bytes 0–3; snapshots 0x0_608C–0x0_6098. -/
def Reg.Rec.RD_W0 (p : Nat) : Fld := fldP p 0x6088 0 32 0
/-- RS, R360: Bytes 4–7. -/
def Reg.Rec.RD_W1 (p : Nat) : Fld := fldP p 0x608c 0 32 0
/-- RS, R360: Bytes 8–11. -/
def Reg.Rec.RD_W2 (p : Nat) : Fld := fldP p 0x6090 0 32 0
/-- RS, R360: Bytes 12–15. -/
def Reg.Rec.RD_W3 (p : Nat) : Fld := fldP p 0x6094 0 32 0
/-- RS, R360: 0 VALID, 1 GONE, 2 NOT_YET; 3 reserved. -/
def Reg.Rec.RD_RESULT (p : Nat) : Fld := fldP p 0x6098 0 2 0
/-! ### Level triggers, offset 0x0_6100 + t × 0x10, t = 0–31 (R360, 16_disturbance_recorder.md) -/

/-- RO, R360: Channel. -/
def Reg.Lt.LT_CHANNEL (t : Nat) : Fld := fldS (0x6100 + t * 0x10) 0 9 0
/-- RO, R360: 0 off, 1 ABOVE, 2 BELOW, 3 OUTSIDE, 4 RATE_ABOVE. -/
def Reg.Lt.LT_MODE (t : Nat) : Fld := fldS (0x6100 + t * 0x10) 9 3 0
/-- RO, R360: Samples, 1–65,535. -/
def Reg.Lt.LT_HOLD (t : Nat) : Fld := fldS (0x6100 + t * 0x10) 16 16 1
/-- RO, R360: binary32. -/
def Reg.Lt.LT_HI (t : Nat) : Fld := fldS (0x6100 + t * 0x10 + 0x4) 0 32 0
/-- RO, R360: binary32. -/
def Reg.Lt.LT_LO (t : Nat) : Fld := fldS (0x6100 + t * 0x10 + 0x8) 0 32 0
/-- RO, R360: Condition met at the last sample. -/
def Reg.Lt.LT_MET (t : Nat) : Fld := fldS (0x6100 + t * 0x10 + 0xc) 0 1 0
/-- RO, R360: Triggers raised, wrapping. -/
def Reg.Lt.LT_COUNT (t : Nat) : Fld := fldS (0x6100 + t * 0x10 + 0xc) 16 16 0
/-! ### Safety status block, offsets 0x0_7000–0x0_7028 (R373, 17_safety_inputs.md) -/

/-- RO, R373: Block self-test passed and running. -/
def Reg.Saf.SAFETY_OK : Fld := fldS 0x7000 0 1 0
/-- RO, R373: The block demands a trip. -/
def Reg.Saf.TRIP_DEMAND : Fld := fldS 0x7000 1 1 1
/-- RO, R373: Degraded mode (R370). -/
def Reg.Saf.DEGRADED : Fld := fldS 0x7000 2 1 0
/-- RO, R373: Input in the degraded mode. -/
def Reg.Saf.DEGRADED_INPUT : Fld := fldS 0x7000 3 3 0
/-- RO, R373: Outputs energised. -/
def Reg.Saf.SO_ON : Fld := fldS 0x7000 6 2 0
/-- RO, R373: Output read-back or feedback fault. -/
def Reg.Saf.SO_FAULT : Fld := fldS 0x7000 8 2 0
/-- RO, R373: SAFE_FB0/1 show the contactors open. -/
def Reg.Saf.FB_OPEN : Fld := fldS 0x7000 10 2 0
/-- RO, R373: Pairs 0–3 satisfied. -/
def Reg.Saf.TWO_HAND_SAT : Fld := fldS 0x7000 12 4 0
/-- RO, R373: Stop inputs (E_STOP, GUARD, OSSD) in DEMAND, FAULT or LATCHED; TWO_HAND inputs never appear (R365). -/
def Reg.Saf.DEMAND_MAP : Fld := fldS 0x7000 16 8 0
/-- RO, R373: Inputs in FAULT. -/
def Reg.Saf.FAULT_MAP : Fld := fldS 0x7000 24 8 0
/-- RO, R373: s remaining. -/
def Reg.Saf.DEGRADED_LEFT : Fld := fldS 0x7004 0 12 0
/-- RO, R373: ms, from the route card. -/
def Reg.Saf.TP_PERIOD : Fld := fldS 0x7008 0 8 50
/-- RO, R373: µs. -/
def Reg.Saf.TP_WIDTH : Fld := fldS 0x7008 8 10 400
/-- RO, R373: %. -/
def Reg.Saf.DEGRADED_POWER : Fld := fldS 0x7008 18 7 50
/-- RO, R373: s. -/
def Reg.Saf.DEGRADED_TIME : Fld := fldS 0x700c 0 12 300
/-- RO, R373: ms. -/
def Reg.Saf.FB_TIME : Fld := fldS 0x700c 12 10 200
/-- RO, R373: Exchange, unfence, calibration, lane test. -/
def Reg.Saf.TWO_HAND_ORDERS : Fld := fldS 0x700c 22 4 0
/-- RO, R373: ms. -/
def Reg.Saf.OFF_DELAY0 : Fld := fldS 0x7010 0 13 0
/-- RO, R373: ms. -/
def Reg.Saf.OFF_DELAY1 : Fld := fldS 0x7010 16 13 0
/-- W1C, R373: An input demanded. -/
def Reg.Saf.DEMAND_SEEN : Fld := fldS 0x7014 0 1 0
/-- W1C, R373: An input entered FAULT. -/
def Reg.Saf.INPUT_FAULT_SEEN : Fld := fldS 0x7014 1 1 0
/-- W1C, R373: Cause 5 or 6. -/
def Reg.Saf.OUTPUT_FAULT_SEEN : Fld := fldS 0x7014 2 1 0
/-- W1C, R373: Degraded mode entered. -/
def Reg.Saf.DEGRADED_SEEN : Fld := fldS 0x7014 3 1 0
/-- W1C, R373: Cause 7. -/
def Reg.Saf.DEGRADED_EXPIRED : Fld := fldS 0x7014 4 1 0
/-- W1C, R373: R365. -/
def Reg.Saf.TWO_HAND_ASYNC_SEEN : Fld := fldS 0x7014 5 1 0
/-- WS, R373: R368. -/
def Reg.Saf.SAFETY_RESET (p : Nat) : Fld := fldP p 0x7018 0 1 0
/-- RO, R373: 0 none, 1 applied, 2 refused: an input neither LATCHED, RUN nor degraded with both channels high, 3 refused: feedback, 4 refused: rights, 5 refused: block fault; 6–7 reserved. -/
def Reg.Saf.RESET_RESULT (p : Nat) : Fld := fldP p 0x7018 4 3 0
/-- RO, R373: Demands, wrapping. -/
def Reg.Saf.DEMAND_COUNT : Fld := fldS 0x7020 0 32 0
/-- RO, R373: Wrapping. -/
def Reg.Saf.INPUT_FAULT_COUNT : Fld := fldS 0x7024 0 16 0
/-- RO, R373: Wrapping. -/
def Reg.Saf.TWO_HAND_ASYNC : Fld := fldS 0x7024 16 16 0
/-- RO, R373: Short stamp of the last demand. -/
def Reg.Saf.LAST_DEMAND_STAMP : Fld := fldS 0x7028 0 32 0
/-! ### Safety input registers, offset 0x0_7100 + x × 0x10, x = 0–7 (R373, 17_safety_inputs.md) -/

/-- RO, R373: 0 UNUSED, 1 E_STOP, 2 GUARD, 3 TWO_HAND, 4 OSSD; 5–7 reserved. -/
def Reg.SafIn.FUNCTION (x : Nat) : Fld := fldS (0x7100 + x * 0x10) 0 3 0
/-- RO, R373: R361. -/
def Reg.SafIn.PULSED (x : Nat) : Fld := fldS (0x7100 + x * 0x10) 3 1 0
/-- RO, R373: R361. -/
def Reg.SafIn.TRIP_ON_DEMAND (x : Nat) : Fld := fldS (0x7100 + x * 0x10) 4 1 0
/-- RO, R373: R361. -/
def Reg.SafIn.AUTO_RESET (x : Nat) : Fld := fldS (0x7100 + x * 0x10) 5 1 0
/-- RO, R373: R361. -/
def Reg.SafIn.DEGRADE_ALLOWED (x : Nat) : Fld := fldS (0x7100 + x * 0x10) 6 1 0
/-- RO, R373: R361. -/
def Reg.SafIn.OUT_MASK (x : Nat) : Fld := fldS (0x7100 + x * 0x10) 7 2 0
/-- RO, R373: ms. -/
def Reg.SafIn.FILTER (x : Nat) : Fld := fldS (0x7100 + x * 0x10) 9 3 3
/-- RO, R373: ms. -/
def Reg.SafIn.DISC_TIME (x : Nat) : Fld := fldS (0x7100 + x * 0x10) 16 10 100
/-- RO, R373: 0 DEMAND, 1 RUN, 2 FAULT, 3 LATCHED. -/
def Reg.SafIn.IN_STATE (x : Nat) : Fld := fldS (0x7100 + x * 0x10 + 0x4) 0 2 0
/-- RO, R373: Filtered level of channel A. -/
def Reg.SafIn.CH_A (x : Nat) : Fld := fldS (0x7100 + x * 0x10 + 0x4) 2 1 0
/-- RO, R373: Filtered level of channel B. -/
def Reg.SafIn.CH_B (x : Nat) : Fld := fldS (0x7100 + x * 0x10 + 0x4) 3 1 0
/-- RO, R373: Last TPA pulse seen correctly. -/
def Reg.SafIn.PULSE_OK_A (x : Nat) : Fld := fldS (0x7100 + x * 0x10 + 0x4) 4 1 0
/-- RO, R373: Last TPB pulse seen correctly. -/
def Reg.SafIn.PULSE_OK_B (x : Nat) : Fld := fldS (0x7100 + x * 0x10 + 0x4) 5 1 0
/-- RO, R373: Cause of R371. -/
def Reg.SafIn.LAST_CAUSE (x : Nat) : Fld := fldS (0x7100 + x * 0x10 + 0x4) 6 4 0
/-- RO, R373: This input is in the degraded mode. -/
def Reg.SafIn.IN_DEGRADED (x : Nat) : Fld := fldS (0x7100 + x * 0x10 + 0x4) 10 1 0
/-- RO, R373: Wrapping. -/
def Reg.SafIn.DEMANDS (x : Nat) : Fld := fldS (0x7100 + x * 0x10 + 0x8) 0 16 0
/-- RO, R373: Wrapping. -/
def Reg.SafIn.FAULTS (x : Nat) : Fld := fldS (0x7100 + x * 0x10 + 0x8) 16 16 0
/-- RO, R373: Short stamp of the last state change. -/
def Reg.SafIn.LAST_CHANGE (x : Nat) : Fld := fldS (0x7100 + x * 0x10 + 0xc) 0 32 0
/-! ### Own port block, offsets 0x0_1000–0x0_101C (R394, 18_host_ports.md) -/

/-- RO, R394: 0 DOWN, 1 LINKED, 2 ATTACHED, 3 SUSPENDED; 4–7 reserved. -/
def Reg.Port.PORT_STATE (p : Nat) : Fld := fldP p 0x1000 2 3 0
/-- RO, R394: This port holds the order token. -/
def Reg.Port.TOKEN (p : Nat) : Fld := fldP p 0x1000 5 1 0
/-- RO, R394: ORDER [6], PROTECT [7], LEDGER [8], MAINT [9], OBSERVE [10]. -/
def Reg.Port.RIGHTS (p : Nat) : Fld := fldP p 0x1000 6 5 0
/-- RO, R394: 1 ×1, 2 ×2, 4 ×4. -/
def Reg.Port.LINK_WIDTH (p : Nat) : Fld := fldP p 0x1000 11 3 0
/-- RO, R394: 1 2.5, 2 5, 3 8, 4 16 GT/s. -/
def Reg.Port.LINK_SPEED (p : Nat) : Fld := fldP p 0x1000 14 3 0
/-- WS, R394: R378. -/
def Reg.Port.ATTACH (p : Nat) : Fld := fldP p 0x1004 0 1 0
/-- WS, R394: Orderly detach. -/
def Reg.Port.DETACH (p : Nat) : Fld := fldP p 0x1004 1 1 0
/-- WS, R394: R381. -/
def Reg.Port.ORDER_CLAIM (p : Nat) : Fld := fldP p 0x1004 2 1 0
/-- WS, R394: R381. -/
def Reg.Port.ORDER_RELEASE (p : Nat) : Fld := fldP p 0x1004 3 1 0
/-- RO, R394: 0 none, 1 applied, 2 refused: state, 3 refused: rights, 4 refused: token held; 5–7 reserved. -/
def Reg.Port.ATTACH_RESULT (p : Nat) : Fld := fldP p 0x1004 4 3 0
/-- RW, R394: Any write restarts the watchdog (R380). -/
def Reg.Port.HEARTBEAT (p : Nat) : Fld := fldP p 0x1008 0 32 0
/-- RO, R394: From the route card. -/
def Reg.Port.WATCHDOG_MS (p : Nat) : Fld := fldP p 0x100c 0 14 100
/-- RO, R394: R377, wrapping. -/
def Reg.Port.RIGHTS_REFUSED (p : Nat) : Fld := fldP p 0x1010 0 16 0
/-- RO, R394: R375, wrapping. -/
def Reg.Port.ACCESS_ERR (p : Nat) : Fld := fldP p 0x1010 16 16 0
/-- W1C, R394: A write was refused for rights. -/
def Reg.Port.RIGHTS_SEEN (p : Nat) : Fld := fldP p 0x1014 0 1 0
/-- W1C, R394: A malformed access. -/
def Reg.Port.ACCESS_ERR_SEEN (p : Nat) : Fld := fldP p 0x1014 1 1 0
/-- W1C, R394: A stream record was dropped. -/
def Reg.Port.DROP_SEEN (p : Nat) : Fld := fldP p 0x1014 2 1 0
/-- W1C, R394: The token changed hands. -/
def Reg.Port.TOKEN_CHANGED (p : Nat) : Fld := fldP p 0x1014 3 1 0
/-- W1C, R394: A correctable error was reported. -/
def Reg.Port.LINK_ERR_SEEN (p : Nat) : Fld := fldP p 0x1014 4 1 0
/-- RO, R394: Last cause of R379. -/
def Reg.Port.DETACH_CAUSE (p : Nat) : Fld := fldP p 0x1018 0 4 0
/-- RO, R394: Attaches accepted, wrapping. -/
def Reg.Port.ATTACH_COUNT (p : Nat) : Fld := fldP p 0x1018 16 16 0
/-- RO, R394: Writes in flight, 0–256. -/
def Reg.Port.IN_FLIGHT (p : Nat) : Fld := fldP p 0x101c 0 9 0
/-- RO, R394: Highest since attach. -/
def Reg.Port.IN_FLIGHT_PEAK (p : Nat) : Fld := fldP p 0x101c 16 9 0
/-! ### Stream registers, offset 0x0_1100 + s × 0x40, s = 0–4 (R394, 18_host_ports.md) -/

/-- RW, R394: Ring address [31:0]; bits [11:0] must be 0. -/
def Reg.Strm.RING_BASE_LO (p st : Nat) : Fld := fldP p (0x1100 + st * 0x40) 0 32 0
/-- RW, R394: Ring address [63:32]. -/
def Reg.Strm.RING_BASE_HI (p st : Nat) : Fld := fldP p (0x1100 + st * 0x40 + 0x4) 0 32 0
/-- RW, R394: 12–24. -/
def Reg.Strm.RING_SIZE_LOG2 (p st : Nat) : Fld := fldP p (0x1100 + st * 0x40 + 0x8) 0 5 0
/-- RW, R394: R387. -/
def Reg.Strm.ENABLE (p st : Nat) : Fld := fldP p (0x1100 + st * 0x40 + 0x8) 5 1 0
/-- RO, R394: Stream producing records. -/
def Reg.Strm.ACTIVE (p st : Nat) : Fld := fldP p (0x1100 + st * 0x40 + 0x8) 6 1 0
/-- RO, R394: 0 none, 1 enabled, 2 refused: rights, 3 refused: ring fields, 4 refused: not attached; 5–7 reserved. -/
def Reg.Strm.STREAM_RESULT (p st : Nat) : Fld := fldP p (0x1100 + st * 0x40 + 0x8) 7 3 0
/-- RW, R394: Head mirror address [31:0], 8-byte aligned. -/
def Reg.Strm.HEAD_ADDR_LO (p st : Nat) : Fld := fldP p (0x1100 + st * 0x40 + 0xc) 0 32 0
/-- RW, R394: [63:32]. -/
def Reg.Strm.HEAD_ADDR_HI (p st : Nat) : Fld := fldP p (0x1100 + st * 0x40 + 0x10) 0 32 0
/-- RO, R394: Byte offset of the next record. -/
def Reg.Strm.WR_PTR (p st : Nat) : Fld := fldP p (0x1100 + st * 0x40 + 0x14) 0 32 0
/-- RW, R394: Byte offset consumed by the host. -/
def Reg.Strm.RD_PTR (p st : Nat) : Fld := fldP p (0x1100 + st * 0x40 + 0x18) 0 32 0
/-- RO, R394: Wrapping. -/
def Reg.Strm.RECORDS_SENT (p st : Nat) : Fld := fldP p (0x1100 + st * 0x40 + 0x1c) 0 32 0
/-- RO, R394: Wrapping. -/
def Reg.Strm.RECORDS_DROPPED (p st : Nat) : Fld := fldP p (0x1100 + st * 0x40 + 0x20) 0 32 0
/-- RW, R394: Records; 0 off. -/
def Reg.Strm.INT_THRESH (p st : Nat) : Fld := fldP p (0x1100 + st * 0x40 + 0x24) 0 8 1
/-- RW, R394: µs. -/
def Reg.Strm.INT_DELAY (p st : Nat) : Fld := fldP p (0x1100 + st * 0x40 + 0x24) 8 16 100
/-- RO, R394: Stream buffer use, 16-byte units. -/
def Reg.Strm.BUF_LEVEL (p st : Nat) : Fld := fldP p (0x1100 + st * 0x40 + 0x28) 0 16 0
/-- RO, R394: Highest since enable. -/
def Reg.Strm.BUF_PEAK (p st : Nat) : Fld := fldP p (0x1100 + st * 0x40 + 0x28) 16 16 0
/-- RW, R394: Stream 4: station channels 0–1. -/
def Reg.Strm.CAN_MASK (p st : Nat) : Fld := fldP p (0x1100 + st * 0x40 + 0x2c) 0 2 0
/-! ### Orders block, offsets 0x0_2000–0x0_2050 (R394, 18_host_ports.md) -/

/-- RW, R394: Signed kW. -/
def Reg.Ord.P_ORDER_SET (p : Nat) : Fld := fldP p 0x2000 0 32 0
/-- RW, R394: Signed kvar. -/
def Reg.Ord.Q_ORDER_SET (p : Nat) : Fld := fldP p 0x2004 0 32 0
/-- RW, R394: V. -/
def Reg.Ord.UDC_ORDER_SET (p : Nat) : Fld := fldP p 0x2008 0 32 0
/-- RW, R394: V. -/
def Reg.Ord.VAC_ORDER_SET (p : Nat) : Fld := fldP p 0x200c 0 32 0
/-- RW, R394: Signed kW. -/
def Reg.Ord.P_BATT_ORDER_SET (p : Nat) : Fld := fldP p 0x2010 0 32 0
/-- RW, R394: R382. -/
def Reg.Ord.MODE_P_SET (p : Nat) : Fld := fldP p 0x2014 0 1 0
/-- RW, R394: R382. -/
def Reg.Ord.MODE_Q_SET (p : Nat) : Fld := fldP p 0x2014 1 1 0
/-- WS, R394: Commit (R382). -/
def Reg.Ord.ORDER_GO (p : Nat) : Fld := fldP p 0x2018 0 1 0
/-- RO, R394: 0 none, 1 applied, 2 applied clamped, 3 refused: rights, 4 refused: no token; 5–7 reserved. -/
def Reg.Ord.ORDER_RESULT (p : Nat) : Fld := fldP p 0x2018 4 3 0
/-- RO, R394: Signed kW. -/
def Reg.Ord.P_APPLIED : Fld := fldS 0x2020 0 32 0
/-- RO, R394: Signed kvar. -/
def Reg.Ord.Q_APPLIED : Fld := fldS 0x2024 0 32 0
/-- RO, R394: V. -/
def Reg.Ord.UDC_APPLIED : Fld := fldS 0x2028 0 32 0
/-- RO, R394: V. -/
def Reg.Ord.VAC_APPLIED : Fld := fldS 0x202c 0 32 0
/-- RO, R394: Signed kW. -/
def Reg.Ord.P_BATT_APPLIED : Fld := fldS 0x2030 0 32 0
/-- RO, R394: In force. -/
def Reg.Ord.MODE_P : Fld := fldS 0x2034 0 1 0
/-- RO, R394: In force. -/
def Reg.Ord.MODE_Q : Fld := fldS 0x2034 1 1 0
/-- RO, R394: An applied value differs from its target. -/
def Reg.Ord.RAMPING : Fld := fldS 0x2034 2 1 0
/-- RO, R394: R385. -/
def Reg.Ord.HOLDING : Fld := fldS 0x2034 3 1 0
/-- RO, R394: R385. -/
def Reg.Ord.FALLBACK_RAMP : Fld := fldS 0x2034 4 1 0
/-- RO, R394: R385. -/
def Reg.Ord.AT_FALLBACK : Fld := fldS 0x2034 5 1 0
/-- RO, R394: A port holds the token. -/
def Reg.Ord.TOKEN_HELD : Fld := fldS 0x2034 6 1 0
/-- RO, R394: Its port. -/
def Reg.Ord.TOKEN_PORT : Fld := fldS 0x2034 7 2 0
/-- RO, R394: % (R383). -/
def Reg.Ord.SCALE : Fld := fldS 0x2034 9 7 100
/-- RO, R394: Remaining hold. -/
def Reg.Ord.HOLD_LEFT_MS : Fld := fldS 0x2034 16 16 0
/-- W1C, R394: A commit was clamped. -/
def Reg.Ord.CLAMPED_SEEN : Fld := fldS 0x2038 0 1 0
/-- W1C, R394: A hold started. -/
def Reg.Ord.HOST_LOST_SEEN : Fld := fldS 0x2038 1 1 0
/-- W1C, R394: A deblock was refused. -/
def Reg.Ord.DEBLOCK_REFUSED_SEEN : Fld := fldS 0x2038 2 1 0
/-- RW, R394: Regions to block. -/
def Reg.Ord.BLOCK_REQ (p : Nat) : Fld := fldP p 0x2040 0 8 0
/-- RW, R394: Regions to deblock. -/
def Reg.Ord.DEBLOCK_REQ (p : Nat) : Fld := fldP p 0x2040 8 8 0
/-- WS, R394: R386. -/
def Reg.Ord.BLOCK_GO (p : Nat) : Fld := fldP p 0x2044 0 1 0
/-- WS, R394: R386. -/
def Reg.Ord.DEBLOCK_GO (p : Nat) : Fld := fldP p 0x2044 1 1 0
/-- WS, R394: R386. -/
def Reg.Ord.TRIP_GO (p : Nat) : Fld := fldP p 0x2044 2 1 0
/-- RO, R394: 0 none, 1 applied, 2 refused: condition, 3 refused: rights, 4 refused: no token; 5–7 reserved. -/
def Reg.Ord.BLK_RESULT (p : Nat) : Fld := fldP p 0x2044 4 3 0
/-- RO, R394: Bits of *Deblock refusals*. -/
def Reg.Ord.DEBLOCK_CAUSE : Fld := fldS 0x2044 8 6 0
/-- RO, R394: Regions blocked. -/
def Reg.Ord.BLOCKED : Fld := fldS 0x2048 0 8 255
/-- RO, R394: From the route card. -/
def Reg.Ord.ORDER_HOLD_MS : Fld := fldS 0x2050 0 16 2000
/-! ### Envelope, offset 0x0_2080 + i × 0x10, i = 0 P, 1 Q, 2 UDC, 3 VAC, 4 P_BATT (R394, 18_host_ports.md) -/

/-- RO, R394: Unscaled, order unit. -/
def Reg.Env.ENV_MIN (i : Nat) : Fld := fldS (0x2080 + i * 0x10) 0 32 0
/-- RO, R394: Unscaled, order unit. -/
def Reg.Env.ENV_MAX (i : Nat) : Fld := fldS (0x2080 + i * 0x10 + 0x4) 0 32 0
/-- RO, R394: Order unit per s. -/
def Reg.Env.ENV_RATE (i : Nat) : Fld := fldS (0x2080 + i * 0x10 + 0x8) 0 32 0
/-- RO, R394: Order unit. -/
def Reg.Env.ENV_FALLBACK (i : Nat) : Fld := fldS (0x2080 + i * 0x10 + 0xc) 0 32 0
/-! ### Identity and revision block, offsets 0x0_0000–0x0_002C (readable by every port not DOWN) (R412, 19_route_card_and_startup.md) -/

/-- RO, R412: WC8400. -/
def Reg.Ident.PART_CODE : Fld := fldS 0x0 0 16 33792
/-! ### Route card summary block, offsets 0x0_A000–0x0_A1FC (R412, 19_route_card_and_startup.md) -/

/-- RO, R412: R402. -/
def Reg.Card.START_STATE : Fld := fldS 0xa000 0 4 0
/-- RO, R412: R404. -/
def Reg.Card.HALT_CODE : Fld := fldS 0xa000 4 4 0
/-- RO, R412: 0 A, 1 B. -/
def Reg.Card.ACTIVE_COPY : Fld := fldS 0xa000 8 1 0
/-- RO, R412: R401. -/
def Reg.Card.CONFLICT_CODE : Fld := fldS 0xa004 0 16 0
/-- RO, R412: R400. -/
def Reg.Card.CONFLICT_DETAIL : Fld := fldS 0xa008 0 32 0
/-- RO, R412: Active card. -/
def Reg.Card.CARD_SEQ : Fld := fldS 0xa00c 0 32 0
/-- RO, R412: Active card, bytes. -/
def Reg.Card.IMAGE_LEN : Fld := fldS 0xa010 0 32 0
/-- RO, R412: Active card. -/
def Reg.Card.ROUTE_TAG : Fld := fldS 0xa014 0 16 0
/-- RO, R412: Active card. -/
def Reg.Card.ROLLBACK_LEVEL : Fld := fldS 0xa014 16 6 0
/-- RO, R412: Active card. -/
def Reg.Card.COMPILER_VERSION : Fld := fldS 0xa018 0 32 0
/-- RO, R412: Reset to RUN, ms. -/
def Reg.Card.STARTUP_MS : Fld := fldS 0xa01c 0 32 0
/-- RO, R412: Active DIGEST bytes 4w to 4w + 3. -/
def Reg.Card.DIGEST (j : Nat) : Fld := fldS (0xa020 + j * 4) 0 32 0
/-- RO, R412: 0 UNREAD, 1 UNCHECKED, 2 SIGNED, 3 COMMITTED, 4 INVALID (R397); 5–7 reserved. -/
def Reg.Card.COPY_A_STATUS : Fld := fldS 0xa040 0 3 0
/-- RO, R412: As COPY_A_STATUS. -/
def Reg.Card.COPY_B_STATUS : Fld := fldS 0xa040 4 3 0
/-- RO, R412: Header of copy A. -/
def Reg.Card.CARD_SEQ_A : Fld := fldS 0xa044 0 32 0
/-- RO, R412: Header of copy B. -/
def Reg.Card.CARD_SEQ_B : Fld := fldS 0xa048 0 32 0
/-- RW, R412: Copy-relative byte address; per port. -/
def Reg.Card.FLASH_ADDR (p : Nat) : Fld := fldP p 0xa080 0 25 0
/-- RW, R412: 0 A, 1 B. -/
def Reg.Card.FLASH_COPY (p : Nat) : Fld := fldP p 0xa080 31 1 0
/-- WS, R412: R405. -/
def Reg.Card.ERASE_GO (p : Nat) : Fld := fldP p 0xa084 0 1 0
/-- WS, R412: R405. -/
def Reg.Card.PROGRAM_GO (p : Nat) : Fld := fldP p 0xa084 1 1 0
/-- WS, R412: R405. -/
def Reg.Card.READ_GO (p : Nat) : Fld := fldP p 0xa084 2 1 0
/-- RO, R412: 0 none, 1 running, 2 done, 3 refused: active copy, 4 refused: rights, 5 BUSY, 6 flash error; 7 reserved. -/
def Reg.Card.FLASH_RESULT (p : Nat) : Fld := fldP p 0xa084 4 3 0
/-- WS, R412: R406; MAINT. -/
def Reg.Card.PROVISION_GO (p : Nat) : Fld := fldP p 0xa090 0 1 0
/-- RO, R412: 0 none, 1 running, 2 switched, 3 refused: condition, 4 refused: rights, 5 failed signature or CARD_SEQ, 6 failed validation; 7 reserved. -/
def Reg.Card.PROV_RESULT (p : Nat) : Fld := fldP p 0xa090 4 3 0
/-- RO, R412: R406. -/
def Reg.Card.PROV_CONFLICT_CODE : Fld := fldS 0xa094 0 16 0
/-- RO, R412: R406. -/
def Reg.Card.PROV_CONFLICT_DETAIL : Fld := fldS 0xa098 0 32 0
/-- WS, R412: Accepted only in HALT (R404). -/
def Reg.Card.RESTART_GO (p : Nat) : Fld := fldP p 0xa0a0 0 1 0
/-- WS, R412: R410; MAINT. -/
def Reg.Card.FIELD_CLOSE_ARM (p : Nat) : Fld := fldP p 0xa0a0 1 1 0
/-- WS, R412: R410; MAINT. -/
def Reg.Card.FIELD_CLOSE_GO (p : Nat) : Fld := fldP p 0xa0a0 2 1 0
/-- RO, R412: 0 none, 1 closed, 2 refused: condition, 3 refused: rights, 4 refused: FIELD_CODE, 5 not armed or arm expired; 6–7 reserved. -/
def Reg.Card.FIELD_RESULT (p : Nat) : Fld := fldP p 0xa0a0 4 3 0
/-- RW, R412: R410; per port. -/
def Reg.Card.FIELD_CODE (p : Nat) : Fld := fldP p 0xa0a4 0 32 0
/-- RW, R412: Page bytes 4w to 4w + 3; per port. -/
def Reg.Card.FLASH_PAGE (p j : Nat) : Fld := fldP p (0xa100 + j * 4) 0 32 0
/-! ### Cell table entry, offset 0x4_0000 + a × 16 (R419, 20_register_index.md) -/

/-- RS, R419: STATE of the last report received (R210 codes); 0 none since start-up; snapshots +0x4 to +0xC. -/
def Reg.Ct.CT_STATE (a : Nat) : Fld := fldS (0x40000 + a * 16) 0 4 0
/-- RS, R419: ADM_STATE codes of 0x0_3148. -/
def Reg.Ct.CT_ADM_STATE (a : Nat) : Fld := fldS (0x40000 + a * 16) 4 4 0
/-- RS, R419: Insertable under R21 in the last frozen frame. -/
def Reg.Ct.CT_INSERTABLE (a : Nat) : Fld := fldS (0x40000 + a * 16) 8 1 0
/-- RS, R419: Inserted at the end of the last computed frame. -/
def Reg.Ct.CT_INSERTED (a : Nat) : Fld := fldS (0x40000 + a * 16) 9 1 0
/-- RS, R419: AGE above STALE_LIMIT (R123). -/
def Reg.Ct.CT_STALE (a : Nat) : Fld := fldS (0x40000 + a * 16) 10 1 0
/-- RS, R419: Cell fenced, any cause. -/
def Reg.Ct.CT_FENCED (a : Nat) : Fld := fldS (0x40000 + a * 16) 11 1 0
/-- RS, R419: LOCAL_HOLD of the last report. -/
def Reg.Ct.CT_LOCAL_HOLD (a : Nat) : Fld := fldS (0x40000 + a * 16) 12 1 0
/-- RS, R419: WN140-S. -/
def Reg.Ct.CT_SENSOR (a : Nat) : Fld := fldS (0x40000 + a * 16) 13 1 0
/-- RS, R419: EPOCH_REC (R305). -/
def Reg.Ct.CT_EPOCH (a : Nat) : Fld := fldS (0x40000 + a * 16) 16 16 0
/-- RS, R419: Report bytes 4–5. -/
def Reg.Ct.CT_V_CAP (a : Nat) : Fld := fldS (0x40000 + a * 16 + 0x4) 0 16 0
/-- RS, R419: Report bytes 8–9. -/
def Reg.Ct.CT_V_PACK (a : Nat) : Fld := fldS (0x40000 + a * 16 + 0x4) 16 16 0
/-- RS, R419: Report bytes 10–11. -/
def Reg.Ct.CT_I_PACK (a : Nat) : Fld := fldS (0x40000 + a * 16 + 0x8) 0 16 0
/-- RS, R419: Report bytes 14–15. -/
def Reg.Ct.CT_T_STAGE (a : Nat) : Fld := fldS (0x40000 + a * 16 + 0x8) 16 16 0
/-- RS, R419: PACK_STATE codes of 0xD0. -/
def Reg.Ct.CT_PACK_STATE (a : Nat) : Fld := fldS (0x40000 + a * 16 + 0xc) 0 4 0
/-- RS, R419: AGE, saturating at 15. -/
def Reg.Ct.CT_AGE (a : Nat) : Fld := fldS (0x40000 + a * 16 + 0xc) 4 4 0
/-- RS, R419: DERATE bits (R154). -/
def Reg.Ct.CT_DERATE (a : Nat) : Fld := fldS (0x40000 + a * 16 + 0xc) 8 8 0
/-- RS, R419: SOC[j] of the policy engine, 0.01 %; 0xFFFF no admitted pack. -/
def Reg.Ct.CT_SOC (a : Nat) : Fld := fldS (0x40000 + a * 16 + 0xc) 16 16 0

end Sys2Proof.Machine
end

