-- ==== Sys2Proof/Machine/State.lean ====
section
/-! DEFINITION. The state of the block: the register fields of both parts (`regs`), everything the rules name that is no
register field (one plain structure per subject, keyed by rope, cell, region, port or slot where there are many), the
fuses, the route card in force, and the queue of waiting commands. -/

namespace Sys2Proof.Machine

/-! ### Time and angle (chapter 02) -/

/-- The counters of one phase-locked function (R45). -/
structure Lock where
  inCount : Nat
  outCount : Nat
  missing : Nat
  locked : Bool
  deriving DecidableEq, Repr

/-- A lock that has seen nothing. -/
def Lock.idle : Lock := ⟨0, 0, 0, false⟩

/-- A dated action that is scheduled or held and not yet executed (R62, R63). `part` is 0 for the WC8400 and 1 + a for the
cell at address a; `chan` is the angle channel of an angle date. -/
structure Dated where
  part : Nat
  tag : Nat
  chan : Option Nat
  date : Nat
  deriving DecidableEq, Repr

/-- The time base, its servo, its references and the frame epoch (R36 to R43, R58, R59). -/
structure TimeSt where
  /-- The time base in units of 2^-40 ns since the TAI epoch (R36). -/
  units : Nat
  /-- How far the one step moved the time base, ns (R37): durations do not see it. -/
  leap : Int
  freq : Int
  phase : Int
  tb : Lock
  grid0 : Lock
  grid1 : Lock
  /-- The external reference has been acquired since power-up (R37). -/
  acquired : Bool
  rejected : Bool
  rejectCount : Nat
  /-- A region has been deblocked since power-up (R37). -/
  deblocked : Bool
  timeSetWritten : Bool
  /-- Time base and reference seconds of the last PPS edge used in mode 2. -/
  ppsRef : Option (Nat × Nat)
  ptpOffset : Option Int
  ppsMissing : Bool
  /-- The last PPS edge, ns. -/
  lastPps : Nat
  master : Option Announce
  peerDelay : Int
  /-- The frame epoch E, ns (R90). -/
  epoch : Nat
  /-- Start of the frame in progress, ns, and start and number of the next one. -/
  frameStart : Nat
  nextStart : Nat
  nextNum : Nat
  /-- Frames left in which EPOCH_RESET is set (R91). -/
  epochResetLeft : Nat
  /-- A synchronisation order waiting for the frame boundary: the port and the mask (R58). -/
  pendingSync : Option (Nat × Nat × Bool)
  dated : List Dated
  deriving DecidableEq, Repr

/-- The time base at the release of reset: 0 s (R38). -/
def TimeSt.reset : TimeSt :=
  ⟨0, 0, 0, 0, Lock.idle, Lock.idle, Lock.idle, false, false, 0, false, false, none, none, false, 0, none, 0, 0, 0, 0, 0, 0,
    none, []⟩

/-- What an angle channel holds beyond its registers (R54, R56, R92). -/
structure ChanSt where
  /-- Frames of the current profile segment that have run, and the RATE at its start. -/
  segFrames : Nat
  segRate0 : Int
  pendingStart : Bool
  /-- Frames left in which ANGLE_RESET is set, and the start angle, RATE and VALID of the previous frame. -/
  resetLeft : Nat
  prevAngle : Nat
  prevRate : Int
  prevValid : Bool
  deriving DecidableEq, Repr

/-- A channel that has run nothing. -/
def ChanSt.idle : ChanSt := ⟨0, 0, false, 0, 0, 0, false⟩

/-! ### Faults (chapter 15) -/

/-- A fault message as the collector received it (R328), with what the reaction needs beside it. -/
structure Arrival where
  level : Nat
  source : Nat
  kind : Nat
  detail : Nat
  injected : Bool
  fenced : Bool
  late : Bool
  /-- A severity that an earlier rule fixes for this occurrence (R330); 0 when none does. -/
  minSev : Nat
  /-- Frame of the report that brought it, or of detection (R347, FIRST_FRAME). -/
  frame : Nat
  deriving DecidableEq, Repr

/-- An entry of the active table (R336). -/
structure HeldFault where
  level : Nat
  kind : Nat
  source : Nat
  injected : Bool
  eff : Nat
  count : Nat
  capped : Bool
  deriving DecidableEq, Repr

/-- An entry of the fault log (R345). -/
structure LogEntry where
  level : Nat
  source : Nat
  kind : Nat
  detail : Nat
  injected : Bool
  repeated : Bool
  escalated : Bool
  fenced : Bool
  stamp : Nat
  cycle : Nat
  effSev : Nat
  baseSev : Nat
  sameCycle : Bool
  first : Bool
  capped : Bool
  tableFull : Bool
  late : Bool
  deriving DecidableEq, Repr

/-- An acknowledgement waiting for the cycle close: all entries, or one key (R336). -/
structure AckReq where
  port : Nat
  all : Bool
  level : Nat
  kind : Nat
  source : Nat
  injected : Bool
  deriving DecidableEq, Repr

/-- The fault collector beyond its registers (R331 to R343). -/
structure FaultSt where
  arrivals : List Arrival
  acks : List AckReq
  /-- Unfence orders of the cycle: port, level, index; cells asked to unfence, with the port; and the units of levels 4 to 6 that
  a reaction has fenced, by level and source (R334, R343). -/
  unfences : List (Nat × Nat × Nat)
  unfencing : List (Nat × Nat)
  fencedUnits : List (Nat × Nat)
  firstResets : List Nat
  tripResets : List Nat
  tripOrdered : Bool
  held : List HeldFault
  /-- The newest entries of the log, newest first, at most 16,384 (R345). -/
  log : List LogEntry
  cycle : Nat
  /-- Ropes fenced by reaction or by R20, until ROPE_UP_GO (R335, R343). -/
  fencedRopes : List Nat
  /-- Cells commanded BYPASS because a fence holds them (R335). -/
  fencedCells : List Nat
  /-- The ports whose injection runs through a cell, with the cell (R340). -/
  injecting : List (Nat × Nat)
  /-- When the FAULT_N pulse that runs ends, ns (R341). -/
  pulseEnd : Option Nat
  deriving DecidableEq, Repr

/-- A collector that has collected nothing. -/
def FaultSt.reset : FaultSt := ⟨[], [], [], [], [], [], [], false, [], [], 0, [], [], [], none⟩

/-! ### Host ports (chapter 18) -/

/-- A record of a stream (R388, R389): header fields and payload bytes. -/
structure StreamRec where
  seq : Nat
  len : Nat
  typ : Nat
  gap : Nat
  stamp : Nat
  payload : List Nat
  deriving DecidableEq, Repr

/-- A port's stream beyond its registers (R387, R388, R392). -/
structure StreamSt where
  seq : Nat
  gap : Nat
  buf : List StreamRec
  /-- Records written since the last message, and when the first of them was written, ns (R392). -/
  unsignalled : Nat
  firstAt : Nat
  /-- RECORDER stream: buffers to deliver, the first of them in delivery; the place in it (0 the header, k + 1 record k), whether a
  record of it was dropped for this port, and the records sent (R389). -/
  queue : List Nat
  place : Nat
  broken : Bool
  sent : Nat
  deriving DecidableEq, Repr

/-- A stream that has produced nothing. -/
def StreamSt.idle : StreamSt := ⟨0, 0, [], 0, 0, [], 0, false, 0⟩

/-- A host port beyond its registers (R378, R380, R390, R392). -/
structure PortSt where
  /-- Bus Master Enable, Memory Space Enable and Max Payload Size of the function, as the host programmed them. -/
  busMaster : Bool
  memSpace : Bool
  maxPayload : Nat
  linkUp : Bool
  /-- The last heartbeat, ns. -/
  beat : Nat
  /-- Address and bytes of the DMA writes in flight, oldest first (R390). -/
  inFlight : List (Nat × List Nat)
  /-- Messages of MSI-X vectors 0 to 5 sent (R392). -/
  irqs : List Nat
  deriving DecidableEq, Repr

/-- A port that is DOWN. -/
def PortSt.down : PortSt := ⟨false, false, 128, false, 0, [], [0, 0, 0, 0, 0, 0]⟩

/-- The orders beyond their registers (R382 to R385). Applied values and targets are scaled by 10^9 so that a step of
RATE × P is exact; the registers show them rounded towards zero. -/
structure OrderSt where
  targets : List Int
  applied : List Int
  /-- A committed set waiting for the next LOOP_START: five values and two mode bits. -/
  commit : Option (List Int × Nat × Nat)
  /-- Since when the hold of R385 runs, ns. -/
  holdFrom : Nat
  /-- The regions that a block order or reaction blocked last, and in which frame (R393). -/
  justBlocked : Nat × Nat
  deriving DecidableEq, Repr

/-- No orders: every target and applied value is 0. -/
def OrderSt.reset : OrderSt := ⟨[0, 0, 0, 0, 0], [0, 0, 0, 0, 0], none, 0, (0, 0)⟩

/-! ### Rope lanes, ropes and admission (chapters 01, 03, 04 and 14) -/

/-- A Ridge lane beyond its registers (R72, R76, R80, R86, R87); keyed by 2 × rope + end. -/
structure RLaneSt where
  /-- Consecutive windows over ERR_LIMIT, and whether R76 holds the lane down until a clean window. -/
  overWindows : Nat
  errHeld : Bool
  /-- The lane is held down because its module is refused or absent (R86). -/
  moduleHeld : Bool
  rxLowReads : Nat
  moduleRead : Bool
  /-- Invalid blocks counted in the window in progress. -/
  windowErrs : Nat
  downCause : Nat
  deriving DecidableEq, Repr

/-- A Ridge lane at reset. -/
def RLaneSt.idle : RLaneSt := ⟨0, false, false, 0, false, 0, 0⟩

/-- A WN140 lane port beyond its registers (R69, R72, R76, R313); keyed by 2 × cell + port. -/
structure CLaneSt where
  overWindows : Nat
  errHeld : Bool
  windowErrs : Nat
  /-- Cause with which the port is down (R72); a port never UP since WAKE is down with cause 1. -/
  downCause : Nat
  downStamp : Nat
  /-- Remote down (R313): cause and MODE_NOTICE of the last BREAK that named the facing port. -/
  remote : Option (Nat × Bool)
  /-- The port's first BREAK out of it, for the other port being down, has left (R72, R95). -/
  brkSent : Bool
  /-- The last BREAK sent out of this port: port that is down, cause, MODE_NOTICE, short stamp. -/
  lastBreak : Option (Nat × Nat × Bool × Nat)
  injected : Nat
  deriving DecidableEq, Repr

/-- A WN140 port at power-up: down with cause 1 (R72). -/
def CLaneSt.idle : CLaneSt := ⟨0, false, 0, 1, 0, none, false, none, 0⟩

/-- The rope lane test of a region (R81). -/
structure LaneTestSt where
  running : Bool
  starting : Bool
  rope : Nat
  startFrame : Nat
  acked : Nat
  aborting : Bool
  port : Nat
  deriving DecidableEq, Repr

/-- No lane test. -/
def LaneTestSt.idle : LaneTestSt := ⟨false, false, 0, 0, 0, false, 0⟩

/-- A management entry as the WC8400 sends it (R104) and why it was sent: 0 a host or device write with no follow-up,
1 admission, 2 delay, 3 lane test, 4 calibration, 5 ledger fetch, 6 injection, 7 fence or unfence, 8 pack exchange,
9 CAN restart, 10 cell read poll, 12 identity of an abandoned position, 80 + p a ledger fetch
of port p. -/
structure MgmtReq where
  op : Nat
  addr : Nat
  reg : Nat
  epoch : Nat
  data : Nat
  tag : Nat
  why : Nat
  repeats : Nat
  /-- The frame that carried it. -/
  frame : Nat
  deriving DecidableEq, Repr

/-- A BREAK that reached a Ridge (R316): reporting cell, port down and cause, from which end it was received, MODE_NOTICE. -/
structure BreakMsg where
  cell : Nat
  port : Nat
  cause : Nat
  notice : Bool
  fromEnd : Nat
  deriving DecidableEq, Repr

/-- A rope beyond its registers (R20, R316 to R319). -/
structure RopeSt where
  /-- Time base, ns, since which the rope holds its mode and break position. -/
  since : Nat
  settled : Bool
  /-- Instants, ns, of the counted changes of the last 10 s, newest first (R20). -/
  changes : List Nat
  /-- BREAKs received since the previous MODE_DECIDE, and the highest break position b' (R316). -/
  breaks : List BreakMsg
  breakHi : Nat
  /-- The failed path has run clean since this instant, ns. -/
  cleanSince : Option Nat
  /-- Steps of a fence or service order towards DOWN: 0 none, 1 BYPASS commands go out, 2 DOWN at the next MODE_DECIDE (R335). -/
  goingDown : Nat
  /-- ROPE_UP_GO has been accepted and waits for MODE_DECIDE (R318). -/
  comingUp : Bool
  /-- Frame of the last accepted lane injection (R82). -/
  injFrame : Option Nat
  /-- Management entries waiting for a place in a frame, oldest first, and those sent and not yet returned. -/
  mgmtOut : List MgmtReq
  mgmtSent : List MgmtReq
  /-- Short stamp of the launch of the last frame from each end, and the grants placed in it (R88, R108). -/
  launched : List Nat
  bulkLen : List Nat
  nextTag : Nat
  /-- The cairn block of the last frame launched from each end; empty where the end launched none (R88, R115). -/
  cairns : List (List Nat)
  deriving DecidableEq, Repr

/-- An unused rope: DOWN. -/
def RopeSt.idle : RopeSt := ⟨0, false, [], [], 0, none, 0, false, none, [], [], [0, 0], [0, 0], 0, [[], []]⟩

/-- The commands handed over for one cell (R88, R111): 32 slot bytes and the frame that carries them. -/
structure SlotOut where
  frame : Nat
  bytes : List Nat
  deriving DecidableEq, Repr

/-- A position as the WC8400 knows it (R102, R103, R123, R305 to R311): its admission and its last reports. -/
structure PosSt where
  admState : Nat
  fails : Nat
  reason : Nat
  epochRec : Nat
  uid : Nat
  since : Nat
  /-- Entries of the present step still unanswered, and EPOCH writes sent (R306). -/
  waiting : Nat
  epochWrites : Nat
  epochFrame : Nat
  newEpoch : Nat
  /-- Place within CONFIGURING and CHECKING: 0 configuration, 1 echoes awaited, 2 delays, 3 field closure, 4 READ_IDS,
  5 records, 6 coefficients and ENROL, 7 report awaited; and when it was reached, ns. -/
  sub : Nat
  subAt : Nat
  /-- Values read during admission, by management address. -/
  reads : List (Nat × Nat)
  abandonedUid : Nat
  sensor : Bool
  /-- STATE of the last report, the frame of the last fresh one (R123), AGE, saturating at 15, and the frame of the last one whose
  CRC was good. -/
  state : Nat
  freshFrame : Option Nat
  age : Nat
  lastReport : Option Nat
  /-- The measurement fields of the last fresh report (report bytes 4 to 17) and its status word and rotating words. -/
  vCap : Nat
  iCell : Nat
  vPack : Nat
  iPack : Nat
  iDcdc : Nat
  tStage : Nat
  tPack : Nat
  status : Nat
  rots : List (Nat × Nat)
  /-- Toggle and epoch of the last fault message passed on, and the toggle to acknowledge (R102). -/
  lastToggle : Option (Nat × Nat)
  ackToggle : Option Nat
  /-- REC_SEQ of the last bulk record received intact (R109). -/
  bulkAck : Option Nat
  /-- Echo round trips from ends A and B since the last average: count and sum, in 2^-8 ns (R51). -/
  echoA : Nat × Int
  echoB : Nat × Int
  /-- Delays last written, 2^-8 ns. -/
  delayA : Nat
  delayB : Nat
  /-- Local port of the cell fenced, in fence handling: FENCE_REQ outstanding. -/
  cmdOk : Bool
  gap : Nat
  /-- LEDGER_COMMIT is to go out with the next command. -/
  commitReq : Bool
  /-- Bulk grant placed in the last frame: first block and blocks. -/
  grant : Option (Nat × Nat)
  /-- The report taken for lastReport came in the frame that carries the cell's commands (R103). -/
  copyMain : Bool
  /-- Frames closed since the last report whose CRC was good, saturating at 255 (R311). -/
  quiet : Nat
  deriving DecidableEq, Repr

/-- A position that nothing is known of. -/
def PosSt.idle : PosSt :=
  ⟨0, 0, 0, 0, 0, 0, 0, 0, 0, 0, 0, 0, [], 0, false, 0, none, 0, none, 0, 0, 0, 0, 0, 0, 0, 0, [], none, none, none,
    (0, 0), (0, 0), 0, 0, false, 0, false, none, false, 0⟩

/-! ### The cell: time, frames, states, gates (chapters 02, 04 and 09) -/

/-- A cell's time, PLL and angles (R49 to R53, R60, R90 to R92). Times in 2^-8 ns. -/
structure CTimeSt where
  /-- Cell time, 2^-8 ns since the TAI epoch, and the rate correction of its clock. -/
  time : Nat
  rate : Int
  pll : Lock
  /-- Time alignment lost (R53), and consecutive frames beyond 4.0 ns. -/
  alignLost : Bool
  badFrames : Nat
  /-- The next valid cairn block sets the time directly (R50). -/
  directSet : Bool
  appliedA : Nat
  appliedB : Nat
  writtenA : Bool
  writtenB : Bool
  /-- The frame epoch E in use, 2^-8 ns, and the words of a new one received so far (R91). -/
  epoch : Nat
  resetting : Bool
  /-- EPOCH_RESET of the last valid cairn block. -/
  resetSeen : Bool
  words : List (Nat × Nat)
  frameNum : Nat
  /-- Start of the frame in progress in cell time, 2^-8 ns. -/
  frameStart : Nat
  /-- Frames since the last valid cairn block, for the rebuild of R92. -/
  sinceCairn : Nat
  /-- The frame has brought the PLL a reference event (R45, R52). -/
  refSeen : Bool
  /-- Angle (ac) at the last frame start, RATE (2^-16 ac/ns), VALID and "waits for its ROT word", per channel 0 to 3. -/
  est : List Nat
  /-- Fractions of the angles, 2^-16 ac. -/
  estFrac : List Nat
  rates : List Int
  valid : List Bool
  waitRot : List Bool
  frame20 : Bool
  timeValid : Bool
  tagWritten : Bool
  deriving DecidableEq, Repr

/-- A cell that has received nothing. -/
def CTimeSt.idle : CTimeSt :=
  ⟨0, 0, Lock.idle, false, 0, true, 0, 0, false, false, 0, false, false, [], 0, 0, 0, false, [0, 0, 0, 0], [0, 0, 0, 0], [0, 0, 0, 0],
    [false, false, false, false], [true, true, true, true], false, false, false⟩

/-- The fields of a command block (R96). -/
structure CmdBlk where
  epoch : Nat
  seq : Nat
  mode : Nat
  initial : Nat
  nEdges : Nat
  /-- EDGE_EXT × 2^14 + EDGE_OFS and EDGE_TGT, four of them. -/
  edges : List (Nat × Nat)
  edgeExt : Nat
  belayLo : Nat
  belayHi : Nat
  belayPol : Nat
  belayCh : Nat
  convPlan : Nat
  iBattRef : Int
  corrEn : Nat
  corrRestart : Nat
  ackValid : Bool
  ackT : Nat
  ledgerCommit : Bool
  dcdcEn : Bool
  bulkAckValid : Bool
  bulkAck : Nat
  target : Nat
  empty : Bool
  bulkAt : Nat
  bulkBlocks : Nat
  deriving DecidableEq, Repr

/-- A bulk record of a cell (R108): type, sequence and payload bytes (a whole number of blocks of 8). -/
structure BulkRec where
  typ : Nat
  seq : Nat
  payload : List Nat
  deriving DecidableEq, Repr

/-- What a cell did with the last control frame (R95, R107): where it went and what it carried on. -/
structure FrameOut where
  /-- The port the frame left by, and whether it was turned. -/
  port : Nat
  turned : Bool
  /-- The slot that the report went into. -/
  pos : Option Nat
  slot : List Nat
  mgmt : List (List Nat)
  accepted : Bool
  hops : Nat
  turnedAt : Nat
  deriving DecidableEq, Repr

/-- A cell's frame engine (R98 to R102, R109, R113). -/
structure CCmdSt where
  held : List (Nat × CmdBlk)
  /-- The command executing in this frame. -/
  now : Option CmdBlk
  /-- MODE of the last executed command; none before the first. -/
  lastMode : Option Nat
  /-- Start of the run of frames without a command (t_b), 2^-8 ns, and frames of it (R113). -/
  tb : Option Nat
  gapFrames : Nat
  faultQ : List Nat
  bulkQ : List BulkRec
  recSeq : Nat
  grant : Option (Nat × Nat)
  cmdInvalid : Nat
  cmdDup : Nat
  seqReject : Nat
  epochReject : Nat
  belayFrames : Nat
  angleMismatch : Nat
  lastHops : Option Nat
  /-- The values frozen at the last frame start: the report's bytes 4 to 17 and the rotating word. -/
  frozen : List Nat
  rotLatch : List Nat
  sampleValid : Bool
  ovrSeen : Bool
  iBattRef : Int
  dcdcEn : Bool
  swState : Nat
  out : Option FrameOut
  echo : Option (Nat × Nat)
  /-- The record written into the last bulk frame: its first block and bytes (R108). -/
  bulkOut : Option (Nat × List Nat)
  vdd33 : Nat
  dieTemp : Nat
  /-- What the last management entry that the cell answered took back: RESULT and DATA (R105). -/
  result : Nat
  data : Nat
  /-- Cell time, 2^-8 ns, at which the cell last entered ADMIT. -/
  lastEntry : Nat
  deriving DecidableEq, Repr

/-- A frame engine that has held nothing. -/
def CCmdSt.idle : CCmdSt :=
  ⟨[], none, none, none, 0, [], [], 0, none, 0, 0, 0, 0, 0, 0, none, [], [], false, false, 0, false, 3, none, none, none, 0, 0, 0, 0, 0⟩

/-- A cell's gate timing unit and local protection (R213 to R218, R220 to R223). Instants are ticks of 0.8 ns of
cell time. -/
structure GateSt where
  powered : Bool
  /-- The deferred target and the instant it executes (R216). -/
  deferred : Option (Nat × Nat)
  lastChange : Option Nat
  /-- Instants at which G1 to G4 last turned off (R215). -/
  offAt : List Nat
  /-- Gates still to turn on DEAD_TIME after the last change. -/
  turnOn : List Bool
  /-- The changes of the frame still to come: instant and target, in order. -/
  schedule : List (Nat × Nat)
  /-- Target of the lowest sources now: command, belay plan or state default, and which of them (R216). -/
  base : Nat
  baseSource : Nat
  /-- BYP_FIRE has been asserted for the present fence; a confirmation is awaited since this instant. -/
  fired : Bool
  confirmFrom : Option Nat
  /-- Tick at which BYP_FIRE was asserted, while it is. -/
  fireAt : Option Nat
  deriving DecidableEq, Repr

/-- A gate unit at power-up: BLOCK. -/
def GateSt.idle : GateSt := ⟨false, none, none, [0, 0, 0, 0], [false, false, false, false], [], 3, 7, false, none, none⟩

/-! ### The cell: measurement, correlators, pack port, ledger, bus controller (chapters 10 to 13) -/

/-- A conversion that has fallen due (R235, R236): its plan entry, the tick it fell due, and whether it is a calibration's. -/
structure ConvReq where
  idx : Nat
  entry : Nat
  due : Nat
  started : Nat
  delayed : Bool
  deriving DecidableEq, Repr

/-- A calibration point in progress at a cell (R243): the input, the conversions still wanted, and what was gathered. -/
structure CalPoint where
  ain : Nat
  total : Nat
  left : Nat
  sum : Int
  least : Int
  most : Int
  ovr : Nat
  /-- When it began, 2^-8 ns. -/
  since : Nat
  deriving DecidableEq, Repr

/-- The latest clean conversion of an input: raw code, sample time and the tick it completed at. -/
structure Sample where
  code : Int
  at0 : Nat
  done : Nat
  deriving DecidableEq, Repr

/-- A correlator beyond its registers (R244, R245). Sums are binary64 patterns, times nanoseconds. -/
structure CorrSt where
  /-- 0 OFF, 1 ARMED, 2 SETTLING, 3 ACCUMULATING. -/
  phase : Nat
  start : Nat
  accC : Nat
  accS : Nat
  accX : Nat
  n : Nat
  ovr : Bool
  aborted : Bool
  windows : Nat
  deriving DecidableEq, Repr

/-- A correlator that is OFF. -/
def CorrSt.idle : CorrSt := ⟨0, 0, 0, 0, 0, 0, false, false, 0⟩

/-- A cell's converter (R232 to R243). -/
structure MeasSt where
  /-- Plan memory words, by index. -/
  planMem : List (Nat × Nat)
  /-- The entries of the plan in force, as read at the last frame start. -/
  loaded : List Nat
  waiting : List ConvReq
  busy : Option ConvReq
  settling : Bool
  /-- Result buffer entries, by index: word 0 and word 1. -/
  buf : List (Nat × (Nat × Nat))
  latest : List (Nat × Sample)
  cal : Option CalPoint
  /-- CAL_OFS and CAL_GAIN of each input, and the inputs whose offset and gain have been written since OFF (R242). -/
  ofs : List (Nat × Nat)
  gain : List (Nat × Nat)
  ofsSet : Nat
  gainSet : Nat
  /-- Conversions over range at all, counted for report word 13. -/
  ovrTotal : Nat
  corrEnNow : Nat
  deriving DecidableEq, Repr

/-- The converter of a cell at power-up. -/
def MeasSt.idle : MeasSt := ⟨[], [], [], none, false, [], [], none, [], [], 0, 0, 0, 0⟩

/-- What the identity bus of a cell is doing (R253, R255, R256). -/
inductive IdJob where
  | read (stage : Bool) (both : Bool) (tries : Nat) (again : Bool)
  | summary (slot : Nat) (image : List Nat) (retried : Bool)
  | cal (copy : Nat) (retried : Bool)
  deriving DecidableEq, Repr

/-- A profile target (R261): its value as binary32, when it was last set and its TIMEOUT, ns. -/
structure TargetSt where
  value : Nat
  at0 : Nat
  timeout : Nat
  deriving DecidableEq, Repr

/-- A cell's pack port beyond its registers (R253 to R265). Times in 2^-8 ns of cell time. -/
structure PackSt where
  packRec : List Nat
  stageRec : List Nat
  job : Option IdJob
  /-- The bus waits to try again after it was held (R253). -/
  busHeld : Bool
  /-- PACK_PRESENT_N is low without a break since. -/
  presentSince : Option Nat
  debounced : Bool
  /-- The WC8400 has accepted the pack since its insertion. -/
  accepted : Bool
  /-- PACK_EN rose for a PORT_CLOSE at this instant. -/
  closing : Option Nat
  profile : List (Nat × Nat)
  targets : List (Nat × TargetSt)
  decodedAt : Option Nat
  fenceSince : Option Nat
  bmsFence : Bool
  lastFlags : Nat
  /-- Consecutive close failures, and an order that waits for the DC-DC stage to stop: 0 none, 1 PORT_OPEN, 2 DETACH. -/
  closeFails : Nat
  openAsked : Nat
  deriving DecidableEq, Repr

/-- A pack port with nothing mated. -/
def PackSt.idle : PackSt := ⟨[], [], none, false, none, false, false, none, [], [], none, none, false, 0, 0, 0⟩

/-- A HEAD copy of the ledger (R275): ROW_SEQ and ring index. -/
structure HeadCopy where
  seq : Nat
  index : Nat
  deriving DecidableEq, Repr

/-- A commit in progress (R279): EVENT, row bytes, the PACK_UID under its MAC, ring index and phase-two copy. -/
structure Commit where
  event : Nat
  row : List Nat
  uid : Nat
  index : Nat
  seq : Nat
  copyB : Bool
  retried : Bool
  deriving DecidableEq, Repr

/-- A cell's ledger (R272 to R283). The store keeps its content without supply. Energies in 2^-32 Wh. -/
structure LedgSt where
  accCh : Nat
  accDis : Nat
  last : Option (Nat × Nat × Nat)
  /-- Rows of the ring, by index: 32 bytes and the PACK_UID of the row's MAC. -/
  ring : List (Nat × (List Nat × Nat))
  headA : Option HeadCopy
  headB : Option HeadCopy
  /-- Which copy holds the committed head. -/
  headIsB : Bool
  /-- Pack context: PACK_UID of the open tenure and the ROW_SEQ that opened it. -/
  openUid : Option (Nat × Nat)
  commit : Option Commit
  /-- Requests merged into one following commit (R281). -/
  merged : List Nat
  /-- A POWER_FAIL row was begun and has not been committed: survives OFF (R280). -/
  pfPending : Bool
  restartDue : Bool
  /-- A summary is due after the DAILY row (R283). -/
  summaryDue : Bool
  deriving DecidableEq, Repr

/-- An empty ledger. -/
def LedgSt.idle : LedgSt := ⟨0, 0, none, [], none, none, false, none, none, [], false, false, false⟩

/-- One CAN frame as a controller holds it (R294). -/
structure CanFrame where
  id : Nat
  ext : Bool
  fdf : Bool
  brs : Bool
  esi : Bool
  remote : Bool
  data : List Nat
  stamp : Nat
  deriving DecidableEq, Repr

/-- A transmit buffer (R292, R293, R300). -/
structure TxBuf where
  frame : CanFrame
  oneShot : Bool
  abort : Bool
  /-- Bit errors at one data-field bit: the position and the count. -/
  clash : Option (Nat × Nat)
  deriving DecidableEq, Repr

/-- A CAN controller beyond its registers (R289 to R300). -/
structure CanSt where
  tec : Nat
  rec0 : Nat
  /-- Waiting for 11 recessive bits after going online (R291). -/
  joining : Bool
  buf0 : Option TxBuf
  buf1 : Option TxBuf
  buf2 : Option TxBuf
  queue : List CanFrame
  /-- Instants at which the entries of the queue were delivered (R295). -/
  queueAt : List Nat
  /-- Instant of the first unacknowledged attempt since the last acknowledgement or reception, ns (R299). -/
  aloneFrom : Option Nat
  /-- A paced attempt is allowed while BUS_ALONE. -/
  paced : Bool
  /-- Entry to BUS_OFF, and automatic restarts of the last 3,600 s, newest first, ns (R298). -/
  busOffAt : Option Nat
  restarts : List Nat
  exhausted : Bool
  deriving DecidableEq, Repr

/-- A controller OFFLINE. -/
def CanSt.idle : CanSt := ⟨0, 0, false, none, none, none, [], [], none, false, none, [], false⟩

/-- The battery-current slot of a cell beyond its registers (R187, R188): duty and last fresh error as binary32, runs since
the last fresh conversion, the tick of the last run, and the slewed reference in units of 0.05 A / 1,250. -/
structure BcSt where
  out : Nat
  eLast : Nat
  agedRuns : Nat
  lastRun : Option Nat
  ref : Int
  deriving DecidableEq, Repr

/-- A battery-current slot that has not run. -/
def BcSt.idle : BcSt := ⟨0, 0, 0, none, 0⟩

/-- A capture that is still gathering (R352): its number, the captures skipped before it, cause, instant (2^-8 ns), and the
buffer entries before and after the action, oldest first. -/
structure CapRun where
  seq : Nat
  skipped : Nat
  cause : Nat
  at0 : Nat
  before : List (Nat × Nat)
  after : List (Nat × Nat)
  deriving DecidableEq, Repr

/-- The captures of a cell (R352): the number of the next one, the captures not taken, and those that are gathering. -/
structure CaptureSt where
  seq : Nat
  skipped : Nat
  runs : List CapRun
  deriving DecidableEq, Repr

/-- A cell that has captured nothing. -/
def CaptureSt.idle : CaptureSt := ⟨0, 0, []⟩

/-- What the WC8400 keeps of the pack at a position (R257 to R268). Instants in ns of the time base. -/
structure XchgSt where
  /-- XCHG_STATE, the port that ordered it, and the instant of XCHG_GO. -/
  state : Nat
  port : Nat
  at0 : Nat
  /-- Consecutive fresh reports with the pack current at or below PORT_OPEN_I. -/
  low : Nat
  /-- Consecutive close failures. -/
  fails : Nat
  /-- Failed check bits, and PACK_UID of the record last read. -/
  checks : Nat
  uid : Nat
  /-- The pack last admitted here, and every one admitted here since start-up (R285). -/
  admitted : Option Nat
  uids : List Nat
  accepted : Bool
  derated : Bool
  /-- The BMS SOC of a pack without a summary is awaited since this instant. -/
  bmsFrom : Option Nat
  /-- PORT_CLOSE is to be sent once BMS_READY is known. -/
  closing : Bool
  /-- BMS status flags of the last mirror or report word 11. -/
  flags : Nat
  packImg : List Nat
  deriving DecidableEq, Repr

/-- A position whose pack nothing is known of. -/
def XchgSt.idle : XchgSt := ⟨0, 0, 0, 0, 0, 0, 0, none, [], false, false, none, false, 0, []⟩


/-- A calibration order in progress (R243): who ordered it, the cell and input, the point, and whether its record is being
written. -/
structure CalJob where
  port : Nat
  cell : Nat
  ain : Nat
  point : Nat
  storing : Bool
  deriving DecidableEq, Repr

/-- The calibration orders of the station: the one that runs, and the points taken, by (cell × 16 + input) × 2 + point: mean in
1/16 code, spread, and whether a conversion was over range. -/
structure CalSt where
  running : Option CalJob
  points : List (Nat × (Int × Nat × Bool))
  deriving DecidableEq, Repr

/-- No point taken. -/
def CalSt.idle : CalSt := ⟨none, []⟩

/-- A ledger fetch of a port (R285): the cell and the words read so far, by management address. -/
structure Fetch where
  cell : Nat
  words : List (Nat × Nat)
  deriving DecidableEq, Repr
/-! ### The task scheduler (chapter 08) -/

/-- Where an instance stands (R193). -/
inductive TaskPhase where
  | waiting
  | ready
  | running
  | done
  deriving DecidableEq, Repr

/-- An instance in flight (R191 to R201). Instants in ns of the time base. -/
structure TaskInst where
  desc : Nat
  serial : Nat
  /-- Serial of the first instance of its group. -/
  group : Nat
  arg : Nat
  phase : TaskPhase
  counter : Nat
  activated : Nat
  /-- The date of a dated activation not yet reached: a short stamp, or channel and angle. -/
  date : Option (Option Nat × Nat)
  readyAt : Nat
  engine : Nat
  started : Nat
  runTime : Nat
  overran : Bool
  /-- A predecessor ended unpublished (R201). -/
  orphan : Bool
  /-- HW_PRED has occurred: it is one predecessor (R190, R195). -/
  hwDone : Bool
  deriving DecidableEq, Repr

/-- An entry of the decision trace (R206): its four words. -/
structure TraceRow where
  w0 : Nat
  w1 : Nat
  w2 : Nat
  w3 : Nat
  deriving DecidableEq, Repr

/-- Statistics of a descriptor. -/
structure TaskStats where
  runs : Nat
  lastNs : Nat
  worstNs : Nat
  ends : Nat
  overruns : Nat
  deriving DecidableEq, Repr

/-- A descriptor that has not run. -/
def TaskStats.zero : TaskStats := ⟨0, 0, 0, 0, 0⟩

/-- The scheduler beyond its registers. -/
structure SchedSt where
  /-- Instances in flight, in activation order (R191). -/
  insts : List TaskInst
  serial : Nat
  /-- The newest trace entries, newest first, at most 8,192. -/
  trace : List TraceRow
  /-- Entries still to be written before the trace freezes (R207). -/
  postLeft : Option Nat
  stats : List (Nat × TaskStats)
  /-- What was published last, and when: for a cancel in the same cycle (R202). -/
  published : List (Nat × Nat × Nat)
  deriving DecidableEq, Repr

/-- A scheduler with nothing in flight. -/
def SchedSt.idle : SchedSt := ⟨[], 0, [], none, [], []⟩

/-! ### The loop engine (chapter 07) -/

/-- A source of one term as its slot sees it: last fresh value and its age in frames; raw value of the last fresh report,
consecutive identical reports, consecutive differing reports while frozen, and whether it is frozen (R180). -/
structure SrcSt where
  value : Nat
  age : Nat
  raw : Nat
  same : Nat
  differ : Nat
  frozen : Bool
  deriving DecidableEq, Repr

/-- A source nothing has come from. -/
def SrcSt.idle : SrcSt := ⟨0, 0, 0, 0, 0, false⟩

/-- A term's sources and the cross-check of R181. -/
structure TermSt where
  prim : SrcSt
  alt : SrcSt
  apart : Nat
  agree : Nat
  xchk : Bool
  deriving DecidableEq, Repr

/-- A term that has not been evaluated. -/
def TermSt.idle : TermSt := ⟨SrcSt.idle, SrcSt.idle, 0, 0, false⟩

/-- A loop slot (R171 to R182). MODE as its register codes it; reals are binary32 patterns. -/
structure SlotSt where
  mode : Nat
  out : Nat
  integ : Nat
  eLast : Nat
  man : Nat
  /-- In the MANUAL that R179 entered, and consecutive frames of fresh feedback since. -/
  lost : Bool
  freshRun : Nat
  /-- R179's return, or a changed order mode, is to be taken at the next run. -/
  wantAuto : Bool
  misses : Nat
  missRaised : Bool
  /-- A host's request: port, MODE_REQ and MAN_VALUE. -/
  req : Option (Nat × Nat × Nat)
  fbAge : Nat
  sat : Bool
  iClamp : Bool
  missed : Bool
  aged : Bool
  onAlt : Bool
  presetClamped : Bool
  /-- By place: FB from 0, REF from 4, FF from 8, TERM at 12, TRACK_SIG from 16. -/
  terms : List (Nat × TermSt)
  /-- REF and FB of the last run. -/
  refNow : Nat
  fbNow : Nat
  deriving DecidableEq, Repr

/-- A slot that is OFF. -/
def SlotSt.idle : SlotSt :=
  ⟨0, 0, 0, 0, 0, false, 0, false, 0, false, none, 0, false, false, false, false, false, false, [], 0, 0⟩

/-- What the arm assembly handed over for a region (R184, R185): references in 1/256 V, arm currents measured in frame n and
predicted for n + 1, n + 2 and m, and the conduction drop, the last five binary32; BELAY_PHASE in ac. -/
structure ArmOut where
  v0 : Int
  vH : Int
  v1 : Int
  meas : Nat
  i1 : Nat
  i2 : Nat
  im : Nat
  drop : Nat
  phase : Nat
  deriving DecidableEq, Repr

/-- No reference yet. -/
def ArmOut.idle : ArmOut := ⟨0, 0, 0, 0, 0, 0, 0, 0, 0⟩

/-- The loop engine: its slots, the arm-current signals with what was measured, and the last hand-over. -/
structure LoopSt where
  slots : List (Nat × SlotSt)
  armTerms : List (Nat × TermSt)
  armMeas : List (Nat × Nat)
  arms : List (Nat × ArmOut)
  /-- Angle (48 bits) and RATE of each channel, latched for the step (R168, R173). -/
  latch : List (Nat × Int)
  deriving DecidableEq, Repr

/-- A loop engine that has run no step. -/
def LoopSt.idle : LoopSt := ⟨[], [], [], [], []⟩

/-! ### The rank engines and edge computers (chapter 05) -/

/-- What the control plane knows of one execution frame of a cell (R122): signed ticks inserted, target at its end, and the
belay plan and kind of the last executed command after it: 0 BYPASS, 1 RUN, 2 BLOCK. -/
structure HistRow where
  frame : Nat
  ticks : Int
  finish : Nat
  lo : Nat
  hi : Nat
  pol : Nat
  ch : Nat
  kind : Nat
  deriving DecidableEq, Repr

/-- A cell as the rank engine and the edge computer of its region hold it. Voltages in 2^-24 V. -/
structure RankCell where
  ranked : Bool
  stale : Bool
  place : Nat
  key : Int
  eDev : Int
  /-- W_APPLIED, 0.05 V, and whether the cell has entered the orders since its admission (R126). -/
  w : Int
  entered : Bool
  vHat : Int
  vEff : Int
  /-- Target at the end of the last computed frame: 0 BYPASS, 1 POS, 2 NEG, 3 BLOCK. -/
  target : Nat
  /-- The last commanded change: its frame and tick. -/
  last : Option (Nat × Nat)
  /-- The last 16 execution frames, newest first. -/
  hist : List HistRow
  insertable : Bool
  /-- The command computed for the execution frame: INITIAL, edges (tick and target), plan LO, HI, POL, CH. -/
  initial : Nat
  edges : List (Nat × Nat)
  planLo : Nat
  planHi : Nat
  planPol : Nat
  planCh : Nat
  deriving DecidableEq, Repr

/-- A cell that no rank has held. -/
def RankCell.idle : RankCell := ⟨false, false, 0, 0, 0, 0, false, 0, 0, 3, none, [], false, 0, [], 0, 0, 0, 0⟩

/-- The rank engine and edge computer of a region. -/
structure RegRank where
  /-- Steps of the frame in progress done: 0 none, 1 keys due (REPORT_CUTOFF), 2 ranked, 3 edges, 4 belay pass, 5 RANK_LATE. -/
  phase : Nat
  /-- Frame of the last completed rank, the order it gave, and whether the next one takes the full path (R128). -/
  done : Option Nat
  order : List Nat
  takeover : Bool
  /-- Measured arm current by frame, 2^-16 A, newest first, and the predictions of the step in use. -/
  arm : List (Nat × Int)
  /-- E_ARM as binary32 and V_AVAIL in 2^-24 V. -/
  eArm : Nat
  vAvail : Int
  /-- Polarity: 1 POS, 2 NEG; duty: 0 CHARGE, 1 DISCHARGE. -/
  pol : Nat
  duty : Nat
  /-- Blocked at the last hand-over. -/
  wasBlocked : Bool
  /-- In the condition LOW, or BELOW_MIN, while deblocked (R22). -/
  lowHeld : Bool
  belowHeld : Bool
  deriving DecidableEq, Repr

/-- A region that has not been ranked. -/
def RegRank.idle : RegRank := ⟨0, none, [], true, [], 0, 0, 1, 0, true, false, false⟩

/-! ### The policy engine (chapter 06) -/

/-- A probe result waiting for a tick (R151): |Z| as binary32, pack temperature at the sweep in 1/16 °C, and its sweep time, ns. -/
structure ProbeRes where
  absZ : Nat
  temp : Int
  at0 : Nat
  deriving DecidableEq, Repr

/-- What a BMS mirror gave (R262): SOC in 0.01 %, status flags, charge and discharge limits in 0.05 A and capacity in 0.1 Ah,
each where the profile decodes it, and the instant of the mirror and the BMS age it carried. -/
structure BmsData where
  soc : Option Nat
  flags : Nat
  limCh : Option Nat
  limDis : Option Nat
  capacity : Option Nat
  at0 : Nat
  age : Nat
  deriving DecidableEq, Repr

/-- A pack, and its cell, as the policy engine holds it. SOC, H and RR in 2^-48. -/
structure PolSt where
  admitted : Bool
  soc : Int
  health : Int
  rr : Int
  /-- Charge gathered since the last completed tick: sum of current (0.05 A) over frames. -/
  charge : Int
  bms : Option BmsData
  probes : List ProbeRes
  lastProbe : Option Nat
  healthFrom : Nat
  healthStale : Bool
  /-- One result beyond RR_JUMP has just been seen (R153), and a second one (fence condition). -/
  outlier : Bool
  jumped : Bool
  disagree : Nat
  /-- Lease terms: COST, Q_REMAIN, a write after the latch, and the throughput last metered, Wh. -/
  cost : Nat
  quota : Nat
  metered : Option Nat
  quotaOut : Bool
  /-- From the last completed tick. -/
  eligible : Bool
  limCh : Nat
  limDis : Nat
  derate : Nat
  merit : Nat
  iRef : Int
  wTarget : Int
  /-- Consecutive ticks with the pack, or the stage, at its fence temperature. -/
  hotPack : Nat
  hotStage : Nat
  /-- Fences made by policy, a cell fence held (R163), and the causes barred after an unfence: cause and instant, ns. -/
  packFenced : Bool
  cellFenced : Bool
  held : Bool
  /-- The cause of the pack fence (R162). -/
  fenceCause : Nat
  barred : List (Nat × Nat)
  /-- From the pack record: rated charge in 0.1 Ah, Z at begin of life in 0.01 mΩ, limits in 0.05 A. -/
  qRated : Nat
  zBol : Nat
  recCh : Nat
  recDis : Nat
  deriving DecidableEq, Repr

/-- A position without an admitted pack. -/
def PolSt.idle : PolSt :=
  ⟨false, 0, 0, 0, 0, none, [], none, 0, false, false, false, 0, 0, 0, none, false, false, 0, 0, 0, 0, 0, 0, 0, 0, false, false,
    false, 0, [], 0, 0, 0, 0⟩

/-- What a tick gives for a region: share and capability in 1/400 W. -/
structure Share where
  region : Nat
  share : Int
  cap : Int
  deriving DecidableEq, Repr

/-- A tick in progress (R144): the frame it started in, the frames since the last completed tick and the measured power it
latched, what it has computed per pack (latched, result), its shares, and order, allocation and shortfall in 1/400 W. -/
structure Tick where
  frame : Nat
  frames : Nat
  measured : Int
  packs : List (Nat × (PolSt × PolSt))
  shares : List Share
  order : Int
  alloc : Int
  short : Int
  deriving DecidableEq, Repr

/-- The policy engine beyond its packs: the running tick; frames since the last completed tick and the sum of V × I over
fresh reports in them (1/400 W); the outputs (I_BATT_REF, W_TARGET) in force by cell, those of the last completed tick with the
frame that takes them up (R145); and the fences made since that tick by region: packs, cells. -/
structure PolicySt where
  running : Option Tick
  frames : Nat
  measured : Int
  inForce : List (Nat × (Int × Int))
  pendingOut : Option (Nat × List (Nat × (Int × Int)))
  fencedNow : List (Nat × (Nat × Nat))
  deriving DecidableEq, Repr

/-- A policy engine that has run no tick. -/
def PolicySt.idle : PolicySt := ⟨none, 0, 0, [], none, []⟩

/-! ### The impedance sweep (R247 to R250) -/

/-- A correlator result record (R246) as the WC8400 holds it until its partner arrives: cell, input, window in ns, channel,
harmonic, parts as binary32, turns, T_PACK, the flags LOW_N or OVR_EXCLUDED, and when it arrived, ns. -/
structure CorrRes where
  cell : Nat
  input : Nat
  start : Nat
  finish : Nat
  ch : Nat
  harm : Nat
  re : Nat
  im : Nat
  turns : Nat
  temp : Nat
  bad : Bool
  arrived : Nat
  deriving DecidableEq, Repr

/-- The last result of a cell at a sweep point: |Z|, phase and frequency as binary32, T_PACK, and the window's end, ns. -/
structure ImpRes where
  absZ : Nat
  phase : Nat
  freq : Nat
  temp : Nat
  at0 : Nat
  deriving DecidableEq, Repr

/-- The sweep beyond its registers: results that wait for a partner, results by 8 × cell + point, and whether the next
commands carry CORR_RESTART. -/
structure SweepSt where
  waiting : List CorrRes
  results : List (Nat × ImpRes)
  restart : Bool
  stopping : Bool
  deriving DecidableEq, Repr

/-- No sweep has run. -/
def SweepSt.idle : SweepSt := ⟨[], [], false, false⟩

/-! ### The safety block (chapter 17) -/

/-- A safety input beyond its registers (R362 to R371). -/
structure SafInSt where
  /-- Both channels were low together at some evaluation since the input last left RUN. -/
  bothLow : Bool
  /-- The sequence fault of the present DEMAND has been raised. -/
  sequence : Bool
  /-- A demand without AUTO_RESET waits for an accepted SAFETY_RESET. -/
  demanded : Bool
  /-- Fenced by a reaction (cause 9). -/
  fenced : Bool
  /-- Since when the channels disagree, and since when the input runs clean, ns. -/
  apartFrom : Option Nat
  cleanFrom : Nat
  deriving DecidableEq, Repr

/-- An input in the DEMAND in which every input starts: it counts as both channels low. -/
def SafInSt.start : SafInSt := ⟨true, false, false, false, none, 0⟩

/-- A safe output beyond its registers: when its OFF_DELAY has run, since when its feedback has to follow, ns, and whether a
feedback has failed to follow since the last accepted SAFETY_RESET. -/
structure SafOutSt where
  offDue : Option Nat
  changed : Option Nat
  fbFailed : Bool
  deriving DecidableEq, Repr

/-- An output that is off and still. -/
def SafOutSt.off : SafOutSt := ⟨none, none, false⟩

/-- A two-hand pair (R365): both inputs have been in DEMAND since the function was last satisfied or missed, and when the first
of them reached RUN. -/
structure HandPair where
  armed : Bool
  first : Option Nat
  deriving DecidableEq, Repr

/-- A pair that has not moved. -/
def HandPair.idle : HandPair := ⟨true, none⟩

/-- The safety block. -/
structure SafetySt where
  ins : List (Nat × SafInSt)
  outs : List (Nat × SafOutSt)
  pairs : List (Nat × HandPair)
  /-- When the degraded mode began, ns. -/
  degradedAt : Nat
  deriving DecidableEq, Repr

/-- The block at reset. -/
def SafetySt.reset : SafetySt := ⟨[], [], [], 0⟩

/-! ### Recovery (chapter 14) and the dies (chapters 01 and 21) -/

/-- What the dies and planes hold beyond their registers. -/
structure RecovSt where
  /-- The active plane has mismatched: its outputs are blocked until the spare takes over (R323). -/
  outputsBlocked : Bool
  /-- Ridges in their restart, with the port that ordered it (R322). -/
  restarting : List (Nat × Nat)
  /-- The last sample of each die's junction temperature, 1/16 °C, and the dies whose warning stands (R428). -/
  dieTemps : List (Nat × Int)
  warned : List Nat
  /-- A supply is below its reset threshold (R423). -/
  supplyLow : List Nat
  deriving DecidableEq, Repr

/-- Nothing restarting, no sample taken. -/
def RecovSt.reset : RecovSt := ⟨false, [], [], [], []⟩

/-! ### The disturbance recorder (chapter 16) -/

/-- A record (R351) with the instant of its STAMP in ns. -/
structure RecRow where
  at0 : Nat
  source : Nat
  typ : Nat
  raw : Bool
  stale : Bool
  injected : Bool
  level : Nat
  value : Nat
  frame : Nat
  deriving DecidableEq, Repr

/-- What the recorder keeps of a channel: its last recorded value, samples since, and its last sample; and the shadow, the value
of the last record that the ring discarded (R350, R355). -/
structure ChanRec where
  rec0 : Option Nat
  quiet : Nat
  sample : Option Nat
  shadow : Option Nat
  deriving DecidableEq, Repr

/-- A channel that has not been sampled. -/
def ChanRec.idle : ChanRec := ⟨none, 0, none, none⟩

/-- A buffer (R354): 0 FREE, 1 RECORDING, 2 CLOSING, 3 HELD. The ring and the post part hold their records newest first. -/
structure RecBuf where
  state : Nat
  ring : List RecRow
  /-- The instant of the newest record that the ring has lost. -/
  lost : Option Nat
  post : List RecRow
  seq : Nat
  injected : Bool
  preShort : Bool
  postShort : Bool
  triggers : Nat
  trigAt : Nat
  cause : Nat
  trigFrame : Nat
  index : Nat
  msg : Nat
  /-- Start of the window, and the end of the post part, ns. -/
  from0 : Nat
  closedAt : Nat
  /-- Ports that have it whole. -/
  delivered : List Nat
  deriving DecidableEq, Repr

/-- A FREE buffer. -/
def RecBuf.free : RecBuf := ⟨0, [], none, [], 0, false, false, false, 0, 0, 0, 0, 0, 0, 0, 0, []⟩

/-- A level trigger: consecutive samples that meet its condition, and whether this run of them has triggered. -/
structure LtSt where
  run : Nat
  fired : Bool
  deriving DecidableEq, Repr

/-- A level trigger whose condition does not hold. -/
def LtSt.idle : LtSt := ⟨0, false⟩

/-- The recorder beyond its registers. -/
structure RecSt where
  bufs : List (Nat × RecBuf)
  chans : List (Nat × ChanRec)
  lts : List (Nat × LtSt)
  /-- When the buffer in use was taken; whether that is a re-arm (R358); when POST ends and its latest end. -/
  takenAt : Nat
  rearm : Bool
  postEnd : Nat
  postMax : Nat
  /-- The 1 ms window: its start, the records of R357 in it, and calm windows. -/
  winAt : Nat
  nr : Nat
  rd : Nat
  calm : Nat
  seq : Nat
  /-- Ports whose TRIG_GO waits for the next frame start. -/
  orders : List Nat
  deriving DecidableEq, Repr

/-- A recorder that is OFF. -/
def RecSt.off : RecSt := ⟨[], [], [], 0, false, 0, 0, 0, 0, 0, 0, 0, []⟩

/-! ### Start-up, flash and field closure (chapter 19) -/

/-- A flash operation that runs (R405): the port that ordered it, 0 ERASE, 1 PROGRAM, 2 READ, the copy, the copy-relative address, and
the page to program. -/
structure FlashJob where
  port : Nat
  op : Nat
  copy : Nat
  addr : Nat
  page : List Nat
  deriving DecidableEq, Repr

/-- A page of an erased flash. -/
def erasedPage : List Nat := List.replicate 256 0xFF

/-- Start-up, provisioning and field closure beyond their registers (R397 to R411). -/
structure StartSt where
  /-- The card that has passed validation and waits for CONFIGURE. -/
  card : Option Card
  /-- Ridges and planes that have failed the self-test of this start (R403). -/
  badRidges : List Nat
  badPlanes : List Nat
  recorderBad : Bool
  job : Option FlashJob
  /-- RESTART_GO came while a flash operation ran. -/
  restartDue : Bool
  /-- The port that ordered the provisioning in progress. -/
  provPort : Option Nat
  /-- The port that armed field closure, and when, ns. -/
  armed : Option (Nat × Nat)
  deriving DecidableEq, Repr

/-- A start that has done nothing. -/
def StartSt.idle : StartSt := ⟨none, [], [], false, none, false, none, none⟩

/-! ### The whole -/

/-- The WN140 at a position (R226, R230, R286, R409): whether one has been powered there, what is fused into it, and whether a
fuse failed its check at the last power-up. -/
structure CellPart where
  fitted : Bool
  fused : CellFuses
  fuseBad : Bool
  deriving DecidableEq, Repr

/-- A position where nothing has been powered yet: read as a battery cell with identity 0 and a ledger key of zeros. -/
def CellPart.blank : CellPart := ⟨false, ⟨false, 0, 0, 0, some (List.replicate 32 0)⟩, false⟩

/-- Everything a command may change but the fuses and the queue. -/
structure Chip where
  regs : Regs
  card : Card
  time : TimeSt
  chans : List (Nat × ChanSt)
  faults : FaultSt
  ports : List (Nat × PortSt)
  streams : List (Nat × StreamSt)
  orders : OrderSt
  rlanes : List (Nat × RLaneSt)
  clanes : List (Nat × CLaneSt)
  laneTests : List (Nat × LaneTestSt)
  ropes : List (Nat × RopeSt)
  slots : List (Nat × SlotOut)
  pos : List (Nat × PosSt)
  ctime : List (Nat × CTimeSt)
  ccmd : List (Nat × CCmdSt)
  gates : List (Nat × GateSt)
  meas : List (Nat × MeasSt)
  corrs : List (Nat × CorrSt)
  packs : List (Nat × PackSt)
  ledgers : List (Nat × LedgSt)
  cans : List (Nat × CanSt)
  bcs : List (Nat × BcSt)
  captures : List (Nat × CaptureSt)
  xchs : List (Nat × XchgSt)
  sched : SchedSt
  loop : LoopSt
  rcells : List (Nat × RankCell)
  rregs : List (Nat × RegRank)
  pols : List (Nat × PolSt)
  policy : PolicySt
  sweep : SweepSt
  cal : CalSt
  fetches : List (Nat × Fetch)
  parts : List (Nat × CellPart)
  safety : SafetySt
  recov : RecovSt
  recorder : RecSt
  start : StartSt
  /-- The two flash devices (R396): pages of 256 bytes by copy × 2^18 + page number; an unlisted page is erased. -/
  flash : List (Nat × List Nat)
  free : Nat
  deriving DecidableEq, Repr

/-- What is fused into the parts: it changes only by blowing, never back (R409). -/
structure Fuses where
  variant : Nat
  stepMinor : Nat
  stepMajor : Nat
  dieUid : Nat
  fieldClosed : Bool
  keyBound : Bool
  ridge3AFused : Bool
  rollback : Nat
  keyHash : Nat
  /-- Whether the field fuse of the WN140 at an address is blown. -/
  cellsClosed : List (Nat × Bool)
  deriving DecidableEq, Repr

/-- An unclosed, unbound WC8400-3 of stepping A0 with DIE_UID 0, and unclosed cells. -/
def Fuses.reset : Fuses := ⟨0, 0, 0, 0, false, false, true, 0, 0, []⟩

/-- A stop the specification itself gives. -/
inductive Fault where
  /-- Raised by WC_RESET_RELEASE and CELL_POWER_ON_RESET when the TEST_MODE inputs are not zero before field closure: the part
  enters a factory test mode in which no function of the manual runs (R422, R438). Safe: the model goes no further. -/
  | factoryTestMode
  deriving DecidableEq, Repr

/-- A command the model turns away. -/
inductive Refusal where
  /-- Raised by Dispatch.lean alone, for a command whose meaning is not written yet. Safe. -/
  | notModelled (mnemonic : String)
  deriving DecidableEq, Repr

/-- The state of the block: the parts, their fuses and the commands that wait, first in, first out. -/
structure State where
  chip : Chip
  fuses : Fuses
  pending : List Instr
  deriving DecidableEq, Repr

/-- The block right after power-on reset. -/
def Chip.reset : Chip where
  regs := []
  card := Card.blank
  time := TimeSt.reset
  chans := []
  faults := FaultSt.reset
  ports := []
  streams := []
  orders := OrderSt.reset
  rlanes := []
  clanes := []
  laneTests := []
  ropes := []
  slots := []
  pos := []
  ctime := []
  ccmd := []
  gates := []
  meas := []
  corrs := []
  packs := []
  ledgers := []
  cans := []
  bcs := []
  captures := []
  xchs := []
  sched := SchedSt.idle
  loop := LoopSt.idle
  rcells := []
  rregs := []
  pols := []
  policy := PolicySt.idle
  sweep := SweepSt.idle
  cal := CalSt.idle
  fetches := []
  parts := []
  safety := SafetySt.reset
  recov := RecovSt.reset
  recorder := RecSt.off
  start := StartSt.idle
  flash := []
  free := 0

/-- The block right after power-on reset, with no command waiting. -/
def State.reset : State := ⟨Chip.reset, Fuses.reset, []⟩

/-- A command that changes the chip and neither the fuses nor the queue. -/
def State.run (s : State) (f : Chip → Chip) : Host.Outcome State Fault Refusal := .next { s with chip := f s.chip }

/-- As `run`, for a command whose effect depends on what is fused. -/
def State.runFused (s : State) (f : Fuses → Chip → Chip) : Host.Outcome State Fault Refusal :=
  .next { s with chip := f s.fuses s.chip }

/-- A command that may blow fuses. -/
def State.blow (s : State) (f : Fuses → Chip → Fuses × Chip) : Host.Outcome State Fault Refusal :=
  .next { s with chip := (f s.fuses s.chip).2, fuses := (f s.fuses s.chip).1 }

end Sys2Proof.Machine
end

