-- ==== Sys2Proof/Machine/Ops.lean ====
section
/-! DEFINITION. The named operations every meaning is built from: reading and writing register fields and records, the
time base, rights, fault messages, interrupts and streams. -/

namespace Sys2Proof.Machine

/-! ### Registers and records -/

/-- What a register field holds. -/
def Chip.rd (c : Chip) (f : Fld) : Nat := regGet c.regs f

/-- A register field read as a signed number. -/
def Chip.rdI (c : Chip) (f : Fld) : Int := toSigned f.width (c.rd f)

/-- Is a one-bit field set? -/
def Chip.on (c : Chip) (f : Fld) : Bool := decide (c.rd f = 1)

/-- Write a register field. -/
def Chip.wr (c : Chip) (f : Fld) (v : Nat) : Chip := { c with regs := regSet c.regs f v }

/-- Write a signed number into a register field. -/
def Chip.wrI (c : Chip) (f : Fld) (v : Int) : Chip := c.wr f (ofSigned f.width v)

/-- Write a truth value into a register field. -/
def Chip.wrB (c : Chip) (f : Fld) (v : Bool) : Chip := c.wr f (bit v)

/-- Set a one-bit field. -/
def Chip.set (c : Chip) (f : Fld) : Chip := c.wr f 1

/-- Clear a field. -/
def Chip.clr (c : Chip) (f : Fld) : Chip := c.wr f 0

/-- Add to a counting field, which wraps at its width. -/
def Chip.add (c : Chip) (f : Fld) (n : Nat) : Chip := c.wr f (c.rd f + n)

/-- Count one in a wrapping field. -/
def Chip.inc (c : Chip) (f : Fld) : Chip := c.add f 1

/-- Count one in a field that saturates at its width. -/
def Chip.incSat (c : Chip) (f : Fld) : Chip := c.wr f (satNat f.width (c.rd f + 1))

/-- Write the same value into the copies that the four ports hold of one field. -/
def Chip.wrPorts (c : Chip) (f : Nat → Fld) (v : Nat) : Chip :=
  (((c.wr (f 0) v).wr (f 1) v).wr (f 2) v).wr (f 3) v

/-- Copy the live value of an RS field into port `p`'s snapshot (R5, R44). (notes/assumptions: 45 DEDUCED) -/
def Chip.latch (c : Chip) (p : Nat) (f : Fld) : Chip := c.wr (f.snap p) (c.rd f)

/-- Copy the live value of an RS field of the port's own into its snapshot. (notes/assumptions: 45 DEDUCED) -/
def Chip.latchOwn (c : Chip) (f : Fld) : Chip := c.wr f.snapOwn (c.rd f)

/-- Copy the live value of a WN140's RS field into its snapshot. (notes/assumptions: 45 DEDUCED) -/
def Chip.latchCell (c : Chip) (f : Fld) : Chip := c.wr f.cellSnap (c.rd f)

/-- The record of angle channel `n`. -/
def Chip.chan (c : Chip) (n : Nat) : ChanSt := mapGet ChanSt.idle c.chans n

/-- Replace the record of angle channel `n`. -/
def Chip.setChan (c : Chip) (n : Nat) (x : ChanSt) : Chip := { c with chans := mapSet ChanSt.idle c.chans n x }

/-- The record of host port `p`. -/
def Chip.port (c : Chip) (p : Nat) : PortSt := mapGet PortSt.down c.ports p

/-- Replace the record of host port `p`. -/
def Chip.setPort (c : Chip) (p : Nat) (x : PortSt) : Chip := { c with ports := mapSet PortSt.down c.ports p x }

/-- The record of stream `st` of port `p`. -/
def Chip.stream (c : Chip) (p st : Nat) : StreamSt := mapGet StreamSt.idle c.streams (8 * p + st)

/-- Replace the record of stream `st` of port `p`. -/
def Chip.setStream (c : Chip) (p st : Nat) (x : StreamSt) : Chip :=
  { c with streams := mapSet StreamSt.idle c.streams (8 * p + st) x }

/-- The record of the Ridge lane at end `e` of rope `g`. -/
def Chip.rlane (c : Chip) (g e : Nat) : RLaneSt := mapGet RLaneSt.idle c.rlanes (2 * g + e)

/-- Replace the record of a Ridge lane. -/
def Chip.setRlane (c : Chip) (g e : Nat) (x : RLaneSt) : Chip :=
  { c with rlanes := mapSet RLaneSt.idle c.rlanes (2 * g + e) x }

/-- The record of lane port `b` of the cell at `a`. -/
def Chip.clane (c : Chip) (a b : Nat) : CLaneSt := mapGet CLaneSt.idle c.clanes (2 * a + b)

/-- Replace the record of a WN140 lane port. -/
def Chip.setClane (c : Chip) (a b : Nat) (x : CLaneSt) : Chip :=
  { c with clanes := mapSet CLaneSt.idle c.clanes (2 * a + b) x }

/-- The lane test of region `r`. -/
def Chip.laneTest (c : Chip) (r : Nat) : LaneTestSt := mapGet LaneTestSt.idle c.laneTests r

/-- Replace the lane test of region `r`. -/
def Chip.setLaneTest (c : Chip) (r : Nat) (x : LaneTestSt) : Chip :=
  { c with laneTests := mapSet LaneTestSt.idle c.laneTests r x }

/-- The record of rope `g`. -/
def Chip.rope (c : Chip) (g : Nat) : RopeSt := mapGet RopeSt.idle c.ropes g

/-- Replace the record of rope `g`. -/
def Chip.setRope (c : Chip) (g : Nat) (x : RopeSt) : Chip := { c with ropes := mapSet RopeSt.idle c.ropes g x }

/-- What the WC8400 knows of the position at address `a`. -/
def Chip.posn (c : Chip) (a : Nat) : PosSt := mapGet PosSt.idle c.pos a

/-- Replace what the WC8400 knows of the position at address `a`. -/
def Chip.setAt (c : Chip) (a : Nat) (x : PosSt) : Chip := { c with pos := mapSet PosSt.idle c.pos a x }

/-- The time record of the cell at `a`. -/
def Chip.ct (c : Chip) (a : Nat) : CTimeSt := mapGet CTimeSt.idle c.ctime a

/-- Replace the time record of the cell at `a`. -/
def Chip.setCt (c : Chip) (a : Nat) (x : CTimeSt) : Chip := { c with ctime := mapSet CTimeSt.idle c.ctime a x }

/-- The frame engine of the cell at `a`. -/
def Chip.cmd (c : Chip) (a : Nat) : CCmdSt := mapGet CCmdSt.idle c.ccmd a

/-- Replace the frame engine of the cell at `a`. -/
def Chip.setCmd (c : Chip) (a : Nat) (x : CCmdSt) : Chip := { c with ccmd := mapSet CCmdSt.idle c.ccmd a x }

/-- The gate unit of the cell at `a`. -/
def Chip.gate (c : Chip) (a : Nat) : GateSt := mapGet GateSt.idle c.gates a

/-- Replace the gate unit of the cell at `a`. -/
def Chip.setGate (c : Chip) (a : Nat) (x : GateSt) : Chip := { c with gates := mapSet GateSt.idle c.gates a x }

/-- The converter of the cell at `a`. -/
def Chip.meas1 (c : Chip) (a : Nat) : MeasSt := mapGet MeasSt.idle c.meas a

/-- Replace the converter of the cell at `a`. -/
def Chip.setMeas (c : Chip) (a : Nat) (x : MeasSt) : Chip := { c with meas := mapSet MeasSt.idle c.meas a x }

/-- Correlator `k` of the cell at `a`. -/
def Chip.corr (c : Chip) (a k : Nat) : CorrSt := mapGet CorrSt.idle c.corrs (4 * a + k)

/-- Replace a correlator. -/
def Chip.setCorr (c : Chip) (a k : Nat) (x : CorrSt) : Chip :=
  { c with corrs := mapSet CorrSt.idle c.corrs (4 * a + k) x }

/-- The pack port of the cell at `a`. -/
def Chip.pack (c : Chip) (a : Nat) : PackSt := mapGet PackSt.idle c.packs a

/-- Replace the pack port of the cell at `a`. -/
def Chip.setPack (c : Chip) (a : Nat) (x : PackSt) : Chip := { c with packs := mapSet PackSt.idle c.packs a x }

/-- The ledger of the cell at `a`. -/
def Chip.ledger (c : Chip) (a : Nat) : LedgSt := mapGet LedgSt.idle c.ledgers a

/-- Replace the ledger of the cell at `a`. -/
def Chip.setLedger (c : Chip) (a : Nat) (x : LedgSt) : Chip := { c with ledgers := mapSet LedgSt.idle c.ledgers a x }

/-- CAN controller `n`: the pack bus of a cell below 16,384, then the station channels. -/
def Chip.can (c : Chip) (n : Nat) : CanSt := mapGet CanSt.idle c.cans n

/-- Replace a CAN controller. -/
def Chip.setCan (c : Chip) (n : Nat) (x : CanSt) : Chip := { c with cans := mapSet CanSt.idle c.cans n x }

/-- The battery-current slot of the cell at `a`. -/
def Chip.bc (c : Chip) (a : Nat) : BcSt := mapGet BcSt.idle c.bcs a

/-- Replace the battery-current slot of the cell at `a`. -/
def Chip.setBc (c : Chip) (a : Nat) (x : BcSt) : Chip := { c with bcs := mapSet BcSt.idle c.bcs a x }

/-- The captures of the cell at `a`. -/
def Chip.capture (c : Chip) (a : Nat) : CaptureSt := mapGet CaptureSt.idle c.captures a

/-- Replace the captures of the cell at `a`. -/
def Chip.setCapture (c : Chip) (a : Nat) (x : CaptureSt) : Chip :=
  { c with captures := mapSet CaptureSt.idle c.captures a x }

/-- What the WC8400 keeps of the pack at `a`. -/
def Chip.xch (c : Chip) (a : Nat) : XchgSt := mapGet XchgSt.idle c.xchs a

/-- Replace what the WC8400 keeps of the pack at `a`. -/
def Chip.setXch (c : Chip) (a : Nat) (x : XchgSt) : Chip := { c with xchs := mapSet XchgSt.idle c.xchs a x }

/-- Loop slot `j`. -/
def Chip.slot (c : Chip) (j : Nat) : SlotSt := mapGet SlotSt.idle c.loop.slots j

/-- Replace loop slot `j`. -/
def Chip.setSlot (c : Chip) (j : Nat) (x : SlotSt) : Chip :=
  { c with loop := { c.loop with slots := mapSet SlotSt.idle c.loop.slots j x } }

/-- The cell at `a` as its rank engine holds it. -/
def Chip.rcell (c : Chip) (a : Nat) : RankCell := mapGet RankCell.idle c.rcells a

/-- Replace what the rank engine holds of the cell at `a`. -/
def Chip.setRcell (c : Chip) (a : Nat) (x : RankCell) : Chip := { c with rcells := mapSet RankCell.idle c.rcells a x }

/-- The rank engine of region `r`. -/
def Chip.rreg (c : Chip) (r : Nat) : RegRank := mapGet RegRank.idle c.rregs r

/-- Replace the rank engine of region `r`. -/
def Chip.setRreg (c : Chip) (r : Nat) (x : RegRank) : Chip := { c with rregs := mapSet RegRank.idle c.rregs r x }

/-- The pack at `a` as the policy engine holds it. -/
def Chip.pol (c : Chip) (a : Nat) : PolSt := mapGet PolSt.idle c.pols a

/-- Replace what the policy engine holds of the pack at `a`. -/
def Chip.setPol (c : Chip) (a : Nat) (x : PolSt) : Chip := { c with pols := mapSet PolSt.idle c.pols a x }

/-- What is fused into the WN140 at `a`. -/
def Chip.part (c : Chip) (a : Nat) : CellPart := mapGet CellPart.blank c.parts a

/-- Is the part at `a` a WN140-S? Its fuses say so (R226). -/
def Chip.cellIsS (c : Chip) (a : Nat) : Bool := (c.part a).fused.sensor

/-- A value the specification leaves undefined: a fresh free value, and the count of those drawn so far.
(notes/assumptions: 2 DESIGN CHOICE) -/
def Chip.drawFree (c : Chip) : Nat × Chip := (Config.freeValue c.free, { c with free := c.free + 1 })

/-! ### The time base (R36) -/

/-- The time base as a count of nanoseconds since the TAI epoch. -/
def Chip.nowNs (c : Chip) : Nat := c.time.units / 2 ^ 40

/-- An instant of the time base on a count that the one step of R37 does not move. (notes/assumptions: 13 DESIGN CHOICE) -/
def Chip.runAt (c : Chip) (ns : Nat) : Nat := ((ns : Int) - c.time.leap).toNat

/-- The present on the count that the one step does not move: every duration is measured on it.
(notes/assumptions: 13 DESIGN CHOICE) -/
def Chip.runNs (c : Chip) : Nat := c.runAt c.nowNs

/-- The short stamp of the present (R6). -/
def Chip.stamp (c : Chip) : Nat := c.nowNs % 2 ^ 32

/-- `dt` Summit clock cycles pass: each advances the time base by 1 ns × (1 + RATE_ADJ × 2^-40) (R36). -/
def Chip.advance (c : Chip) (dt : Nat) : Chip :=
  { c with time := { c.time with units := c.time.units + (dt * ((2 ^ 40 : Int) + c.rdI Reg.Time.RATE_ADJ)).toNat } }

/-- The frame period P in ns: 10 µs, or 20 µs where the card sets it. -/
def Chip.period (c : Chip) : Nat := if c.on Reg.Time.FRAME_20US then 20000 else 10000

/-- The number of the frame in progress. -/
def Chip.frame (c : Chip) : Nat := c.rd Reg.Time.FRAME_NUM

/-! ### Interrupts (R392) -/

/-- The mask bit of MSI-X vector `v` of port `p`, in the vector control word of the MSI-X table.
(notes/assumptions: 24 PRESUMED) -/
def Reg.Msix.MASK (p v : Nat) : Fld := fldP p (0x80000 + 16 * v + 12) 0 1 1

/-- The pending bit of MSI-X vector `v` of port `p`, in the pending-bit array. -/
def Reg.Msix.PENDING (p v : Nat) : Fld := fldP p 0x81000 v 1 0

/-- Word `w` (0 to 2: message address low, high, message data) of MSI-X vector `v` of port `p`. -/
def Reg.Msix.WORD (p v w : Nat) : Fld := fldP p (0x80000 + 16 * v + 4 * w) 0 32 0

/-- TX2_LEN of station CAN channel `c`, [6:0] of its word +0x18 (R303): it takes the place of the cell layout's [4], so a
station channel's buffer 2 is never one-shot (notes/assumptions/14.md). (notes/assumptions: 14 DEDUCED) -/
def Reg.StCan.TX2_LEN (c : Nat) : Fld := fldX (16384 + c) 6 0 7 0

/-- One more in place `n` of a list of counts. -/
def countAt : Nat → List Nat → List Nat
  | _, [] => []
  | 0, x :: xs => (x + 1) :: xs
  | n + 1, x :: xs => x :: countAt n xs

/-- MSI-X vector `v` of port `p` signals: a message, or its pending bit while masked (R392). -/
def Chip.irq (c : Chip) (p v : Nat) : Chip :=
  if c.on (Reg.Msix.MASK p v) then c.set (Reg.Msix.PENDING p v)
  else c.setPort p { c.port p with irqs := countAt v (c.port p).irqs }

/-! ### Rights (R376, R377) -/

/-- The rights of a port, by their place in RIGHTS. -/
inductive Right where
  | order
  | protect
  | ledger
  | maint
  | observe
  deriving DecidableEq, Repr

/-- The bit of RIGHTS that holds a right. -/
def Right.bitNo : Right → Nat
  | .order => 0
  | .protect => 1
  | .ledger => 2
  | .maint => 3
  | .observe => 4

/-- Is the port ATTACHED? -/
def Chip.attached (c : Chip) (p : Nat) : Bool := decide (c.rd (Reg.Port.PORT_STATE p) = 2)

/-- Does the port hold a right now? Rights act only while it is ATTACHED (R377). -/
def Chip.has (c : Chip) (p : Nat) (r : Right) : Bool :=
  c.attached p && decide (bits (c.rd (Reg.Port.RIGHTS p)) r.bitNo 1 = 1)

/-- A write of port `p` is refused for rights: counted and flagged (R377, R392). -/
def Chip.refuse (c : Chip) (p : Nat) : Chip :=
  ((c.inc (Reg.Port.RIGHTS_REFUSED p)).set (Reg.Port.RIGHTS_SEEN p)).irq p 0

/-- A write of port `p` is refused for rights and its result field `f` shows the refusal as `v` (R377). -/
def Chip.refuseTo (c : Chip) (p : Nat) (f : Fld) (v : Nat) : Chip := (c.refuse p).wr f v

/-! ### Fault messages (R328, R331) -/

/-- The effective severity that an entry of the active table counts at: a capped one counts at 2 (R339). -/
def HeldFault.counts (e : HeldFault) : Nat := if e.capped then min 2 e.eff else e.eff

/-- The collector takes a message into the cycle in progress (R331). From a mismatch to the failover the outputs of the failed
plane raise no faults (R346). (notes/assumptions: 31 DEDUCED) -/
def Chip.receive (c : Chip) (m : Arrival) : Chip :=
  if c.recov.outputsBlocked && decide (m.level = 4 ∧ m.source = 0x110 + c.rd Reg.Die.ACTIVE_PLANE ∧ m.kind ≠ 0x72) then c
  else
  { c with faults := { c.faults with arrivals := c.faults.arrivals ++ [m] } }.inc Reg.Flt.FAULT_COUNT

/-- The WC8400 raises a fault: level, source, kind and detail of R329. -/
def Chip.raise (c : Chip) (level source kind detail : Nat) : Chip :=
  c.receive ⟨level, source, kind, detail % 2 ^ 32, false, false, false, 0, c.frame⟩

/-- As `raise`, at a severity that an earlier rule fixes for the occurrence (R330). -/
def Chip.raiseAt (c : Chip) (level source kind detail sev : Nat) : Chip :=
  c.receive ⟨level, source, kind, detail % 2 ^ 32, false, false, false, sev, c.frame⟩

/-- A lane or rope fault of rope `g`: it carries INJECTED in the frame of an accepted lane injection and the one after (R82). -/
def Chip.raiseRope (c : Chip) (g kind detail : Nat) : Chip :=
  let inj := match (c.rope g).injFrame with
    | some f => decide (c.frame = f ∨ c.frame = (f + 1) % 2 ^ 32)
    | none => false
  c.receive ⟨2, g, kind, detail % 2 ^ 32, inj, false, false, 0, c.frame⟩

/-- The cell at `a` queues a fault message (R102): dropped and counted when eight are queued. Level 1 messages carry
CELL_ADDR, level 2 its rope bits (R328). -/
def Chip.cellFault (c : Chip) (a level kind detail : Nat) (fenced injected : Bool) : Chip :=
  let q := (c.cmd a).faultQ
  let adr := c.rd (Reg.CId.CELL_ADDR a)
  let src := if level = 2 then adr / 64 else adr
  let msg := level * 2 ^ 60 + src * 2 ^ 44 + kind % 256 * 2 ^ 36 + bit injected * 2 ^ 35 + bit fenced * 2 ^ 32
    + detail % 2 ^ 32
  if q.length < 8 then
    let c1 := c.setCmd a { c.cmd a with faultQ := q ++ [msg] }
    let c2 := c1.inc (Reg.CFlt.FAULTS_RAISED a)
    let c3 := if injected then c2.inc (Reg.CFlt.FAULTS_INJECTED a) else c2
    let c4 := c3.wr (Reg.CFlt.QUEUE_DEPTH a) (q.length + 1)
    if q = [] then
      (((c4.set (Reg.CFlt.HEAD_VALID a)).add (Reg.CFlt.HEAD_T a) 1).wr (Reg.CFlt.HEAD_LO a) msg).wr
        (Reg.CFlt.HEAD_HI a) (msg / 2 ^ 32)
    else c4
  else c.inc (Reg.CFlt.QUEUE_DROPPED a)

/-- The head of a cell's fault queue is removed; the next one becomes the head with the other toggle (R102). -/
def Chip.dropFault (c : Chip) (a : Nat) : Chip :=
  match (c.cmd a).faultQ with
  | [] => c
  | _ :: rest =>
    let c1 := (c.setCmd a { c.cmd a with faultQ := rest }).wr (Reg.CFlt.QUEUE_DEPTH a) rest.length
    match rest with
    | [] => ((c1.clr (Reg.CFlt.HEAD_VALID a)).clr (Reg.CFlt.HEAD_LO a)).clr (Reg.CFlt.HEAD_HI a)
    | m :: _ =>
      ((c1.add (Reg.CFlt.HEAD_T a) 1).wr (Reg.CFlt.HEAD_LO a) m).wr (Reg.CFlt.HEAD_HI a) (m / 2 ^ 32)

/-! ### Streams (R387 to R392) -/

/-- The right a stream needs (R387). -/
def streamRight : Nat → Right
  | 1 => .ledger
  | 2 => .protect
  | _ => .observe

/-- Bytes of a little-endian number. -/
def leBytes : Nat → Nat → List Nat
  | 0, _ => []
  | n + 1, v => v % 256 :: leBytes n (v / 256)

/-- The number that little-endian bytes hold. -/
def leNat : List Nat → Nat
  | [] => 0
  | b :: bs => b % 256 + 256 * leNat bs

/-- `n` bytes from place `off`, as a little-endian number. -/
def leAt (bs : List Nat) (off n : Nat) : Nat := leNat ((bs.drop off).take n)

/-- The stream's buffer level in 16-byte units (R388). -/
def bufUnits (l : List StreamRec) : Nat := (l.map (fun r => r.len)).sum / 16

/-- A record is produced for stream `st` of port `p`: SEQ counts it; it enters the 16 KiB buffer, or is dropped whole and
counted when it finds the buffer full (R388). -/
def Chip.produce (c : Chip) (p st typ len : Nat) (payload : List Nat) : Chip :=
  if c.on (Reg.Strm.ACTIVE p st) then
    let x := c.stream p st
    if bufUnits x.buf * 16 + len ≤ 16384 then
      let r : StreamRec := ⟨x.seq, len, typ, x.gap, c.stamp, payload⟩
      let x' : StreamSt := { x with seq := (x.seq + 1) % 2 ^ 32, gap := 0, buf := x.buf ++ [r] }
      let u := bufUnits x'.buf
      let c1 := (c.setStream p st x').wr (Reg.Strm.BUF_LEVEL p st) u
      if c1.rd (Reg.Strm.BUF_PEAK p st) < u then c1.wr (Reg.Strm.BUF_PEAK p st) u else c1
    else
      let c1 := c.setStream p st { x with seq := (x.seq + 1) % 2 ^ 32, gap := satNat 32 (x.gap + 1) }
      ((c1.inc (Reg.Strm.RECORDS_DROPPED p st)).set (Reg.Port.DROP_SEEN p)).irq p 0
  else c

/-- A record is produced for the stream of every port that has it ACTIVE and holds its right. -/
def Chip.produceAll (c : Chip) (st typ len : Nat) (payload : List Nat) : Chip :=
  [0, 1, 2, 3].foldl (fun c p => if c.has p (streamRight st) then c.produce p st typ len payload else c) c

/-! ### Management entries (R104) -/

/-- The WC8400 queues a management entry for a cell; it goes out in a later frame of the cell's rope. -/
def Chip.sendEpoch (c : Chip) (op a reg data why epoch : Nat) : Chip :=
  let g := a / 64
  let x := c.rope g
  let m : MgmtReq := ⟨op, a, reg, epoch, data % 2 ^ 32, x.nextTag, why, 0, 0⟩
  c.setRope g { x with mgmtOut := x.mgmtOut ++ [m], nextTag := (x.nextTag + 1) % 256 }

/-- A management entry with the epoch the WC8400 holds for the position, or 0 before the cell has taken one (R105, R305). -/
def Chip.sendMgmt (c : Chip) (op a reg data why : Nat) : Chip :=
  c.sendEpoch op a reg data why (if (c.posn a).admState < 4 then 0 else (c.posn a).epochRec)

/-! ### Regions and addresses (R12) -/

/-- The region of a cell address. -/
def regionOf (a : Nat) : Nat := a / 2048

/-- Is region `r` blocked? -/
def Chip.blocked (c : Chip) (r : Nat) : Bool := decide (bits (c.rd Reg.Ord.BLOCKED) r 1 = 1)

/-- Is every region blocked? BLOCKED covers all eight regions. -/
def Chip.allBlocked (c : Chip) : Bool := decide (c.rd Reg.Ord.BLOCKED = 0xFF)

/-- The population of rope `g`, 0 if unused (R17). -/
def Chip.population (c : Chip) (g : Nat) : Nat := c.rd (Reg.Rope.POPULATION g)

/-- The mode of rope `g`: 0 CHAIN, 1 SPLIT, 2 TRAVERSE, 3 DOWN (R120). -/
def Chip.mode (c : Chip) (g : Nat) : Nat := c.rd (Reg.Rope.MODE g)

/-- The ropes that the card populates. -/
def Chip.populated (c : Chip) : List Nat := (List.range 256).filter (fun g => decide (0 < c.population g))

/-- The cell addresses of a rope's populated positions. -/
def Chip.ropeCells (c : Chip) (g : Nat) : List Nat := (List.range (c.population g)).map (fun k => 64 * g + k)

/-- Is the position fitted with a WN140-S? -/
def Chip.isSensor (c : Chip) (a : Nat) : Bool := decide (a ∈ c.card.sensors)

/-- The ropes of a region. -/
def Chip.regionRopes (c : Chip) (r : Nat) : List Nat :=
  ((List.range 32).map (fun k => 32 * r + k)).filter (fun g => decide (0 < c.population g))

/-- The cell addresses of a region's populated positions, in ascending order. -/
def Chip.regionCells (c : Chip) (r : Nat) : List Nat := (c.regionRopes r).flatMap c.ropeCells

end Sys2Proof.Machine
end

