-- ==== Sys2Proof/Machine/CellState.lean ====
section
/-! DEFINITION. The shared operations of a cell: its states (R210 to R212), its fences (R224), the sources of its gate target
and the execution of a change (R213 to R216), and the belay schedule (R217). Gate instants are counted in ticks of 0.8 ns
of cell time. -/

namespace Sys2Proof.Machine

/-! ### Small readings -/

/-- The cell's state code (R210). -/
def Chip.cellState (c : Chip) (a : Nat) : Nat := c.rd (Reg.CId.CELL_STATE a)

/-- Cell time in ticks of 0.8 ns. -/
def Chip.cellTick (c : Chip) (a : Nat) : Nat := (c.ct a).time * 5 / 1024

/-- Cell time moves on to a tick, never back. -/
def Chip.cellTo (c : Chip) (a tick : Nat) : Chip :=
  let t := c.ct a
  c.setCt a { t with time := max t.time ((tick * 1024 + 4) / 5) }

/-- `dt` of cell time (2^-8 ns) passes at the cell. -/
def Chip.cellAdvance (c : Chip) (a dt : Nat) : Chip :=
  let t := c.ct a
  c.setCt a { t with time := t.time + dt }

/-- The short stamp of the cell's present. -/
def Chip.cellStamp (c : Chip) (a : Nat) : Nat := (c.ct a).time / 256 % 2 ^ 32

/-- Is either lane port of the cell UP? -/
def Chip.anyPortUp (c : Chip) (a : Nat) : Bool := c.on (Reg.CLane.PORT_UP a 0) || c.on (Reg.CLane.PORT_UP a 1)

/-! ### Gates (R213 to R216) -/

/-- Targets (R97): 0 BYPASS, 1 INSERT_POS, 2 INSERT_NEG, 3 BLOCK. The gates on for a target, G1 in bit 0 to G4 in bit 3. -/
def gatePattern (target bypPattern : Nat) : Nat :=
  match target with
  | 0 => if bypPattern = 0 then 5 else 10
  | 1 => 9
  | 2 => 6
  | _ => 0

/-- MIN_DWELL = DEAD_TIME + MIN_PULSE, ticks (R216). -/
def Chip.minDwell (c : Chip) (a : Nat) : Nat := c.rd (Reg.Gate.DEAD_TIME a) + c.rd (Reg.Gate.MIN_PULSE a)

/-- The bits of `x` that are not in `y`, of four. -/
def bitsOff (x y : Nat) : Nat := (List.range 4).foldl (fun n k => if bits x k 1 = 1 ∧ bits y k 1 = 0 then n + 2 ^ k else n) 0

/-- A change to `target` executes at tick `t` (R214): gates that the new pattern does not hold turn off now, gates that it
newly holds turn on DEAD_TIME later. -/
def Chip.executeChange (c : Chip) (a target t : Nat) : Chip :=
  let old := c.rd (Reg.Gate.TARGET_NOW a)
  let pat := gatePattern target (c.rd (Reg.Gate.BYP_PATTERN a))
  let lev := c.rd (Reg.Gate.G_OUT a)
  let off := bitsOff lev pat
  let left := lev - off
  let x := c.gate a
  let x' : GateSt := { x with
    deferred := none, lastChange := some t
    offAt := (List.range 4).map (fun k => if bits off k 1 = 1 then t else x.offAt.getD k 0)
    turnOn := (List.range 4).map (fun k => decide (bits pat k 1 = 1 ∧ bits left k 1 = 0)) }
  let c1 := ((((c.setGate a x').wr (Reg.Gate.TARGET_NOW a) target).wr (Reg.Gate.G_OUT a) left).inc
    (Reg.Gate.EDGES_EXECUTED a)).wr (Reg.Gate.LAST_CHANGE a) (t * 4 / 5)
  let c2 := c1.clr (Reg.Gate.DEFER_PENDING a)
  if (old = 1 ∧ target = 2) ∨ (old = 2 ∧ target = 1) then c2.set (Reg.Gate.POLARITY_DIRECT a) else c2

/-- A change to `target` falls due at tick `t` (R216): executed, deferred, or, where it would leave the pattern in force as
it is, suppressed. BLOCK and local protection (`exempt`) execute at their instant. -/
def Chip.requestGate (c : Chip) (a target t : Nat) (exempt : Bool) : Chip :=
  if c.cellIsS a then c
  else
    let x := c.gate a
    if target = c.rd (Reg.Gate.TARGET_NOW a) then
      if x.deferred.isSome then
        ((((c.setGate a { x with deferred := none }).clr (Reg.Gate.DEFER_PENDING a)).inc
          (Reg.Gate.EDGE_SUPPRESSED a)).set (Reg.Gate.SUPPRESS_SEEN a))
      else c
    else
      let free := match x.lastChange with
        | none => true
        | some l => decide (l + c.minDwell a ≤ t)
      if exempt || decide (target = 3) || free then c.executeChange a target t
      else if (x.deferred.map (fun d => d.1)) = some target then c
      else
        let at0 := (x.lastChange.getD 0) + c.minDwell a
        (((c.setGate a { x with deferred := some (target, at0) }).set (Reg.Gate.DEFER_PENDING a)).inc
          (Reg.Gate.EDGE_DEFERRED a)).set (Reg.Gate.DEFER_SEEN a)

/-- The highest target source in force and its target (R216): hard fence, FENCED or BIVOUAC, capacitor hold, alignment,
then what the frame or the state asks for. -/
def Chip.gateSource (c : Chip) (a : Nat) : Nat × Nat :=
  if c.on (Reg.CId.FENCE_RECORD a) && c.on (Reg.CId.FENCE_HARD a) then
    (0, if c.rd (Reg.CId.FENCE_KIND a) = 0x05 then 3 else 0)
  else if c.cellState a = 8 ∨ c.cellState a = 7 then (1, 0)
  else if c.on (Reg.Prot.LOCAL_HOLD a) then (2, 0)
  else if (c.ct a).alignLost then (3, 0)
  else ((c.gate a).baseSource, (c.gate a).base)

/-- The highest source's target is asked for at the present tick (R216). -/
def Chip.retarget (c : Chip) (a : Nat) (exempt : Bool) : Chip :=
  let (src, tgt) := c.gateSource a
  (c.wr (Reg.Gate.SOURCE a) src).requestGate a tgt (c.cellTick a) exempt

/-- What the frame or the state asks for is set, and the highest source applies. -/
def Chip.setBase (c : Chip) (a src tgt : Nat) : Chip :=
  (c.setGate a { c.gate a with base := tgt, baseSource := src }).retarget a false

/-! ### States (R210 to R212) -/

/-- The target of a state where no higher source acts (R210): BLOCK up to ADMIT, BYPASS from READY. -/
def stateDefault (st : Nat) : Nat := if st ≤ 3 then 3 else 0

/-- PACK_EN goes low (R264): the port is OPEN and the meter stops with it (R272). -/
def Chip.openPort (c : Chip) (a : Nat) : Chip :=
  let st := c.rd (Reg.Idb.PACK_STATE a)
  let c1 := c.clr (Reg.Idb.PACK_EN_OUT a)
  let c2 := { c1.setPack a { c1.pack a with closing := none, openAsked := 0 } with
    ledgers := mapSet LedgSt.idle c1.ledgers a { c1.ledger a with last := none } }
  if st = 5 ∨ st = 6 then c2.wr (Reg.Idb.PACK_STATE a) 4 else c2

/-- A PORT_OPEN or DETACH that waited for the DC-DC stage to stop opens the port now (R264, R270). -/
def Chip.openIfAsked (c : Chip) (a : Nat) : Chip :=
  let k := (c.pack a).openAsked
  if k = 0 then c else if k = 1 then c.openPort a else (c.openPort a).wr (Reg.Idb.PACK_STATE a) 7

/-- The DC-DC stage stops and its slot with it: DCDC_EN falls, the slot is in MANUAL at 0 (R187, R210, R219). -/
def Chip.stopStage (c : Chip) (a : Nat) : Chip :=
  let c1 := (c.setCmd a { c.cmd a with dcdcEn := false, iBattRef := 0 }).wr (Reg.BcSlot.BC_MODE a) 2
  ((c1.setBc a { c1.bc a with out := 0, ref := 0 }).clr (Reg.BcSlot.BC_DUTY a)).clr (Reg.BcSlot.BC_REF a) |>.openIfAsked a

/-- Every correlator of the cell that is running is aborted: a window with an ABORT_COUNT, the others without (R245). -/
def Chip.stopCorrelators (c : Chip) (a : Nat) (phase : Nat) : Chip :=
  [0, 1, 2, 3].foldl (fun c k =>
    let x := c.corr a k
    if x.phase = 0 then c
    else
      let c1 := if x.phase = 3 then c.inc (Reg.Corr.ABORT_COUNT a k) else c
      c1.setCorr a k { x with phase := phase, aborted := x.aborted || decide (x.phase = 3) }) c

/-- The cell takes state `st` for a cause of LAST_CAUSE. Entering BIVOUAC, FENCED or OFF discards every held command (R212)
and stops the DC-DC stage; entering ADMIT clears the condition of R94. In ACTIVE, BELAY and where a BYPASS or BLOCK command makes
the change, what the frame asks for is loaded after it (R209). -/
def Chip.enterState (c : Chip) (a st cause : Nat) : Chip :=
  let c1 := (((c.wr (Reg.CId.PREV_STATE a) (c.cellState a)).wr (Reg.CId.CELL_STATE a) st).wr
    (Reg.CId.LAST_CAUSE a) cause).clr (Reg.CId.STATE_FRAMES a)
  let c2 :=
    if st = 7 ∨ st = 8 ∨ st = 0 then
      let x := c1.cmd a
      (c1.setCmd a { x with held := [], now := none, tb := none, gapFrames := 0, lastMode := none }).stopStage a
        |>.openPort a
    else c1
  let c2 := if st = 4 ∨ st = 5 ∨ st = 6 then c2 else c2.stopCorrelators a 0
  let c3 := if st = 3 then
      let c3 := (c2.inc (Reg.CId.ADMIT_COUNT a)).setCt a { c2.ct a with tagWritten := false, writtenA := false, writtenB := false }
      c3.setCmd a { c3.cmd a with lastEntry := (c3.ct a).time }
    else if st = 7 then c2.inc (Reg.CId.BIVOUAC_COUNT a) else c2
  let g := c3.gate a
  let g' : GateSt := if st = 5 ∨ st = 6 ∨ cause = 5 then g else { g with base := stateDefault st, baseSource := 7, schedule := [] }
  ((c3.setGate a g').wrB (Reg.Gate.BELAY_RUN a) (decide (st = 6))).retarget a false

/-- WAKE to LISTEN: a port UP and the cell PLL locked (R211). A WN140 whose fuses failed their check is held in WAKE (R409). -/
def Chip.wakeToListen (c : Chip) (a : Nat) : Chip :=
  if c.cellState a = 1 ∧ c.anyPortUp a = true ∧ (c.ct a).pll.locked = true ∧ (c.part a).fuseBad = false then
    c.enterState a 2 1 else c

/-- LISTEN to WAKE: no port UP, or PLL lock cleared (R211). -/
def Chip.listenToWake (c : Chip) (a : Nat) : Chip :=
  if c.cellState a = 2 ∧ (c.anyPortUp a = false ∨ (c.ct a).pll.locked = false) then c.enterState a 1 1 else c

/-- The cell goes to BIVOUAC, unless it is FENCED, which outranks it (R211). -/
def Chip.toBivouac (c : Chip) (a cause : Nat) : Chip := if c.cellState a = 8 then c else c.enterState a 7 cause

/-! ### Fences (R224) -/

/-- The fence record is written: kind of the cause, hard or soft (R224). -/
def Chip.writeFence (c : Chip) (a kind : Nat) (hard : Bool) : Chip :=
  (((c.set (Reg.CId.FENCE_RECORD a)).wrB (Reg.CId.FENCE_HARD a) hard).clr (Reg.CId.OFF_SINCE_FENCE a)).wr
    (Reg.CId.FENCE_KIND a) kind

/-- A hard fence of kind `kind` (R224): LOCAL_HOLD is set; in WAKE and LISTEN the record alone holds the gates; elsewhere
the cell is FENCED, a soft record giving way to the hard one. A hard record in force stays, but for a desaturation, which keeps
the gates off from then on (R220). -/
def Chip.hardFence (c : Chip) (a kind : Nat) : Chip :=
  let already := c.on (Reg.CId.FENCE_RECORD a) && c.on (Reg.CId.FENCE_HARD a)
  let c1 := if already && decide (kind ≠ 0x05) then c else c.writeFence a kind true
  let c2 := (c1.set (Reg.Prot.LOCAL_HOLD a)).stopStage a
  let st := c.cellState a
  if st ≤ 2 ∨ (st = 8 ∧ already = true) then c2.retarget a true else (c2.enterState a 8 12).retarget a true

/-- A soft fence (R224): the record is written, unless a hard one is held already, and the cell is FENCED. -/
def Chip.softFence (c : Chip) (a : Nat) : Chip :=
  (if c.on (Reg.CId.FENCE_RECORD a) then c else c.writeFence a 0 false).enterState a 8 11

/-! ### Belay schedule (R112, R113, R217) -/

/-- Is a short angle inside the window (R112)? -/
def inWindow (a lo hi : Nat) : Bool := decide ((a + 65536 - lo % 65536) % 65536 < (hi + 65536 - lo % 65536) % 65536)

/-- The target of a belay polarity inside its window (R112). -/
def belayTarget (pol : Nat) : Nat := if pol = 1 then 1 else if pol = 2 then 2 else 0

/-- The first tick after `x0` (48-bit angle) at which the short angle passes boundary `b`, at `rate` per ns: going up it
reaches b, going down it falls below b. None where the channel stands. -/
def crossTick (x0 : Nat) (rate : Int) (b : Nat) : Option Nat :=
  let d := if 0 < rate then (b * 2 ^ 32 + 2 ^ 48 - x0 % 2 ^ 48) % 2 ^ 48 else (x0 % 2 ^ 48 + 2 ^ 48 - b * 2 ^ 32) % 2 ^ 48
  let r := 4 * rate.natAbs
  if rate = 0 then none else if 0 < rate then some ((d * 5 + r - 1) / r) else some (d * 5 / r + 1)

/-- The belay schedule from an angle for `ticks` ticks (R217): the target at the start, and the changes after it, with a
target interval shorter than MIN_PULSE between two changes merged into the target before it. -/
def belaySchedule (x0 : Nat) (rate : Int) (lo hi pol minPulse ticks : Nat) : Nat × List (Nat × Nat) :=
  let tin := belayTarget pol
  let start := if inWindow (x0 / 2 ^ 32 % 65536) lo hi then tin else 0
  if lo = hi then (0, [])
  else
    let up := decide (0 < rate)
    let enter := crossTick x0 rate (if up then lo else hi)
    let leave := crossTick x0 rate (if up then hi else lo)
    let ev := (enter.toList.map (fun t => (t, tin))) ++ (leave.toList.map (fun t => (t, 0)))
    let ev := ev.filter (fun e => decide (0 < e.1 ∧ e.1 < ticks))
    let ev := match ev with
      | [x, y] => if x.1 ≤ y.1 then [x, y] else [y, x]
      | l => l
    match ev with
    | [x, y] => if y.1 - x.1 < minPulse then (start, []) else (start, [x, y])
    | l => (start, l)

/-- The schedule of the cell's belay plan from its present instant to the end of the frame is loaded (R217). A channel that
is not VALID, or waits for its ROT word, gives BYPASS. -/
def Chip.loadBelay (c : Chip) (a : Nat) : Chip :=
  let t := c.ct a
  let ch := c.rd (Reg.Gate.PLAN_CH a)
  let tick0 := c.cellTick a
  let ns := (t.time - t.frameStart) / 256
  let rate := t.rates.getD ch 0
  let x0 := (((t.est.getD ch 0 * 65536 + t.estFrac.getD ch 0 : Nat) : Int) + rate * ns) % (2 ^ 48 : Int) |>.toNat
  let frameTicks := if t.frame20 then 25000 else 12500
  let ok := t.valid.getD ch false && !t.waitRot.getD ch false
  let (start, ev) := if ok then
      belaySchedule x0 rate (c.rd (Reg.Gate.PLAN_LO a)) (c.rd (Reg.Gate.PLAN_HI a)) (c.rd (Reg.Gate.PLAN_POL a))
        (c.rd (Reg.Gate.MIN_PULSE a)) (frameTicks - ns * 5 / 4)
    else (0, [])
  (c.setGate a { c.gate a with schedule := ev.map (fun e => (tick0 + e.1, e.2)) }).setBase a 6 start

end Sys2Proof.Machine
end

