-- ==== Sys2Proof/Machine/Sha.lean ====
section
/-! DEFINITION. SHA-256 (FIPS 180-4) and HMAC-SHA-256 (FIPS 198-1) on lists of bytes, for the MACs of the ledger (R277,
R283) and the key hash of the card (R398). -/

namespace Sys2Proof.Machine

/-- 32-bit rotation to the right. -/
def rotr (x n : Nat) : Nat := (x / 2 ^ n + x * 2 ^ (32 - n)) % 2 ^ 32

/-- The 64 round constants of FIPS 180-4 §4.2.2. -/
def shaK : List Nat :=
  [0x428a2f98, 0x71374491, 0xb5c0fbcf, 0xe9b5dba5, 0x3956c25b, 0x59f111f1, 0x923f82a4, 0xab1c5ed5,
   0xd807aa98, 0x12835b01, 0x243185be, 0x550c7dc3, 0x72be5d74, 0x80deb1fe, 0x9bdc06a7, 0xc19bf174,
   0xe49b69c1, 0xefbe4786, 0x0fc19dc6, 0x240ca1cc, 0x2de92c6f, 0x4a7484aa, 0x5cb0a9dc, 0x76f988da,
   0x983e5152, 0xa831c66d, 0xb00327c8, 0xbf597fc7, 0xc6e00bf3, 0xd5a79147, 0x06ca6351, 0x14292967] ++
  [0x27b70a85, 0x2e1b2138, 0x4d2c6dfc, 0x53380d13, 0x650a7354, 0x766a0abb, 0x81c2c92e, 0x92722c85,
   0xa2bfe8a1, 0xa81a664b, 0xc24b8b70, 0xc76c51a3, 0xd192e819, 0xd6990624, 0xf40e3585, 0x106aa070,
   0x19a4c116, 0x1e376c08, 0x2748774c, 0x34b0bcb5, 0x391c0cb3, 0x4ed8aa4a, 0x5b9cca4f, 0x682e6ff3,
   0x748f82ee, 0x78a5636f, 0x84c87814, 0x8cc70208, 0x90befffa, 0xa4506ceb, 0xbef9a3f7, 0xc67178f2]

/-- The eight initial hash values. -/
def shaInit : List Nat :=
  [0x6a09e667, 0xbb67ae85, 0x3c6ef372, 0xa54ff53a, 0x510e527f, 0x9b05688c, 0x1f83d9ab, 0x5be0cd19]

/-- One more word of the message schedule; `w` holds the last sixteen, oldest first. -/
def shaSchedule (w : List Nat) : Nat :=
  let x15 := w.getD 1 0
  let x2 := w.getD 14 0
  let s0 := rotr x15 7 ^^^ rotr x15 18 ^^^ (x15 / 2 ^ 3)
  let s1 := rotr x2 17 ^^^ rotr x2 19 ^^^ (x2 / 2 ^ 10)
  (w.getD 0 0 + s0 + w.getD 9 0 + s1) % 2 ^ 32

/-- One round on the eight working words. -/
def shaRound (v : List Nat) (k w : Nat) : List Nat :=
  match v with
  | [a, b, c, d, e, f, g, h] =>
    let s1 := rotr e 6 ^^^ rotr e 11 ^^^ rotr e 25
    let ch := (e &&& f) ^^^ ((2 ^ 32 - 1 - e) &&& g)
    let t1 := (h + s1 + ch + k + w) % 2 ^ 32
    let s0 := rotr a 2 ^^^ rotr a 13 ^^^ rotr a 22
    let maj := (a &&& b) ^^^ (a &&& c) ^^^ (b &&& c)
    [(t1 + s0 + maj) % 2 ^ 32, a, b, c, (d + t1) % 2 ^ 32, e, f, g]
  | v => v

/-- The 64 rounds over a block, the schedule rolling along. -/
def shaRounds (v w : List Nat) : List Nat → List Nat
  | [] => v
  | k :: ks => shaRounds (shaRound v k (w.getD 0 0)) (w.drop 1 ++ [shaSchedule w]) ks

/-- A big-endian number from bytes, and the bytes of one. -/
def beNat (bs : List Nat) : Nat := bs.foldl (fun n b => n * 256 + b % 256) 0
@[inherit_doc beNat] def beBytes (n v : Nat) : List Nat := ((List.range n).map (fun k => v / 256 ^ k % 256)).reverse

/-- The hash state after the blocks of a padded message, `n` of them. -/
def shaBlocks (h : List Nat) (msg : List Nat) : Nat → List Nat
  | 0 => h
  | n + 1 =>
    let w := (List.range 16).map (fun k => beNat ((msg.drop (4 * k)).take 4))
    let v := shaRounds h w shaK
    shaBlocks ((h.zip v).map (fun p => (p.1 + p.2) % 2 ^ 32)) (msg.drop 64) n

/-- SHA-256. -/
def sha256 (msg : List Nat) : List Nat :=
  let pad := (119 - msg.length % 64) % 64
  let m := msg ++ [128] ++ List.replicate pad 0 ++ beBytes 8 (8 * msg.length)
  (shaBlocks shaInit m (m.length / 64)).flatMap (beBytes 4)

/-- HMAC-SHA-256 under a key of 32 bytes. -/
def hmac256 (key msg : List Nat) : List Nat :=
  let k := key ++ List.replicate 32 0
  sha256 (k.map (· ^^^ 0x5c) ++ sha256 (k.map (· ^^^ 0x36) ++ msg))

end Sys2Proof.Machine
end

