-- ==== Sys2Proof/Machine/Ledger.lean ====
section
/-! DEFINITION. The lease ledger of a cell (chapter 12): metering, rows and their MAC, the two-phase commit, and the commands
LEDGER_COMMIT, LEDGER_PERIODIC, LEDGER_COMMIT_DONE, VDD33_EARLY_WARNING, VDD33_WARNING_CLEAR and ROW_FETCH. -/

namespace Sys2Proof.Machine

/-! ### Bulk records (R108, R109) -/

/-- The cell queues a bulk record; REC_SEQ counts new records. -/
def Chip.queueBulk (c : Chip) (a typ : Nat) (payload : List Nat) : Chip :=
  let x := c.cmd a
  c.setCmd a { x with bulkQ := x.bulkQ ++ [⟨typ, x.recSeq, payload⟩], recSeq := (x.recSeq + 1) % 256 }

/-- The records of a type that wait for an acknowledgement. -/
def Chip.bulkHeld (c : Chip) (a typ : Nat) : Nat := ((c.cmd a).bulkQ.filter (fun r => r.typ = typ)).length

/-! ### Records of the identity memories (R254 to R256) -/

/-- CRC-16 of R96 over one byte, most significant bit first: `n` bits of it still to go. -/
def crcBits (crc : Nat) : Nat → Nat
  | 0 => crc
  | n + 1 => crcBits (if crc / 32768 % 2 = 1 then (crc * 2 % 65536) ^^^ 0x1021 else crc * 2 % 65536) n

/-- The CRC-16 of R96: polynomial 0x1021, from 0xFFFF, most significant bit first, no final inversion. -/
def crc16 (bs : List Nat) : Nat := bs.foldl (fun crc b => crcBits (crc ^^^ (b % 256 * 256)) 8) 0xFFFF

/-- Does the block of `n` bytes at `off` end in its own CRC-16, little-endian? -/
def crcOk (bs : List Nat) (off n : Nat) : Bool :=
  decide ((bs.drop off).length ≥ n) && decide (leAt bs (off + n - 2) 2 = crc16 ((bs.drop off).take (n - 2)))

/-- The bytes with those from `off` on replaced. -/
def patch (bs : List Nat) (off : Nat) (new : List Nat) : List Nat :=
  let full := bs ++ List.replicate (off + new.length - bs.length) 0
  full.take off ++ new ++ full.drop (off + new.length)

/-- Which of two copies is current (R255): the valid one with the newer 16-bit sequence, or the only valid one. -/
def currentCopy (validA validB : Bool) (seqA seqB : Nat) : Option Nat :=
  match validA, validB with
  | false, false => none
  | true, false => some 0
  | false, true => some 1
  | true, true => if 0 < signedDiff 16 seqB seqA then some 1 else some 0

/-- The current summary slot of a pack record, 0 A or 1 B (R255). -/
def currentSlot (rec0 : List Nat) : Option Nat :=
  currentCopy (crcOk rec0 128 64) (crcOk rec0 192 64) (leAt rec0 128 2) (leAt rec0 192 2)

/-- Bytes `off` to `off + n − 1` of the current summary slot; 0 where there is none. -/
def slotField (rec0 : List Nat) (off n : Nat) : Nat :=
  match currentSlot rec0 with
  | none => 0
  | some k => leAt rec0 (128 + 64 * k + off) n

/-- PACK_UID of a pack record. -/
def packUid (rec0 : List Nat) : Nat := leAt rec0 4 8

/-! ### Metering (R272 to R274) -/

/-- v × i × dt in units of 2^-32 Wh, rounded towards zero; v and i binary32, dt in 2^-8 ns.
(notes/assumptions: 33 DESIGN CHOICE) -/
def energy (v i dt : Nat) : Int :=
  match (f32.dec v).mul (f32.dec i) with
  | .fin neg n d => (if neg then -1 else 1 : Int) * (n * dt * 2 ^ 32 / (d * 256 * 3600000000000) : Nat)
  | _ => Config.nanAsInt

/-- The live counts as the registers show them (R274). -/
def Chip.syncWh (c : Chip) (a : Nat) : Chip :=
  let l := c.ledger a
  let ch := l.accCh / 2 ^ 32
  let di := l.accDis / 2 ^ 32
  (((c.wr (Reg.Ring.CHARGE_WH_LO a) ch).wr (Reg.Ring.DISCHARGE_WH_LO a) di).wr (Reg.Ring.CHARGE_WH_HI a) (ch / 2 ^ 32)).wr
    (Reg.Ring.DISCHARGE_WH_HI a) (di / 2 ^ 32)

/-- A metering gap (R272). (notes/assumptions: 33 DESIGN CHOICE) -/
def Chip.meterGap (c : Chip) (a : Nat) : Chip := (c.inc (Reg.Ring.METER_GAP_COUNT a)).set (Reg.Ring.METER_GAP_SEEN a)

/-- METER_STEP (R272): a clean I_PACK conversion sampled at `t` with value `i`; `v` is the V_PACK value sampled within the
last P, if there is one. `period` is P in 2^-8 ns. The first sample of a closed port that finds none has no last value to take:
a free value. (notes/assumptions: 2 DESIGN CHOICE, 33 DESIGN CHOICE) -/
def Chip.meterStep (c : Chip) (a t i period : Nat) (v : Option Nat) : Chip :=
  if c.rd (Reg.Idb.PACK_STATE a) ≠ 6 then c
  else
    let l := c.ledger a
    match l.last with
    | none =>
      match v with
      | some x => c.setLedger a { l with last := some (x, i, t) }
      | none =>
        let (x, c1) := (c.meterGap a).drawFree
        c1.setLedger a { l with last := some (x % 2 ^ 32, i, t) }
    | some (vl, il, tp) =>
      let c1 := if v.isNone then c.meterGap a else c
      let c2 := if 2 * period < t - tp then c1.meterGap a else c1
      let e := energy vl il (t - tp)
      let l' := c2.ledger a
      let l1 := if 0 < e then { l' with accCh := l'.accCh + e.toNat } else { l' with accDis := l'.accDis + (-e).toNat }
      (c2.setLedger a { l1 with last := some (v.getD vl, i, t) }).syncWh a

/-- The counts of a pack that opens (R274): those of its current summary slot, or 0. The fraction below 1 Wh is kept. -/
def Chip.loadCounts (c : Chip) (a : Nat) : Chip :=
  let l := c.ledger a
  let r := (c.pack a).packRec
  (c.setLedger a { l with
    accCh := slotField r 14 6 * 2 ^ 32 + l.accCh % 2 ^ 32
    accDis := slotField r 20 6 * 2 ^ 32 + l.accDis % 2 ^ 32 }).syncWh a

/-! ### Rows and commits (R276 to R281) -/

/-- Seconds of cell time. -/
def Chip.cellSeconds (c : Chip) (a : Nat) : Nat := (c.ct a).time / 256000000000

/-- The first eight bytes of an HMAC under the die's ledger key (R277); of a part without a key the rules state none. -/
def Chip.mac (c : Chip) (a : Nat) (msg : List Nat) : List Nat :=
  match (c.part a).fused.key with
  | none => leBytes 8 (Config.keylessMac msg)
  | some k => (hmac256 k msg).take 8

/-- A ledger row (R276, R277). (notes/assumptions: 33 DESIGN CHOICE) -/
def Chip.makeRow (c : Chip) (a event seq uid : Nat) : List Nat :=
  let l := c.ledger a
  let body := leBytes 4 (event * 2 ^ 28 + seq % 2 ^ 28) ++ leBytes 4 (c.cellSeconds a) ++ leBytes 6 (l.accCh / 2 ^ 32)
    ++ leBytes 6 (l.accDis / 2 ^ 32) ++ leBytes 4 uid
  body ++ c.mac a (leBytes 8 (c.part a).fused.dieUid ++ leBytes 8 uid ++ body)

/-- The committed head. -/
def LedgSt.head (l : LedgSt) : Option HeadCopy := if l.headIsB then l.headB else l.headA

/-- The EVENT of a merged commit (R281): POWER_FAIL, PACK_LOST, PACK_CHANGED in that order, else the lowest code but 0, else 0. -/
def mergeEvent (l : List Nat) : Nat :=
  if 4 ∈ l then 4 else if 5 ∈ l then 5 else if 6 ∈ l then 6
  else ([1, 2, 3, 7, 8, 9].find? (fun e => decide (e ∈ l))).getD 0

/-- A commit starts: the row of `event` for the next ring index (R278, R279). -/
def Chip.beginCommit (c : Chip) (a event : Nat) : Chip :=
  let l := c.ledger a
  let (seq, idx) := match l.head with
    | none => (0, 0)
    | some h => ((h.seq + 1) % 2 ^ 28, (h.index + 1) % 240)
  let uid := match l.openUid with
    | some (u, _) => u
    | none => packUid (c.pack a).packRec
  let cm : Commit := ⟨event, c.makeRow a event seq uid, uid, idx, seq, !l.headIsB && l.headA.isSome, false⟩
  (c.setLedger a { l with commit := some cm, pfPending := l.pfPending || decide (event = 4) }).set (Reg.Ring.COMMIT_BUSY a)

/-- A commit is requested (R278, R281): never by a WN140-S (R226), only while the last valid cairn block had TIME_VALID,
a PERIODIC or DAILY row only while a pack is open; merged while a commit runs. -/
def Chip.requestCommit (c : Chip) (a event : Nat) : Chip :=
  let l := c.ledger a
  if c.cellIsS a || !(c.ct a).timeValid then c
  else if (event = 0 ∨ event = 8) ∧ l.openUid = none then c
  else if l.commit.isSome then
    c.setLedger a { l with merged := l.merged ++ [event], pfPending := l.pfPending || decide (event = 4) }
  else c.beginCommit a event

/-- The tenure after a committed row (R282). -/
def tenureAfter (open0 : Option (Nat × Nat)) (cm : Commit) : Option (Nat × Nat) :=
  if cm.event = 1 then some (cm.uid, cm.seq)
  else if cm.event = 2 ∨ cm.event = 5 ∨ cm.event = 6 then none else open0

/-- SUMMARY_WRITE (R255, R283): the slot that is not current, with the counts of the last committed row, and HEALTH and RR of the
current slot; without a current slot HEALTH is empty and RR is a free value. None where the identity bus is busy.
(notes/assumptions: 2 DESIGN CHOICE, 34 DEDUCED) -/
def Chip.startSummary (c : Chip) (a : Nat) : Option Chip :=
  let p := c.pack a
  let l := c.ledger a
  if p.job.isSome || p.busHeld then none
  else
    let cur := currentSlot p.packRec
    let slot := match cur with | some 0 => 1 | _ => 0
    let seq := match cur with | none => 0 | some _ => (slotField p.packRec 0 2 + 1) % 65536
    let row := match l.head with
      | none => []
      | some h => (mapGet ([], 0) l.ring h.index).1
    let soc := match findKey 1 p.targets with
      | some t => if (c.ct a).time ≤ t.at0 + t.timeout then (fToInt t.value 100 0 65535).toNat else 0xFFFF
      | none => 0xFFFF
    let (rr, c1) := match cur with
      | none => c.drawFree
      | some _ => (slotField p.packRec 12 2, c)
    let health := match cur with
      | none => 0xFFFF
      | some _ => slotField p.packRec 10 2
    let body := leBytes 2 seq ++ leBytes 6 (leAt row 4 4) ++ leBytes 2 soc ++ leBytes 2 health ++ leBytes 2 rr ++ leBytes 6 (leAt row 8 6) ++ leBytes 6 (leAt row 14 6)
      ++ leBytes 8 (c.part a).fused.dieUid ++ leBytes 4 (leAt row 0 4) ++ leBytes 2 (c.rd (Reg.CId.ROUTE_TAG a))
    let slot62 := body ++ c.mac a (leBytes 8 (packUid p.packRec) ++ body) ++ List.replicate 14 0
    some (c1.setPack a { p with job := some (.summary slot (slot62 ++ leBytes 2 (crc16 slot62)) false) })

/-- A committed row (R279, R282, R284): ring, HEAD copy, head registers, context, the bulk record, and the summary that
follows a DAILY row (R283). -/
def Chip.commitDone (c : Chip) (a : Nat) (cm : Commit) : Chip :=
  let l := c.ledger a
  let h : HeadCopy := ⟨cm.seq, cm.index⟩
  let l1 : LedgSt := { l with
    ring := mapSet ([], 0) l.ring cm.index (cm.row, cm.uid)
    headA := if cm.copyB then l.headA else some h
    headB := if cm.copyB then some h else l.headB
    headIsB := cm.copyB
    openUid := tenureAfter l.openUid cm
    commit := none
    pfPending := l.pfPending && decide (cm.event ≠ 4)
    restartDue := l.restartDue && decide (cm.event ≠ 7) }
  let c1 := (((c.setLedger a l1).wr (Reg.Ring.RING_HEAD a) cm.index).wr (Reg.Ring.ROW_SEQ_HEAD a) cm.seq).clr
    (Reg.Ring.COMMIT_BUSY a)
  let c2 := c1.wrB (Reg.Ring.PACK_OPEN a) l1.openUid.isSome
  let c3 := if c2.bulkHeld a 2 < 16 then c2.queueBulk a 2 (cm.row ++ leBytes 8 cm.uid) else c2
  if cm.event = 8 then (c3.startSummary a).getD c3 else c3

/-- The merged request that waits begins (R281). -/
def Chip.nextCommit (c : Chip) (a : Nat) : Chip :=
  let l := c.ledger a
  if l.merged = [] ∨ l.commit.isSome then c
  else (c.setLedger a { l with merged := [] }).beginCommit a (mergeEvent l.merged)

/-- LEDGER_COMMIT (R278): PACK_CLOSE in DETACH_READY, else COMMAND. -/
def Chip.ledgerCommit (c : Chip) (a : Nat) : Chip :=
  c.requestCommit a (if c.rd (Reg.Idb.PACK_STATE a) = 7 then 2 else 3)

/-- LEDGER_COMMIT (R278): the command's LEDGER_COMMIT at its execution frame start. -/
def execLedgerCommit (a : CellAddr) (s : State) : Host.Outcome State Fault Refusal := s.run fun c => c.ledgerCommit a

/-- LEDGER_PERIODIC (R278, R283): a cell TAI second that is a multiple of COMMIT_PERIOD. -/
def execLedgerPeriodic (a : CellAddr) (dt : Nat) (s : State) : Host.Outcome State Fault Refusal :=
  s.run fun c0 =>
    let c := c0.cellAdvance a dt
    let sec := c.cellSeconds a
    if c.rd (Reg.Ring.COMMIT_PERIOD a) ≠ 0 ∧ sec % c.rd (Reg.Ring.COMMIT_PERIOD a) = 0 then
      c.requestCommit a (if slotField (c.pack a).packRec 2 6 + 86400 ≤ sec then 8 else 0)
    else c

/-- LEDGER_COMMIT_DONE (R279): the read-back of a phase. A failure is retried once; the second one leaves the previous head.
(notes/assumptions: 33 DESIGN CHOICE) -/
def execLedgerCommitDone (a : CellAddr) (phase2 ok : Bool) (s : State) : Host.Outcome State Fault Refusal :=
  s.run fun c =>
    let l := c.ledger a
    match l.commit with
    | none => c
    | some cm =>
      if ok then
        if phase2 then (c.commitDone a cm).nextCommit a
        else c.setLedger a { l with commit := some { cm with retried := false } }
      else if cm.retried then
        (((c.setLedger a { l with commit := none }).clr (Reg.Ring.COMMIT_BUSY a)).set (Reg.Ring.COMMIT_FAILED a)).cellFault a
          1 0x16 (if phase2 then 2 else 1) false false |>.nextCommit a
      else c.setLedger a { l with commit := some { cm with retried := true } }

/-- VDD33_EARLY_WARNING (R278, R439): a POWER_FAIL row, and nothing else. -/
def execVdd33EarlyWarning (a : CellAddr) (dt : Nat) (s : State) : Host.Outcome State Fault Refusal :=
  s.run fun c => (c.cellAdvance a dt).requestCommit a 4

/-- VDD33_WARNING_CLEAR (R451): the cell runs on; the POWER_FAIL row stands. -/
def execVdd33WarningClear (a : CellAddr) (s : State) : Host.Outcome State Fault Refusal :=
  s.run fun c =>
    let l := c.ledger a
    if l.commit.isSome || decide (4 ∈ l.merged) then c else c.setLedger a { l with pfPending := false }

/-- Where a ROW_SEQ stands in the ring (R288): 1 valid with its row, 2 gone, 3 not yet. -/
def LedgSt.lookup (l : LedgSt) (seq : Nat) : Nat × List Nat × Nat :=
  match l.head with
  | none => (3, [], 0)
  | some h =>
    let d := signedDiff 28 seq h.seq
    if 0 < d then (3, [], 0)
    else if d ≤ -240 then (2, [], 0)
    else
      let idx := (h.index + 240 - (-d).toNat) % 240
      let (row, uid) := mapGet ([], 0) l.ring idx
      let overwritten := match l.commit with | some cm => decide (cm.index = idx) | none => false
      if row = [] ∨ leAt row 0 4 % 2 ^ 28 ≠ seq % 2 ^ 28 ∨ overwritten = true then (2, [], 0) else (1, row, uid)

/-- ROW_FETCH (R288): the row ROW_SEL into ROW_W0–ROW_W7; 4 where the store does not read back.
(notes/assumptions: 33 DESIGN CHOICE) -/
def Chip.rowFetch (c : Chip) (a : Nat) (storeOk : Bool) : Chip :=
  if c.cellIsS a then c
  else if !storeOk then c.wr (Reg.Ring.ROW_RESULT a) 4
  else
    let (res, row, _) := (c.ledger a).lookup (c.rd (Reg.Ring.ROW_SEL a))
    let c1 := c.wr (Reg.Ring.ROW_RESULT a) res
    if res = 1 then (List.range 8).foldl (fun c j => c.wr (Reg.Ring.ROW_W a j) (leAt row (4 * j) 4)) c1 else c1

/-- ROW_FETCH (R288). -/
def execRowFetch (a : CellAddr) (storeOk : Bool) (s : State) : Host.Outcome State Fault Refusal :=
  s.run fun c => c.rowFetch a storeOk

/-- LEDGER_HEAD_RECOVERY (R279, R280) at power-up: the valid HEAD copy with the newer ROW_SEQ whose row carries that ROW_SEQ
and a correct MAC; else the other one, with RING_FAULT. `okA` and `okB` say whether the copies' CRCs pass. -/
def Chip.recoverHead (c : Chip) (a : Nat) (okA okB : Bool) : Chip :=
  let l := c.ledger a
  let verifies (h : HeadCopy) : Bool :=
    let (row, uid) := mapGet ([], 0) l.ring h.index
    decide (leAt row 0 4 % 2 ^ 28 = h.seq) && decide (row.drop 24 = c.mac a (leBytes 8 (c.part a).fused.dieUid ++ leBytes 8 uid
      ++ row.take 24))
  let ca := if okA then l.headA else none
  let cb := if okB then l.headB else none
  let bFirst := match ca, cb with
    | some x, some y => decide (0 < signedDiff 28 y.seq x.seq)
    | none, some _ => true
    | _, none => false
  let first := if bFirst then cb else ca
  let other := if bFirst then ca else cb
  let (isB, h, bad) := match first with
    | none => (false, none, false)
    | some x => if verifies x then (bFirst, some x, false) else (!bFirst, other, true)
  let l1 : LedgSt := { l with
    headA := if isB then ca else h, headB := if isB then h else cb, headIsB := isB, commit := none, merged := [], last := none,
    accCh := 0, accDis := 0, pfPending := false, restartDue := l.openUid.isSome, summaryDue := false }
  let row := match h with
    | none => []
    | some x => (mapGet ([], 0) l.ring x.index).1
  let l2 := if row = [] then l1 else { l1 with accCh := leAt row 8 6 * 2 ^ 32, accDis := leAt row 14 6 * 2 ^ 32 }
  let c1 := (((c.setLedger a l2).wrB (Reg.Ring.RING_FAULT a) bad).wrB (Reg.Ring.PF_ROW_MISSED a) l.pfPending).wrB
    (Reg.Ring.PACK_OPEN a) l.openUid.isSome
  let c2 := match h with
    | none => c1
    | some x => (c1.wr (Reg.Ring.RING_HEAD a) x.index).wr (Reg.Ring.ROW_SEQ_HEAD a) x.seq
  c2.syncWh a

end Sys2Proof.Machine
end

