-- ==== Sys2Proof/Machine/Codec.lean ====
section
/-! DEFINITION. The bytes of the rope: CRC-16 (R96), cairn block (R89), command and report slots (R96, R97, R99), management
entries (R104), bulk record headers (R108) and echo blocks (R106), written and read. -/

namespace Sys2Proof.Machine

/-! ### Sealed bytes -/

/-- Bytes with their CRC behind them, little-endian. -/
def sealCrc (l : List Nat) : List Nat := l ++ leBytes 2 (crc16 l)

/-- Does the CRC in the two bytes at place `n` fit the bytes before it from place `from0` on? -/
def sealedOk (l : List Nat) (from0 n : Nat) : Bool := decide (leAt l n 2 = crc16 ((l.take n).drop from0))

/-! ### The cairn block (R89) -/

/-- The fields of a cairn block. `tid` holds VALID (bits 3:0), FRAME_20US, TIME_VALID, EPOCH_RESET and FROM_B (bit 7). -/
structure Cairn where
  valid : Nat
  frame20 : Bool
  timeValid : Bool
  epochReset : Bool
  fromB : Bool
  frameNum : Nat
  launchEarly : Nat
  angleReset : Nat
  angleLo : List Nat
  rate24 : List Nat
  rot : Nat
  deriving DecidableEq, Repr

/-- The 32 bytes of a cairn block. -/
def Cairn.bytes (x : Cairn) : List Nat :=
  let b1 := x.valid % 16 + 16 * bit x.frame20 + 32 * bit x.timeValid + 64 * bit x.epochReset + 128 * bit x.fromB
  let body := b1 :: leBytes 4 x.frameNum ++ leBytes 2 (x.launchEarly % 4096 + 4096 * (x.angleReset % 16)) ++
    ([0, 1, 2, 3].flatMap (fun n => leBytes 2 (x.angleLo.getD n 0))) ++
    ([0, 1, 2, 3].flatMap (fun n => leBytes 3 (x.rate24.getD n 0))) ++ leBytes 2 x.rot
  0x78 :: sealCrc body

/-- A cairn block read from its bytes; none where HDR_CRC fails (R93). -/
def Cairn.read (l : List Nat) : Option Cairn :=
  if l.length = 32 ∧ sealedOk l 1 30 = true then
    let b1 := l.getD 1 0
    some {
      valid := b1 % 16, frame20 := decide (bits b1 4 1 = 1), timeValid := decide (bits b1 5 1 = 1)
      epochReset := decide (bits b1 6 1 = 1), fromB := decide (bits b1 7 1 = 1), frameNum := leAt l 2 4
      launchEarly := leAt l 6 2 % 4096, angleReset := leAt l 6 2 / 4096
      angleLo := [0, 1, 2, 3].map (fun n => leAt l (8 + 2 * n) 2)
      rate24 := [0, 1, 2, 3].map (fun n => leAt l (16 + 3 * n) 3), rot := leAt l 28 2 }
  else none

/-! ### Command slots (R96, R97) -/

/-- The 32 bytes of a command slot. -/
def CmdBlk.bytes (x : CmdBlk) : List Nat :=
  sealCrc (leBytes 2 x.epoch ++ leBytes 2 x.seq ++ [x.mode % 256, x.initial % 4 + 4 * (x.nEdges % 8)] ++
    ([0, 1, 2, 3].flatMap (fun n =>
      let e := x.edges.getD n (0, 0)
      leBytes 2 (e.1 % 16384 + 16384 * (e.2 % 4)))) ++
    leBytes 2 x.belayLo ++ leBytes 2 x.belayHi ++
    [x.belayPol % 4 + 4 * (x.belayCh % 4), x.convPlan % 256] ++ leBytes 2 (ofSigned 16 x.iBattRef) ++
    [x.corrEn % 16 + 16 * (x.corrRestart % 16), x.edgeExt % 16,
     bit x.ackValid + 2 * (x.ackT % 2) + 4 * bit x.ledgerCommit + 8 * bit x.dcdcEn + 16 * bit x.bulkAckValid, x.bulkAck % 256] ++
    leBytes 2 (x.target % 16384 + 32768 * bit x.empty) ++ leBytes 2 (x.bulkAt % 1024 + 1024 * (x.bulkBlocks % 64)))

/-- A command slot read from its bytes; none where the CRC fails. `target` keeps bit 14, which makes a command malformed. -/
def CmdBlk.read (l : List Nat) : Option CmdBlk :=
  if l.length = 32 ∧ sealedOk l 0 30 = true then
    let ext := l.getD 23 0 % 16
    let flags := l.getD 24 0
    let on (k : Nat) := decide (bits flags k 1 = 1)
    let ta := leAt l 26 2
    some {
      epoch := leAt l 0 2, seq := leAt l 2 2, mode := l.getD 4 0, initial := l.getD 5 0 % 4, nEdges := bits (l.getD 5 0) 2 3
      edges := [0, 1, 2, 3].map (fun n =>
        let v := leAt l (6 + 2 * n) 2
        (v % 16384 + 16384 * bits ext n 1, v / 16384))
      edgeExt := ext, belayLo := leAt l 14 2, belayHi := leAt l 16 2, belayPol := l.getD 18 0 % 4
      belayCh := bits (l.getD 18 0) 2 2, convPlan := l.getD 19 0, iBattRef := toSigned 16 (leAt l 20 2)
      corrEn := l.getD 22 0 % 16, corrRestart := l.getD 22 0 / 16, ackValid := on 0, ackT := bits flags 1 1
      ledgerCommit := on 2, dcdcEn := on 3, bulkAckValid := on 4, bulkAck := l.getD 25 0, target := ta % 32768
      empty := decide (32768 ≤ ta), bulkAt := leAt l 28 2 % 1024, bulkBlocks := leAt l 28 2 / 1024 }
  else none

/-- Do the used offsets rise strictly, each below `limit` (R97)? -/
def offsetsOk (limit : Nat) : List (Nat × Nat) → Bool
  | [] => true
  | [e] => decide (e.1 < limit)
  | e :: f :: l => decide (e.1 < limit) && decide (e.1 < f.1) && offsetsOk limit (f :: l)

/-- Is a command well formed at a frame of `ticks` ticks of 0.8 ns (R97)? -/
def CmdBlk.wellFormed (x : CmdBlk) (ticks : Nat) : Bool :=
  decide (x.mode < 3) && decide (x.belayPol < 3) && decide (x.nEdges ≤ 4) && offsetsOk ticks (x.edges.take x.nEdges) &&
    (decide (ticks ≠ 12500) || decide (x.edgeExt = 0)) && decide (bits x.target 14 1 = 0)

/-- A slot without a command (R96, R111). -/
def CmdBlk.none0 (a : Nat) : CmdBlk where
  epoch := 0
  seq := 0
  mode := 0
  initial := 0
  nEdges := 0
  edges := [(0, 0), (0, 0), (0, 0), (0, 0)]
  edgeExt := 0
  belayLo := 0
  belayHi := 0
  belayPol := 0
  belayCh := 0
  convPlan := 0
  iBattRef := 0
  corrEn := 0
  corrRestart := 0
  ackValid := false
  ackT := 0
  ledgerCommit := false
  dcdcEn := false
  bulkAckValid := false
  bulkAck := 0
  target := a
  empty := true
  bulkAt := 0
  bulkBlocks := 0

/-! ### Report slots (R99) -/

/-- A report: EPOCH_ECHO, status word, the measurement bytes 4 to 17 as seven values, FAULT_MSG and the rotating word. -/
structure Report where
  epoch : Nat
  status : Nat
  meas : List Nat
  msg : Nat
  rot : Nat
  deriving DecidableEq, Repr

/-- The 32 bytes of a report slot. -/
def Report.bytes (x : Report) : List Nat :=
  sealCrc (leBytes 2 x.epoch ++ leBytes 2 x.status ++ ([0, 1, 2, 3, 4, 5, 6].flatMap (fun n => leBytes 2 (x.meas.getD n 0))) ++
    leBytes 8 x.msg ++ leBytes 4 x.rot)

/-- A report read from its bytes; none where the CRC fails. -/
def Report.read (l : List Nat) : Option Report :=
  if l.length = 32 ∧ sealedOk l 0 30 = true then
    some ⟨leAt l 0 2, leAt l 2 2, [0, 1, 2, 3, 4, 5, 6].map (fun n => leAt l (4 + 2 * n) 2), leAt l 18 8, leAt l 26 4⟩
  else none

/-! ### Management entries (R104) -/

/-- A management entry on the rope. -/
structure MgmtEntry where
  op : Nat
  tag : Nat
  addr : Nat
  reg : Nat
  result : Nat
  epoch : Nat
  data : Nat
  deriving DecidableEq, Repr

/-- The 16 bytes of an entry. -/
def MgmtEntry.bytes (x : MgmtEntry) : List Nat :=
  sealCrc ([x.op % 16, x.tag % 256] ++ leBytes 2 (x.addr % 16384) ++ [x.reg % 256, x.result % 256] ++ leBytes 2 x.epoch ++
    leBytes 4 x.data ++ [0, 0])

/-- An entry read from its bytes; none where the CRC fails. -/
def MgmtEntry.read (l : List Nat) : Option MgmtEntry :=
  if l.length = 16 ∧ sealedOk l 0 14 = true then
    some ⟨l.getD 0 0 % 16, l.getD 1 0, leAt l 2 2 % 16384, l.getD 4 0, l.getD 5 0, leAt l 6 2, leAt l 8 4⟩
  else none

/-! ### Bulk records (R108) and echoes (R106) -/

/-- The header block of a bulk record, whose CRC covers header bytes 0 to 5 and the payload. -/
def bulkHeader (a : Nat) (r : BulkRec) : List Nat :=
  let h := leBytes 2 (a % 16384) ++ [r.typ % 256, r.payload.length / 8 % 64, r.seq % 256, 0]
  h ++ leBytes 2 (crc16 (h ++ r.payload))

/-- A record read from the bytes of its blocks: source, and record; none where the CRC fails or a block is missing. -/
def readBulk (l : List Nat) : Option (Nat × BulkRec) :=
  let n := l.getD 3 0
  let pay := (l.drop 8).take (8 * n)
  if l.length = 8 + 8 * n ∧ leAt l 6 2 = crc16 (l.take 6 ++ pay) then some (leAt l 0 2 % 16384, ⟨l.getD 2 0, l.getD 4 0, pay⟩)
  else none

/-- An echo block: address, tag and WAIT. -/
structure Echo where
  addr : Nat
  tag : Nat
  wait : Nat
  deriving DecidableEq, Repr

/-- The eight bytes of an echo block. -/
def Echo.bytes (x : Echo) : List Nat := sealCrc (leBytes 2 (x.addr % 16384 + 32768) ++ [x.tag % 256] ++ leBytes 3 x.wait)

/-- An echo block read from its bytes; none where the CRC fails. -/
def Echo.read (l : List Nat) : Option Echo :=
  if l.length = 8 ∧ sealedOk l 0 6 = true ∧ bits (l.getD 1 0) 6 2 = 2 then some ⟨leAt l 0 2 % 16384, l.getD 2 0, leAt l 3 3⟩ else none

end Sys2Proof.Machine
end

