-- ==== Sys2Proof/Machine/BcSlot.lean ====
section
/-! DEFINITION. The battery-current slot of a cell (R187, R188) and the commands DCDC_EN and BC_FEEDBACK_LOST. All values are
binary32 patterns. -/

namespace Sys2Proof.Machine

/-! ### Calibrated values (R242) -/

/-- The calibrated value of a clean code of input `ain`, binary32: (16 × CODE − CAL_OFS) / 16 × CAL_GAIN (R242). -/
def MeasSt.value (m : MeasSt) (ain : Nat) (code : Int) : Nat :=
  fMul (fRat (16 * code - toSigned 16 (mapGet 0 m.ofs ain)) 16) (mapGet 0 m.gain ain)

/-- The input of role `k` (R240): 0 V_CAP, 1 I_CELL, 2 V_PACK, 3 I_PACK, 4 I_DCDC, 5 T_STAGE, 6 T_PACK. -/
def Chip.role (c : Chip) (a k : Nat) : Nat := bits (c.rd (Reg.Adc.ROLE_MAP a)) (4 * k) 4

/-- The calibrated value of the latest clean conversion of role `k`, if there was one. -/
def Chip.roleValue (c : Chip) (a k : Nat) : Option Nat :=
  let m := c.meas1 a
  (findKey (c.role a k) m.latest).map (fun x => m.value (c.role a k) x.code)

/-! ### The slot -/

/-- A duty register, in units of 2^-16, as binary32. -/
def dutyOf (n : Nat) : Nat := fRat n 65536

/-- FF: the buck ratio V_PACK / V_CAP from the latest conversions (R187); 0 before both have been converted. -/
def Chip.bcFeedforward (c : Chip) (a : Nat) : Nat :=
  match c.roleValue a 2, c.roleValue a 0 with
  | some vp, some vc => fDiv vp vc
  | _, _ => 0

/-- The reference slews to I_BATT_REF at BC_REF_SLEW for `ticks` of 0.8 ns; 0 is no limit (R187). -/
def slewRef (ref : Int) (target : Int) (slew ticks : Nat) : Int :=
  let t := target * 1250
  let step : Int := (slew * ticks : Nat)
  if slew = 0 then t else ref + clampInt (-step) step (t - ref)

/-- The slewed reference in amperes. -/
def bcRefAmps (ref : Int) : Nat := fRat ref 25000

/-- The duty and reference registers follow the slot. -/
def Chip.syncBc (c : Chip) (a : Nat) : Chip :=
  let x := c.bc a
  (c.wr (Reg.BcSlot.BC_DUTY a) (fToInt x.out 65536 0 65535).toNat).wrI (Reg.BcSlot.BC_REF a) (x.ref.tdiv 1250)

/-- The slot's integrator stays within ±BC_DUTY_MAX: R187 names no I_MIN or I_MAX of its own (notes/assumptions/16.md).
(notes/assumptions: 16 DESIGN CHOICE) -/
def Chip.bcClampInteg (c : Chip) (a v : Nat) : Nat :=
  let hi := dutyOf (c.rd (Reg.BcSlot.BC_DUTY_MAX a))
  fClamp (hi + 2 ^ 31) hi v

/-- The output: clamped to the duty limits, with BC_SAT. -/
def Chip.bcOutput (c : Chip) (a u : Nat) : Chip :=
  let o := fClamp (dutyOf (c.rd (Reg.BcSlot.BC_DUTY_MIN a))) (dutyOf (c.rd (Reg.BcSlot.BC_DUTY_MAX a))) u
  ((c.setBc a { c.bc a with out := o }).wrB (Reg.BcSlot.BC_SAT a) (decide (o ≠ u))).syncBc a

/-- The slot's run at a pack-current conversion (R187, R188): `fb` is the clean value, `none` a conversion flagged OVR or
SETTLING. Outside AUTO nothing switches and the output is 0. -/
def Chip.bcRun (c : Chip) (a tick : Nat) (fb : Option Nat) : Chip :=
  if c.rd (Reg.BcSlot.BC_MODE a) ≠ 1 then c
  else
    let x := c.bc a
    let ticks := tick - x.lastRun.getD tick
    let h := fRat (ticks * 8) 10000000000
    let ref := slewRef x.ref (c.cmd a).iBattRef (c.rd (Reg.BcSlot.BC_REF_SLEW a)) ticks
    let kp := c.rd (Reg.BcSlot.BC_KP a)
    let ff := c.bcFeedforward a
    let integ := c.rd (Reg.BcSlot.BC_INTEG a)
    let x1 : BcSt := { x with ref := ref, lastRun := some tick }
    match fb with
    | some v =>
      let e := fSub (bcRefAmps ref) v
      let p := fMul kp e
      let di := fMul (fMul (c.rd (Reg.BcSlot.BC_KI a)) h) e
      let u0 := fAdd (fAdd (fAdd p integ) di) ff
      let hold := (fLt (dutyOf (c.rd (Reg.BcSlot.BC_DUTY_MAX a))) u0 && fLt 0 di)
        || (fLt u0 (dutyOf (c.rd (Reg.BcSlot.BC_DUTY_MIN a))) && fLt di 0)
      let i1 := c.bcClampInteg a (fAdd integ (if hold then 0 else di))
      (((c.setBc a { x1 with eLast := e, agedRuns := 0 }).wr (Reg.BcSlot.BC_INTEG a) i1).clr (Reg.BcSlot.BC_AGED a)).bcOutput
        a (fAdd (fAdd p i1) ff)
    | none =>
      ((c.setBc a { x1 with agedRuns := x.agedRuns + 1 }).set (Reg.BcSlot.BC_AGED a)).bcOutput a
        (fAdd (fAdd (fMul kp x.eLast) integ) ff)

/-- The rising edge of DCDC_EN (R187): AUTO, with the preset of R175 to FF, the duty that matches the present voltages. -/
def Chip.startStage (c : Chip) (a : Nat) : Chip :=
  let x := c.bc a
  let ff := c.bcFeedforward a
  let e0 := match c.roleValue a 3 with
    | some v => fSub (bcRefAmps x.ref) v
    | none => x.eLast
  let want := fSub (fSub ff (fMul (c.rd (Reg.BcSlot.BC_KP a)) e0)) ff
  let i0 := c.bcClampInteg a want
  let c1 := ((c.wr (Reg.BcSlot.BC_MODE a) 1).wr (Reg.BcSlot.BC_INTEG a) i0).clr (Reg.BcSlot.BC_AGED a)
  let c2 := if i0 = want then c1 else c1.set (Reg.BcSlot.BC_PRESET_CLAMPED a)
  (c2.setBc a { x with out := ff, eLast := e0, agedRuns := 0, lastRun := some (c.cellTick a) }).bcOutput a ff

/-- DCDC_EN takes a value at an execution frame start (R98, R187, R264): it acts only in CLOSED; its fall, or a 1 outside
CLOSED, leaves the stage stopped, and an order that waited for the stop opens the port. -/
def Chip.setDcdc (c : Chip) (a : Nat) (en : Bool) (ref : Int) : Chip :=
  if c.cellIsS a then c
  else
    let was := (c.cmd a).dcdcEn
    let c1 := c.setCmd a { c.cmd a with dcdcEn := en, iBattRef := ref }
    if en && decide (c.rd (Reg.Idb.PACK_STATE a) = 6) then
      if was && decide (c.rd (Reg.BcSlot.BC_MODE a) = 1) then c1 else if was then c1 else c1.startStage a
    else
      let c2 := c.stopStage a
      c2.setCmd a { c2.cmd a with dcdcEn := en, iBattRef := ref }

/-- DCDC_EN (R98, R187): the command's DCDC_EN and I_BATT_REF at its execution frame start; it acts where commands are
executed (R210). -/
def execDcdcEn (a : CellAddr) (en : Bool) (ref : Int) (s : State) : Host.Outcome State Fault Refusal :=
  s.run fun c => if 4 ≤ c.cellState a ∧ c.cellState a ≤ 6 then c.setDcdc a en (satSigned 16 ref) else c

/-- BC_FEEDBACK_LOST (R188): no fresh conversion for BC_LOST_LIMIT runs; the stage stops until the next rising edge. -/
def execBcFeedbackLost (a : CellAddr) (s : State) : Host.Outcome State Fault Refusal :=
  s.run fun c =>
    let limit := c.rd (Reg.BcSlot.BC_LOST_LIMIT a)
    if c.rd (Reg.BcSlot.BC_MODE a) = 1 ∧ (if limit = 0 then 1 else limit) ≤ (c.bc a).agedRuns then
      let c1 := (c.wr (Reg.BcSlot.BC_MODE a) 2).set (Reg.BcSlot.BC_FB_LOST a)
      ((c1.setBc a { c.bc a with out := 0 }).syncBc a).cellFault a 1 0x0A 0 false false |>.openIfAsked a
    else c

end Sys2Proof.Machine
end

