-- ==== Sys2Proof/Machine/Operands.lean ====
section
/-! DEFINITION. The operand forms: what a lane operand and a CAN controller operand name in the state. A port, a cell address, a rope,
a region, a Ridge, a slot and a descriptor are plain numbers, and stand for themselves. -/

namespace Sys2Proof.Machine

/-- The number of a controller. -/
def busNum : BusIx → Nat
  | .cell a => a.val
  | .station n => 16384 + n.val

/-- Is it a station channel? -/
def isStation (n : Nat) : Bool := decide (16384 ≤ n)

/-- The rope and the hop of a lane (chapter 03): hop h joins element h - 1 to element h. -/
def Chip.hopOf (c : Chip) : LaneRef → Nat × Nat
  | .ridge g e => (g, if e.val = 0 then 0 else c.population g)
  | .cell a b => (a / 64, a.val % 64 + b.val)

end Sys2Proof.Machine
end

