-- ==== Sys2Proof/Machine/Flags.lean ====
section
/-! DEFINITION. The flag and lock computations: the rule by which every phase-locked function declares lock (R45), the
late-action rule (R62, R63), the write-one-to-clear flags (R5) and the redundancy flags (R22). -/

namespace Sys2Proof.Machine

/-- One reference cycle of R45 as far as its counters go: `none` is a missing event, `some e` an error of magnitude e. The
declarations themselves are the commands LOCK_GAINED, LOCK_LOST and REFERENCE_LOST. -/
def lockCycle (l : Lock) (lockWin unlockWin : Nat) : Option Nat → Lock
  | none => { l with missing := l.missing + 1 }
  | some e =>
    if l.locked then { l with missing := 0, outCount := if unlockWin < e then l.outCount + 1 else 0 }
    else { l with missing := 0, inCount := if e ≤ lockWin then l.inCount + 1 else 0 }

/-- Lock is declared: the function is unlocked and has counted LOCK_N cycles inside its window (R45). -/
def lockGain (l : Lock) (lockN : Nat) : Option Lock :=
  if l.locked = false ∧ lockN ≤ l.inCount then some { l with locked := true, outCount := 0 } else none

/-- Lock is cleared: the function is locked and has counted UNLOCK_M cycles outside its window (R45). -/
def lockLose (l : Lock) (unlockM : Nat) : Option Lock :=
  if l.locked = true ∧ unlockM ≤ l.outCount then some { l with locked := false, inCount := 0 } else none

/-- The reference is lost: LOSS_CYCLES consecutive events are missing (R45). -/
def lockMiss (l : Lock) (lossCycles : Nat) : Option Lock :=
  if lossCycles ≤ l.missing then some { l with locked := false, inCount := 0 } else none

/-- What the late-action rule does with a dated action (R62). -/
inductive Late where
  | schedule
  | executeNow
  | executeLate
  | discard
  | hold
  deriving DecidableEq, Repr

/-- R62: the rule for a signed distance to the date and a window. An action at its date executes.
(notes/assumptions: 15 DEDUCED) -/
def lateRule (d : Int) (window : Nat) : Late :=
  if 0 < d then .schedule else if d = 0 then .executeNow
  else if -(window : Int) ≤ d then .executeLate else .discard

/-- R63: the rule for an angle date, at the channel's present angle and RATE (2^-16 ac/ns). (notes/assumptions: 15 DEDUCED) -/
def lateAngle (date nowA : Nat) (rate : Int) (windowNs : Nat) : Late :=
  if rate = 0 then .hold
  else
    let d := signedDiff 32 date nowA
    lateRule (if rate < 0 then -d else d) (windowNs * rate.natAbs / 2 ^ 16)

/-- A W1C field after a write of `v` (R5). -/
def w1c (old v : Nat) (width : Nat) : Nat := (List.range width).foldl
  (fun acc k => if bits old k 1 = 1 ∧ bits v k 1 = 0 then acc + 2 ^ k else acc) 0

/-- REDUNDANCY, LOW and BELOW_MIN from an insertable count (R22). -/
def redundancyFlags (nInsertable nMin warn : Nat) : Int × Bool × Bool :=
  let red : Int := (nInsertable : Int) - nMin
  (red, decide (red < warn), decide (red < 0))

end Sys2Proof.Machine
end

