-- ==== Sys2Proof/Machine/Sched.lean ====
section
/-! DEFINITION. The Summit task scheduler (chapter 08): instances, dependences, dispatch, flows, cancellation and the
decision trace. A cycle is 1 ns of the time base. -/

namespace Sys2Proof.Machine

/-- A truth value chooses between two machines. -/
def Chip.when (c : Chip) (b : Bool) (f : Chip → Chip) : Chip := if b then f c else c

/-- The level-4 source index of the active control plane (R26). -/
def Chip.planeIx (c : Chip) : Nat := 0x110 + c.rd Reg.Die.ACTIVE_PLANE

/-- The card's descriptor `d`. -/
def Chip.taskDesc (c : Chip) (d : Nat) : Option TaskDesc := c.card.tasks.descs.find? (fun x => decide (x.index = d))

/-- The successors of a descriptor (R190). -/
def CardTasks.succs (t : CardTasks) (x : TaskDesc) : List Nat := ((t.succTable.drop x.succBase).take x.succN).map (· % 1024)

/-- The kind of a flow; flow 0 is PARALLEL (R197). -/
def CardTasks.flowKind (t : CardTasks) (f : Nat) : Nat := if f = 0 then 0 else mapGet 0 t.flows f

/-- The descriptors reachable from `front` through successor entries, in ascending order; `fuel` bounds the depth (R191). -/
def CardTasks.reach (t : CardTasks) (seen front : List Nat) : Nat → List Nat
  | 0 => seen
  | fuel + 1 =>
    let next := (front.flatMap (fun d => match t.descs.find? (fun x => decide (x.index = d)) with
      | none => []
      | some x => t.succs x)).eraseDups.filter (fun d => !seen.contains d)
    if next = [] then seen else t.reach (seen ++ next) next fuel

/-- The instance of descriptor `d` in flight, if any (R192: at most one). -/
def Chip.inst (c : Chip) (d : Nat) : Option TaskInst := c.sched.insts.find? (fun i => decide (i.desc = d))

/-- Replace the instance of the same descriptor. -/
def Chip.setInst (c : Chip) (x : TaskInst) : Chip :=
  { c with sched := { c.sched with insts := c.sched.insts.map (fun i => if i.desc = x.desc then x else i) } }

/-- IN_FLIGHT and its peak after a change (R193). -/
def Chip.syncFlight (c : Chip) : Chip :=
  let n := c.sched.insts.length
  let c1 := c.wr Reg.Trace.IN_FLIGHT n
  if c.rd Reg.Trace.IN_FLIGHT_PEAK < n then c1.wr Reg.Trace.IN_FLIGHT_PEAK n else c1

/-! ### The decision trace (R206, R207) -/

/-- Is a flow's routine trace on? -/
def Chip.flowTraced (c : Chip) (flow : Nat) : Bool :=
  decide (bits (c.rd Reg.Trace.TRACE_FLOW_MASK_LO + c.rd Reg.Trace.TRACE_FLOW_MASK_HI * 2 ^ 32) flow 1 = 1)

/-- An entry is written to the trace and to the TRACE stream of every host with OBSERVE rights; a frozen trace takes none. -/
def Chip.traceRow (c : Chip) (task flow event engine prio : Nat) (same : Bool) (serial detail : Nat) : Chip :=
  if c.on Reg.Trace.FROZEN || decide (c.sched.postLeft = some 0) then c
  else
    let row : TraceRow := ⟨c.stamp, task % 1024 + flow % 64 * 1024 + event * 2 ^ 16 + engine * 2 ^ 24 + prio * 2 ^ 28
      + bit same * 2 ^ 31, serial % 65536 + detail % 65536 * 65536, c.frame⟩
    let seq := c.rd Reg.Trace.TRACE_HEAD
    let c1 := { c with sched := { c.sched with
      trace := (row :: c.sched.trace).take 8192, postLeft := c.sched.postLeft.map (· - 1) } }
    (c1.inc Reg.Trace.TRACE_HEAD).produceAll 3 0x03 48
      (leBytes 4 row.w0 ++ leBytes 4 row.w1 ++ leBytes 4 row.w2 ++ leBytes 4 row.w3 ++ leBytes 4 seq ++ List.replicate 12 0)

/-- The trace entry of an instance. -/
def Chip.traceInst (c : Chip) (i : TaskInst) (event engine : Nat) (same : Bool) (detail : Nat) : Chip :=
  match c.taskDesc i.desc with
  | none => c
  | some d => c.traceRow i.desc d.flow event engine d.priority same i.serial detail

/-- A routine entry: only where the flow mask has its flow. -/
def Chip.traceRoutine (c : Chip) (i : TaskInst) (event engine detail : Nat) : Chip :=
  match c.taskDesc i.desc with
  | none => c
  | some d => if c.flowTraced d.flow then c.traceRow i.desc d.flow event engine d.priority false i.serial detail else c

/-! ### Activation (R191 to R194) -/

/-- The statistics of a descriptor. -/
def Chip.taskStats (c : Chip) (d : Nat) : TaskStats := mapGet TaskStats.zero c.sched.stats d

/-- Replace the statistics of a descriptor. -/
def Chip.setTaskStats (c : Chip) (d : Nat) (x : TaskStats) : Chip :=
  { c with sched := { c.sched with stats := mapSet TaskStats.zero c.sched.stats d x } }

/-- Instances of the descriptors `ds` come into flight as one group; the head takes `arg` and `date`. -/
def Chip.spawn (c : Chip) (ds : List Nat) (head : Nat) (arg : Option Nat) (date : Option (Option Nat × Nat)) : Chip :=
  let g := (c.sched.serial + 1) % 65536
  (ds.foldl (fun c d =>
    match c.taskDesc d with
    | none => c
    | some x =>
      let ser := (c.sched.serial + 1) % 65536
      let i : TaskInst := ⟨d, ser, g, if d = head then arg.getD x.arg else x.arg, .waiting, x.depCount, c.runNs,
        if d = head then date else none, 0, 15, 0, 0, false, false, false⟩
      { c with sched := { c.sched with insts := c.sched.insts ++ [i], serial := ser } }) c).syncFlight

/-- The FRAME descriptors due in frame `n` (R190, R191). -/
def Chip.frameDue (c : Chip) (n : Nat) : List Nat :=
  (c.card.tasks.descs.filter (fun x => !x.event && decide (x.div ≠ 0) && decide ((n + x.div - x.phase % x.div) % x.div = 0))).map
    (·.index) |> sortOrd (fun a b => decide (a ≤ b))

/-- FRAME_GROUP_ACTIVATE (R191): one instance of each FRAME descriptor due, as one group. -/
def Chip.activateFrame (c : Chip) : Chip :=
  let ds := (c.frameDue c.frame).filter (fun d => (c.inst d).isNone)
  let c1 := c.spawn ds 1024 none none
  let c2 := if c.rd Reg.Trace.TRACE_FLOW_MASK_LO = 0 ∧ c.rd Reg.Trace.TRACE_FLOW_MASK_HI = 0 then c1
    else c1.traceRow 0 0 0x0A 15 0 false 0 ds.length
  (c2.sched.insts.filter (fun i => ds.contains i.desc)).foldl (fun c i => c.traceRoutine i 0x01 15 ds.length) c2

/-- An EVENT activation is refused (R194): counted, traced, and raised as "scheduler full". -/
def Chip.refuseTask (c : Chip) (d cause : Nat) : Chip :=
  let fl := match c.taskDesc d with | some x => (x.flow, x.priority) | none => (0, 0)
  let c1 := c.traceRow d fl.1 0x08 15 fl.2 false 0 cause
  if cause ≤ 2 then
    ((c1.inc Reg.Trace.ACT_REFUSED_COUNT).set Reg.Trace.REFUSED_SEEN).raise 4 c.planeIx 0x79 d
  else c1

/-- An EVENT group is activated from its head or refused whole (R191, R192, R194): 0 activated, 1 full, 2 already in
flight, 4 no such EVENT descriptor. -/
def Chip.activate (c : Chip) (d : Nat) (arg : Option Nat) (date : Option (Option Nat × Nat)) : Nat × Chip :=
  match c.taskDesc d with
  | none => (4, c)
  | some x =>
    if !x.event then (4, c)
    else
      let ds := sortOrd (fun a b => decide (a ≤ b)) (c.card.tasks.reach [d] [d] 128)
      if ds.any (fun k => (c.inst k).isSome) then (2, c.refuseTask d 2)
      else
        let evs := (c.sched.insts.filter (fun i => match c.taskDesc i.desc with | some y => y.event | none => false)).length
        if 128 < evs + ds.length then (1, c.refuseTask d 1)
        else
          let c1 := c.spawn ds d arg date
          (0, (c1.sched.insts.filter (fun i => ds.contains i.desc)).foldl
            (fun c i => c.traceInst i 0x01 15 false ds.length) c1)

/-! ### Endings (R198 to R202) -/

/-- An instance ends unpublished (R199, R200): its position in an ORDERED or MIXED flow is released empty, its statistics
count it, and the dependents of its group can no longer start. -/
def Chip.endInst (c : Chip) (i : TaskInst) (cause : Nat) (same : Bool) : Chip :=
  let st := c.taskStats i.desc
  let c1 := { c with sched := { c.sched with insts := c.sched.insts.filter (fun j => decide (j.desc ≠ i.desc)) } }
  let c2 := (c1.setTaskStats i.desc { st with ends := (st.ends + 1) % 65536 }).syncFlight
  let c3 := c2.traceInst i 0x06 15 same cause
  match c.taskDesc i.desc with
  | none => c3
  | some x =>
    let k := c.card.tasks.flowKind x.flow
    let c4 := if k = 1 ∨ k = 3 then c3.traceInst i 0x07 15 false i.serial else c3
    let sc := c.card.tasks.succs x
    { c4 with sched := { c4.sched with insts := c4.sched.insts.map (fun j =>
        if sc.contains j.desc && decide (j.group = i.group) then { j with orphan := true } else j) } }

/-- Publication (R193, R195, R197): outputs visible, the dependents of the group decremented. (notes/assumptions: 39 DEDUCED) -/
def Chip.publish (c : Chip) (i : TaskInst) : Chip :=
  let st := c.taskStats i.desc
  let sc := match c.taskDesc i.desc with | some x => c.card.tasks.succs x | none => []
  let rest := (c.sched.insts.filter (fun j => decide (j.desc ≠ i.desc))).map (fun j =>
    let k := (sc.filter (fun d => d = j.desc)).length
    if j.group = i.group ∧ 0 < k then
      { j with counter := j.counter - k, readyAt := if j.counter ≤ k then c.runNs else j.readyAt }
    else j)
  let pub := (i.desc, i.serial, c.runNs) :: c.sched.published.filter (fun q => decide (q.2.2 = c.runNs))
  let c1 := { c with sched := { c.sched with insts := rest, published := pub } }
  ((c1.setTaskStats i.desc { st with
    runs := (st.runs + 1) % 2 ^ 32, lastNs := satNat 16 i.runTime, worstNs := max st.worstNs (satNat 16 i.runTime) }).syncFlight
    ).traceRoutine i 0x04 i.engine (satNat 16 i.runTime)

/-- The first instance of an ORDERED flow that is DONE with none before it in its flow (R197). -/
def Chip.nextInOrder (c : Chip) (flow : Nat) : Option TaskInst :=
  match c.sched.insts.find? (fun i => match c.taskDesc i.desc with | some x => decide (x.flow = flow) | none => false) with
  | some i => if i.phase = .done then some i else none
  | none => none

/-- The DONE instances that no earlier instance of their ORDERED flow holds back are published. (notes/assumptions: 39 DEDUCED) -/
def Chip.drainFlow (c : Chip) (flow : Nat) : Nat → Chip
  | 0 => c
  | fuel + 1 =>
    match c.nextInOrder flow with
    | none => c
    | some i => (c.publish i).drainFlow flow fuel

/-- After an ending or a publication the flow of `d` goes on (R197, R198). -/
def Chip.flowGoesOn (c : Chip) (d : Nat) : Chip :=
  match c.taskDesc d with
  | none => c
  | some x => if c.card.tasks.flowKind x.flow = 1 then c.drainFlow x.flow 512 else c

/-- A cancel of descriptor `d` for a cause (R200, R202): the instance ends; one published in this very cycle stands, and
the cancel is traced ALREADY_DONE. (notes/assumptions: 39 DEDUCED) -/
def Chip.cancelTask (c : Chip) (d cause : Nat) : Chip :=
  match c.inst d with
  | some i =>
    let same := match i.phase with
      | .ready => decide (i.readyAt = c.runNs)
      | .running => decide (i.started = c.runNs)
      | .waiting => decide (i.counter = 0) && i.date.isNone && decide (i.readyAt = c.runNs)
      | .done => false
    ((c.inc Reg.Trace.CANCEL_COUNT).endInst i cause same).flowGoesOn d
  | none =>
    match c.sched.published.find? (fun q => decide (q.1 = d ∧ q.2.2 = c.runNs)) with
    | some q => c.traceRow d 0 0x06 15 0 false q.2.1 9
    | none => c

/-- A region block cancels the instances whose REGION_MASK names the region and that do not keep on (R200). -/
def Chip.blockTasks (c : Chip) (mask : Nat) : Chip :=
  (c.sched.insts.map (·.desc)).foldl (fun c d =>
    match c.taskDesc d with
    | none => c
    | some x => if !x.keepOnBlock && decide (x.regionMask &&& mask ≠ 0) then c.cancelTask d 3 else c) c

/-- A hardware event decrements the counter of every instance that waits for it, once (R190, R195).
(notes/assumptions: 39 DEDUCED) -/
def Chip.hwEvent (c : Chip) (code : Nat) : Chip :=
  { c with sched := { c.sched with insts := c.sched.insts.map (fun i =>
    match c.taskDesc i.desc with
    | none => i
    | some x =>
      if x.hwPred = code ∧ code ≠ 0 ∧ i.hwDone = false then
        { i with hwDone := true, counter := i.counter - 1, readyAt := if i.counter ≤ 1 then c.runNs else i.readyAt }
      else i) } }

/-- FAULT_REACTION_ACTIVATE (R191, R200): what the card names for a fault of this level and kind. -/
def Chip.faultReaction (c : Chip) (level kind : Nat) : Chip :=
  (c.card.tasks.reactions.filter (fun r => decide (r.1 = level ∧ r.2.1 = kind))).foldl
    (fun c r => if r.2.2.2 then (c.activate r.2.2.1 none none).2 else c.cancelTask r.2.2.1 4) c

/-! ### Commands -/

/-- The date of an instance from a command's date. -/
def Date.pair : Date → Option Nat × Nat
  | .time t => (none, t.toNat)
  | .angle n ac => (some n.val, ac.toNat)

/-- ACTIVATE_INSTR (R191, R192, R194). -/
def execActivateInstr (d : Fin 1024) (arg : Word) (date : Option Date) (s : State) : Host.Outcome State Fault Refusal :=
  s.run fun c => (c.activate d.val (some arg.toNat) (date.map Date.pair)).2

/-- CANCEL_INSTR (R200). -/
def execCancelInstr (d : Fin 1024) (s : State) : Host.Outcome State Fault Refusal := s.run fun c => c.cancelTask d.val 2

/-- The angle of a channel at the present instant, ac (R54). -/
def Chip.angleNow (c : Chip) (n : Nat) : Nat :=
  let a48 : Int := (c.rd (Reg.Angle.ANGLE n) * 65536 + c.rd (Reg.Angle.ANGLE_FRAC n) : Nat)
  ((a48 + c.rdI (Reg.Angle.RATE n) * ((c.nowNs - c.time.frameStart : Nat) : Int)) % (2 ^ 48 : Int)).toNat / 65536

/-- A date evaluated now (R62, R63). -/
def Chip.lateOf (c : Chip) (date : Option Nat × Nat) : Late × Int :=
  match date.1 with
  | none => (lateRule (signedDiff 32 date.2 c.stamp) (c.rd Reg.Time.LATE_WINDOW), signedDiff 32 date.2 c.stamp)
  | some n => (lateAngle date.2 (c.angleNow n) (c.rdI (Reg.Angle.RATE n)) (c.rd Reg.Time.LATE_WINDOW), 0)

/-- DATED_ACTIVATION_DUE (R195): a dated activation of the card is activated with its date; then the date is evaluated: the
instance is released, released late and counted, or ended as late. -/
def execDatedActivationDue (dt : Nat) (d : Fin 1024) (s : State) : Host.Outcome State Fault Refusal :=
  s.run fun c0 =>
    let c1 := c0.advance dt
    let c := match c1.inst d.val, c1.card.tasks.dated.find? (fun x => decide (x.1 = d.val)) with
      | none, some (_, ch, at0) => (c1.activate d.val none (some (ch, at0))).2
      | _, _ => c1
    match c.inst d.val with
    | none => c
    | some i =>
      match i.date with
      | none => c
      | some dd =>
        match c.lateOf dd with
        | (.schedule, _) => c
        | (.hold, _) => c
        | (.executeNow, _) => c.setInst { i with date := none, readyAt := c.runNs }
        | (.executeLate, _) => (c.setInst { i with date := none, readyAt := c.runNs }).inc Reg.Time.LATE_COUNT
        | (.discard, dist) =>
          (((c.endInst i 8 false).flowGoesOn d.val).inc Reg.Time.DROPPED_COUNT).raise 6 0x0010 0xA0
            (satNat 32 (-dist).toNat)

/-- Has a FRAME instance's frame reached its RELEASE_OFS, or an EVENT instance its date (R195)? -/
def Chip.released (c : Chip) (x : TaskDesc) (i : TaskInst) : Bool :=
  if x.event then i.date.isNone else decide (x.releaseOfs ≤ c.nowNs - c.time.frameStart)

/-- TASK_READY (R195). -/
def execTaskReady (dt : Nat) (d : Fin 1024) (s : State) : Host.Outcome State Fault Refusal :=
  s.run fun c0 =>
    let c := c0.advance dt
    match c.inst d.val, c.taskDesc d.val with
    | some i, some x =>
      if i.phase = .waiting ∧ i.counter = 0 ∧ c.released x i = true ∧ i.orphan = false then
        (c.setInst { i with phase := .ready, readyAt := c.runNs }).traceRoutine i 0x02 15 0
      else c
    | _, _ => c

/-- May a READY instance start on an engine (R196, R197)? -/
def Chip.eligible (c : Chip) (e : Nat) (i : TaskInst) : Bool :=
  match c.taskDesc i.desc with
  | none => false
  | some x =>
    let sameFlow (j : TaskInst) : Bool := match c.taskDesc j.desc with | some y => decide (y.flow = x.flow) | none => false
    decide (i.phase = .ready) && decide (bits x.engineMask e 1 = 1) &&
    match c.card.tasks.flowKind x.flow with
    | 2 => !c.sched.insts.any (fun j => sameFlow j && decide (j.phase = .running))
    | 3 => decide ((c.sched.insts.find? sameFlow).map (·.desc) = some i.desc)
    | _ => true

/-- Does instance `i` come before `j` in the order of dispatch (R196)? -/
def Chip.before (c : Chip) (i j : TaskInst) : Bool :=
  let p (k : TaskInst) : Nat := match c.taskDesc k.desc with | some x => x.priority | none => 0
  if p i ≠ p j then decide (p j < p i)
  else if i.readyAt ≠ j.readyAt then decide (i.readyAt < j.readyAt)
  else decide (i.desc < j.desc)

/-- TASK_DISPATCH (R196): the idle engine takes the first eligible READY instance. -/
def execTaskDispatch (dt : Nat) (e : Fin 12) (s : State) : Host.Outcome State Fault Refusal :=
  s.run fun c0 =>
    let c := c0.advance dt
    if c.sched.insts.any (fun i => decide (i.phase = .running ∧ i.engine = e.val)) then c
    else
      let best := (c.sched.insts.filter (c.eligible e.val)).foldl (fun b i =>
        match b with
        | none => some i
        | some j => if c.before i j then some i else some j) none
      match best with
      | none => c
      | some i =>
        (c.setInst { i with phase := .running, engine := e.val, started := c.runNs }).traceRoutine i 0x03 e.val 0

/-- A RUNNING instance finishes (R197): published, or held DONE behind an earlier instance of its ORDERED flow. -/
def Chip.completeTask (c : Chip) (i : TaskInst) : Chip :=
  let i' : TaskInst := { i with runTime := c.runNs - i.started }
  match c.taskDesc i.desc with
  | none => c
  | some x =>
    if c.card.tasks.flowKind x.flow = 1 then
      let c1 := c.setInst { i' with phase := .done }
      let c2 := match c1.nextInOrder x.flow with
        | some j => if j.desc = i.desc then c1 else c1.traceRoutine i' 0x05 i.engine (satNat 16 i'.runTime)
        | none => c1.traceRoutine i' 0x05 i.engine (satNat 16 i'.runTime)
      c2.drainFlow x.flow 512
    else c.publish i'

/-- TASK_OVERRUN (R196): one trace entry and a count; the instance keeps running. -/
def execTaskOverrun (dt : Nat) (d : Fin 1024) (s : State) : Host.Outcome State Fault Refusal :=
  s.run fun c0 =>
    let c := c0.advance dt
    match c.inst d.val, c.taskDesc d.val with
    | some i, some x =>
      if i.phase = .running ∧ i.overran = false ∧ x.budget < c.runNs - i.started then
        let st := c.taskStats d.val
        ((((c.setInst { i with overran := true }).setTaskStats d.val { st with overruns := (st.overruns + 1) % 65536 }).inc
          Reg.Trace.OVERRUN_COUNT).set Reg.Trace.OVERRUN_SEEN).traceInst i 0x09 i.engine false x.budget
      else c
    | _, _ => c

/-- An instance passes its deadline or timeout (R199). -/
def Chip.taskExpired (c : Chip) (i : TaskInst) (cause flag : Nat) : Chip :=
  ((((c.endInst i cause false).flowGoesOn i.desc).inc Reg.Trace.DEADLINE_COUNT).set Reg.Trace.DEADLINE_SEEN).raise 4 c.planeIx
    0x7A (i.desc + flag * 2 ^ 16)

/-- TASK_DEADLINE (R199). -/
def execTaskDeadline (dt : Nat) (d : Fin 1024) (s : State) : Host.Outcome State Fault Refusal :=
  s.run fun c0 =>
    let c := c0.advance dt
    match c.inst d.val, c.taskDesc d.val with
    | some i, some x =>
      if x.event = false ∧ (x.deadlineOfs ≤ c.nowNs - c.time.frameStart ∨ x.deadlineOfs ≤ c.runNs - i.activated) then c.taskExpired i 5 0 else c
    | _, _ => c

/-- TASK_TIMEOUT (R199). -/
def execTaskTimeout (dt : Nat) (d : Fin 1024) (s : State) : Host.Outcome State Fault Refusal :=
  s.run fun c0 =>
    let c := c0.advance dt
    match c.inst d.val, c.taskDesc d.val with
    | some i, some x => if x.event = true ∧ x.timeout ≤ c.runNs - i.activated then c.taskExpired i 6 1 else c
    | _, _ => c

/-- PRED_CANCELLED (R201): a dependent whose counter can no longer reach 0. -/
def execPredCancelled (dt : Nat) (d : Fin 1024) (s : State) : Host.Outcome State Fault Refusal :=
  s.run fun c0 =>
    let c := c0.advance dt
    match c.inst d.val with
    | some i => if i.orphan then ((c.inc Reg.Trace.CANCEL_COUNT).endInst i 7 false).flowGoesOn d.val else c
    | none => c

/-- May a host call the descriptor (R205)? -/
def Chip.callable (c : Chip) (d : Nat) : Bool :=
  match c.taskDesc d with
  | some x => x.event && x.hostCallable
  | none => false

/-- ACT_GO (R205). -/
def execActGo (p : PortIx) (s : State) : Host.Outcome State Fault Refusal :=
  s.run fun c =>
    let res := Reg.Trace.TASK_ORDER_RESULT p
    let d := c.rd (Reg.Trace.TASK_ORDER_SEL p)
    if !c.has p .order then (c.refuseTo p res 3).refuseTask d 3
    else if !c.callable d then (c.wr res 4).refuseTask d 4
    else
      match c.activate d (some (c.rd (Reg.Trace.TASK_ORDER_ARG p))) none with
      | (0, c1) =>
        let ser := match c1.inst d with | some i => i.serial | none => 0
        (c1.wr res 1).wr (Reg.Trace.TASK_ORDER_SERIAL p) ser
      | (_, c1) => c1.wr res 2

/-- CANCEL_GO (R205). -/
def execCancelGo (p : PortIx) (s : State) : Host.Outcome State Fault Refusal :=
  s.run fun c =>
    let res := Reg.Trace.TASK_ORDER_RESULT p
    let d := c.rd (Reg.Trace.TASK_ORDER_SEL p)
    if !c.has p .order then c.refuseTo p res 3
    else if !c.callable d then c.wr res 4
    else if (c.inst d).isNone then (c.cancelTask d 1).wr res 5
    else (c.cancelTask d 1).wr res 1

/-- TRACE_FREEZE (R207): TRACE_POST entries after the freezing fault. -/
def execTraceFreeze (s : State) : Host.Outcome State Fault Refusal :=
  s.run fun c =>
    if c.sched.postLeft = some 0 then
      { c with sched := { c.sched with postLeft := none } }.set Reg.Trace.FROZEN
    else c

/-- The collector reports a fault at or above TRACE_FREEZE_SEV (R207). -/
def Chip.traceFault (c : Chip) (sev : Nat) : Chip :=
  if c.rd Reg.Trace.TRACE_FREEZE_SEV ≤ sev ∧ c.on Reg.Trace.FROZEN = false ∧ c.sched.postLeft = none then
    { c with sched := { c.sched with postLeft := some (c.rd Reg.Trace.TRACE_POST) } }.wr Reg.Trace.FROZEN_AT
      (c.rd Reg.Trace.TRACE_HEAD)
  else c

/-- UNFREEZE (R207). -/
def execUnfreeze (p : PortIx) (s : State) : Host.Outcome State Fault Refusal :=
  s.run fun c =>
    if c.has p .protect || c.has p .maint then
      { c with sched := { c.sched with postLeft := none } }.clr Reg.Trace.FROZEN
    else c.refuse p

/-- Where an absolute sequence number stands in a ring of `size` entries whose next is `head`: 0 VALID, 1 GONE, 2 NOT_YET,
by 32-bit signed difference (R208, R345). -/
def ringPlace (head sel size : Nat) : Nat :=
  let d := signedDiff 32 head sel
  if d ≤ 0 then 2 else if (size : Int) < d then 1 else 0

/-- TRACE_W0_READ (R208). -/
def execTraceW0Read (p : PortIx) (s : State) : Host.Outcome State Fault Refusal :=
  s.run fun c =>
    if !c.has p .observe then c
    else
      let sel := c.rd (Reg.Trace.TRACE_SEL p)
      let head := c.rd Reg.Trace.TRACE_HEAD
      let res := ringPlace head sel 8192
      let row := if res = 0 then (c.sched.trace[(signedDiff 32 head sel).toNat - 1]?).getD ⟨0, 0, 0, 0⟩ else ⟨0, 0, 0, 0⟩
      ((((c.wr (Reg.Trace.TRACE_W0 p) row.w0).wr (Reg.Trace.TRACE_W1 p) row.w1).wr (Reg.Trace.TRACE_W2 p) row.w2).wr
        (Reg.Trace.TRACE_W3 p) row.w3).wr (Reg.Trace.TRACE_RESULT p) res

/-- TASK_RUNS_READ (R5, R208). -/
def execTaskRunsRead (p : PortIx) (s : State) : Host.Outcome State Fault Refusal :=
  s.run fun c =>
    if !c.has p .observe then c
    else
      let st := c.taskStats (c.rd (Reg.TaskStat.TASK_SEL p))
      ((((c.wr (Reg.TaskStat.TASK_RUNS p) st.runs).wr (Reg.TaskStat.TASK_LAST_NS p) st.lastNs).wr
        (Reg.TaskStat.TASK_WORST_NS p) st.worstNs).wr (Reg.TaskStat.TASK_ENDS p) st.ends).wr
        (Reg.TaskStat.TASK_OVERRUNS p) st.overruns

end Sys2Proof.Machine
end

