-- ==== Sys2Proof/Machine/CanBus.lean ====
section
/-! DEFINITION. The CAN FD controllers of both parts (chapter 13). Controller `n` below 16,384 is the pack bus of the cell at
that address; 16,384 and 16,385 are the station channels. -/

namespace Sys2Proof.Machine

/-- The controller's clock, ns: cell time, or the time base. -/
def Chip.busNow (c : Chip) (n : Nat) : Nat := if isStation n then c.nowNs else (c.ct n).time / 256

/-- The controller's clock for durations: the one step of the time base does not move it. -/
def Chip.busRun (c : Chip) (n : Nat) : Nat := if isStation n then c.runNs else (c.ct n).time / 256

/-- `dt` ns pass for the controller. -/
def Chip.busAdvance (c : Chip) (n dt : Nat) : Chip := if isStation n then c.advance dt else c.cellAdvance n (256 * dt)

/-- A bus fault (R297): level 1 on the cell, level 6 on system resource 0x0040 + channel. -/
def Chip.busFault (c : Chip) (n detail : Nat) : Chip :=
  if isStation n then c.raise 6 (0x40 + (n - 16384)) 0xA4 detail else c.cellFault n 1 0x18 detail false false

/-- The transmit buffer `b`. -/
def CanSt.buf (x : CanSt) (b : Nat) : Option TxBuf := if b = 0 then x.buf0 else if b = 1 then x.buf1 else x.buf2

/-- Replace transmit buffer `b`. -/
def CanSt.setBuf (x : CanSt) (b : Nat) (v : Option TxBuf) : CanSt :=
  if b = 0 then { x with buf0 := v } else if b = 1 then { x with buf1 := v } else { x with buf2 := v }

/-- The result field of transmit buffer `b`. -/
def txResult (n b : Nat) : Fld :=
  if b = 0 then Reg.Can.TX0_RESULT n else if b = 1 then Reg.Can.TX1_RESULT n else Reg.Can.TX2_RESULT n

/-- Buffer `b` ends with a result (R292, R293, R300). -/
def Chip.endBuf (c : Chip) (n b res : Nat) : Chip := (c.setCan n ((c.can n).setBuf b none)).wr (txResult n b) res

/-- Every pending buffer ends with a result. -/
def Chip.endPending (c : Chip) (n res : Nat) : Chip :=
  [0, 1, 2].foldl (fun c b => if ((c.can n).buf b).isSome then c.endBuf n b res else c) c

/-- The controller is OFFLINE (R291): every buffer and queue entry is discarded. -/
def Chip.canOffline (c : Chip) (n : Nat) : Chip :=
  let c1 := c.setCan n CanSt.idle
  let c2 := ((c1.clr (Reg.Can.CAN_STATE n)).clr (Reg.Can.ERR_WARN n)).clr (Reg.Can.BUS_ALONE n)
  let c3 := ((c2.clr (Reg.Can.RECOVERING n)).clr (Reg.Can.TEC n)).clr (Reg.Can.REC n)
  (((c3.clr (Reg.Can.TX0_RESULT n)).clr (Reg.Can.TX1_RESULT n)).clr (Reg.Can.TX2_RESULT n)).clr (Reg.Can.RXQ_DEPTH n)

/-- The controller goes online (R291): it waits for 11 recessive bits. -/
def Chip.canOnline (c : Chip) (n : Nat) : Chip :=
  (c.canOffline n).setCan n { CanSt.idle with joining := true } |>.wr (Reg.Can.CAN_STATE n) 1

/-- Does the controller take part in bus traffic? -/
def Chip.busLive (c : Chip) (n : Nat) : Bool :=
  let st := c.rd (Reg.Can.CAN_STATE n)
  decide (st = 1 ∨ st = 2) && !(c.can n).joining && !c.on (Reg.Can.RECOVERING n)

/-- The state that the counters give, and what entering it does (R296, R297). -/
def Chip.syncCan (c : Chip) (n : Nat) : Chip :=
  let x := c.can n
  let old := c.rd (Reg.Can.CAN_STATE n)
  let st := if 255 < x.tec then 3 else if 127 < x.tec ∨ 127 < x.rec0 then 2 else 1
  let c1 := (((c.wr (Reg.Can.TEC n) (min x.tec 255)).wr (Reg.Can.REC n) (min x.rec0 255)).wrB (Reg.Can.ERR_WARN n)
    (decide (96 ≤ x.tec ∨ 96 ≤ x.rec0))).wr (Reg.Can.CAN_STATE n) st
  if st = 2 ∧ old = 1 then (c1.set (Reg.Can.PASSIVE_SEEN n)).busFault n 1
  else if st = 3 ∧ old ≠ 3 then
    let c2 := (c1.endPending n 7).clr (Reg.Can.BUS_ALONE n)
    let c3 := c2.setCan n { c2.can n with busOffAt := some (c.busRun n), aloneFrom := none, exhausted := false }
    ((c3.set (Reg.Can.BUS_OFF_SEEN n)).inc (Reg.Can.BUS_OFF_COUNT n)).busFault n 2
  else c1

/-- A transmission was acknowledged or a frame received: the node is not alone (R299). -/
def Chip.notAlone (c : Chip) (n : Nat) : Chip :=
  (c.setCan n { c.can n with aloneFrom := none, paced := false }).clr (Reg.Can.BUS_ALONE n)

/-- The consumer task of a station channel is activated while the queue has a head (R295). -/
def Chip.wakeConsumer (c : Chip) (n : Nat) : Chip :=
  match (mapGet CardCanCh.blank c.card.can.channels (n - 16384)).task with
  | none => c
  | some d => if isStation n && !(c.can n).queue.isEmpty && (c.inst d).isNone then (c.activate d none none).2 else c

/-- The identifiers of the loaded profile's signal items (R260, R294): entry 3 + k, up to N_SIGNALS. -/
def PackSt.signalIds (x : PackSt) : List Nat :=
  (List.range (min (bits (mapGet 0 x.profile 1) 0 8) 29)).map (fun k => mapGet 0 x.profile (4 * (3 + k)) % 2 ^ 30)

/-- Does the controller's filter accept a frame (R294)? -/
def Chip.canAccepts (c : Chip) (n : Nat) (f : CanFrame) : Bool :=
  if isStation n then
    (mapGet CardCanCh.blank c.card.can.channels (n - 16384)).filters.any
      (fun x => decide ((f.id &&& x.2.1) = (x.1 &&& x.2.1)) && decide (f.ext = x.2.2))
  else (c.pack n).signalIds.contains (f.id + bit f.ext * 2 ^ 29)

/-- The CAN stream of every host with OBSERVE rights that masks the channel in (R295, R389). -/
def Chip.canStream (c : Chip) (n : Nat) (f : CanFrame) : Chip :=
  let ch := n - 16384
  let l := f.data.length
  let pad := (16 - l % 16) % 16
  let pl := leBytes 4 (f.id + bit f.ext * 2 ^ 29 + bit f.fdf * 2 ^ 30 + bit f.brs * 2 ^ 31) ++ [ch + 2 * bit f.esi, l, 0, 0]
    ++ leBytes 4 f.stamp ++ List.replicate 4 0 ++ f.data ++ List.replicate pad 0
  [0, 1, 2, 3].foldl (fun c p =>
    if c.has p .observe && decide (bits (c.rd (Reg.Strm.CAN_MASK p 4)) ch 1 = 1) then c.produce p 4 0x04 (32 + l + pad) pl
    else c) c

/-- REC after a correct reception: one less, and from above 127 a value between 119 and 127 that ISO 11898-1 leaves open.
(notes/assumptions: 2 DESIGN CHOICE, 40 DEDUCED) -/
def Chip.recSuccess (c : Chip) (n : Nat) : Chip :=
  let x := c.can n
  if 127 < x.rec0 then
    let (v, c1) := c.drawFree
    c1.setCan n { x with rec0 := 119 + v % 9 }
  else c.setCan n { x with rec0 := x.rec0 - 1 }

/-- CAN_FRAME_RX (R294, R295). -/
def execCanFrameRx (dt : Nat) (n : BusIx) (f : BusFrame) (s : State) : Host.Outcome State Fault Refusal :=
  s.run fun c0 =>
    let n := busNum n
    let c := c0.busAdvance n dt
    if !c.busLive n then c
    else
      let fr : CanFrame := ⟨f.id, f.ext, f.fdf, f.brs, f.esi, f.remote, f.data.take 64, c.busNow n % 2 ^ 32⟩
      let c1 := ((c.notAlone n).recSuccess n).syncCan n
      let c2 := if isStation n && !f.remote then c1.canStream n fr else c1
      if f.remote || (f.fdf && decide (c.rd (Reg.Can.DATA_RATE n) = 0)) || !c.canAccepts n fr then
        c2.inc (Reg.Can.RX_DISCARDED n)
      else if 16 ≤ (c2.can n).queue.length then (c2.inc (Reg.Can.RX_OVERFLOW n)).set (Reg.Can.RX_OVERFLOW_SEEN n)
      else
        let q := (c2.can n).queue ++ [fr]
        (((c2.setCan n { c2.can n with queue := q, queueAt := (c2.can n).queueAt ++ [c.busRun n] }).inc (Reg.Can.RX_OK n)).wr (Reg.Can.RXQ_DEPTH n) q.length).wakeConsumer n

/-- The head of the receive queue is released (R295). -/
def Chip.rxAck (c : Chip) (n : Nat) : Chip :=
  let q := (c.can n).queue.drop 1
  (c.setCan n { c.can n with queue := q, queueAt := (c.can n).queueAt.drop 1 }).wr (Reg.Can.RXQ_DEPTH n) q.length

/-- RX_ACK (R295). -/
def execRxAck (n : BusIx) (s : State) : Host.Outcome State Fault Refusal := s.run fun c => c.rxAck (busNum n)

/-- A measured transmitter delay (R290): above 300 ns, 12 CAN clock periods, it is out of range at data codes 2 to 4. -/
def Chip.measureTdc (c : Chip) (n : Nat) : Option Nat → Chip
  | none => c
  | some v =>
    let c1 := c.wr (Reg.Can.TDC_VALUE n) (min v 255)
    if 2 ≤ c.rd (Reg.Can.DATA_RATE n) ∧ 12 < v then (c1.set (Reg.Can.TDC_RANGE n)).busFault n 5 else c1

/-- CAN_TX_DONE (R292, R293, R299, R300): the end of an attempt of a pending buffer. -/
def execCanTxDone (dt : Nat) (n : BusIx) (b : Fin 3) (how : TxEnd) (tdc : Option Nat) (s : State) :
    Host.Outcome State Fault Refusal :=
  s.run fun c0 =>
    let n := busNum n
    let c := c0.busAdvance n dt
    match (c.can n).buf b.val with
    | none => c
    | some t =>
      if !c.busLive n || c.on (Reg.Can.LISTEN_ONLY n) then c
      else
        let c1 := c.measureTdc n tdc
        let c2 := c1.setCan n { c1.can n with paced := false }
        match how with
        | .success =>
          let c3 := (c2.notAlone n).endBuf n b.val 3
          ((c3.setCan n { c3.can n with tec := (c3.can n).tec - 1 }).inc (Reg.Can.TX_OK n)).syncCan n
        | _ =>
          if t.abort then c2.endBuf n b.val 4
          else if t.oneShot then c2.endBuf n b.val 5
          else c2.wr (txResult n b.val) 1

/-- A bit error at one data-field bit of a buffer (R300): counted while it stays at that bit, and restarted elsewhere. -/
def TxBuf.clashAt (t : TxBuf) : Option Nat → TxBuf
  | none => t
  | some pos =>
    match t.clash with
    | some (q, k) => if q = pos then { t with clash := some (q, k + 1) } else { t with clash := some (pos, 1) }
    | none => { t with clash := some (pos, 1) }

/-- CAN_BUS_ERROR (R296, R299): the counters follow ISO 11898-1; an acknowledgement error starts the time alone. -/
def execCanBusError (dt : Nat) (n : BusIx) (kind : Fin 8) (dataPhase : Bool) (role : ErrRole) (s : State) :
    Host.Outcome State Fault Refusal :=
  s.run fun c0 =>
    let n := busNum n
    let c := c0.busAdvance n dt
    if !c.busLive n then c
    else
      let c1 := (c.wr (Reg.Can.LAST_ERR n) kind.val).wrB (Reg.Can.LAST_ERR_DATA n) dataPhase
      let x := c1.can n
      match role with
      | .receiver heavy => (c1.setCan n { x with rec0 := x.rec0 + if heavy then 8 else 1 }).syncCan n
      | .transmitter b bitPos held =>
        let passive := decide (c.rd (Reg.Can.CAN_STATE n) = 2)
        let keep := held || (decide (kind.val = 3) && passive)
        let x1 : CanSt := { x with
          tec := if keep then x.tec else x.tec + 8
          aloneFrom := if kind.val = 3 then some (x.aloneFrom.getD (c.busRun n)) else x.aloneFrom }
        let x2 := match x1.buf b.val with
          | none => x1
          | some t => x1.setBuf b.val (some (t.clashAt bitPos))
        (c1.setCan n x2).syncCan n

/-- IDENT_CLASH (R300): sixteen bit errors at one position end the buffer as CLASH. -/
def execIdentClash (n : BusIx) (b : Fin 3) (s : State) : Host.Outcome State Fault Refusal :=
  s.run fun c =>
    let n := busNum n
    match ((c.can n).buf b.val).bind (·.clash) with
    | some (pos, k) =>
      if 16 ≤ k then
        ((((c.endBuf n b.val 6).set (Reg.Can.IDENT_CLASH n)).wr (Reg.Can.CLASH_POS n) pos).inc
          (Reg.Can.CLASH_COUNT n)).busFault n (6 + pos % 512 * 16)
      else c
    | none => c

/-- Buffer `b` is set pending (R292): refused while it is pending; in BUS_OFF it ends at once. False where refused. -/
def Chip.sendBuf (c : Chip) (n b : Nat) (f : CanFrame) (oneShot : Bool) : Bool × Chip :=
  if ((c.can n).buf b).isSome then (false, c)
  else if c.rd (Reg.Can.CAN_STATE n) = 0 then (false, c)
  else if c.rd (Reg.Can.CAN_STATE n) = 3 then (true, c.wr (txResult n b) 7)
  else (true, (c.setCan n ((c.can n).setBuf b (some ⟨f, oneShot, false, none⟩))).wr (txResult n b) 1)

/-- The frame that buffer 2's registers hold (R302, R303). (notes/assumptions: 14 DEDUCED) -/
def Chip.tx2Frame (c : Chip) (n : Nat) : CanFrame :=
  let len := if isStation n then min (c.rd (Reg.StCan.TX2_LEN (n - 16384))) 64
    else min (c.rd (Reg.Can.TX2_LEN n)) 8
  let bytes := if isStation n then (List.range 16).flatMap (fun j => leBytes 4 (c.rd (Reg.StCan.TX2_DATA (n - 16384) j)))
    else leBytes 4 (c.rd (Reg.Can.TX2_DATA_LO n)) ++ leBytes 4 (c.rd (Reg.Can.TX2_DATA_HI n))
  ⟨c.rd (Reg.Can.TX2_ID n), c.on (Reg.Can.TX2_IDE n), c.on (Reg.Can.TX2_FDF n), c.on (Reg.Can.TX2_BRS n), false, false,
    bytes.take len, 0⟩

/-- TX2_GO (R302, R292): buffer 2 is set pending, or refused BUSY (RESULT 2 at a cell). -/
def Chip.tx2Go (c : Chip) (n : Nat) : Bool × Chip := 
  c.sendBuf n 2 (c.tx2Frame n) (!isStation n && c.on (Reg.Can.TX2_ONE_SHOT n))

/-- TX2_ABORT (R293): a pending buffer is aborted; one that is being sent (2) finishes its attempt.
(notes/assumptions: 40 DEDUCED) -/
def Chip.tx2Abort (c : Chip) (n : Nat) : Chip :=
  match (c.can n).buf2 with
  | none => c
  | some t =>
    if c.rd (Reg.Can.TX2_RESULT n) = 2 then c.setCan n { c.can n with buf2 := some { t with abort := true } }
    else c.endBuf n 2 4

/-- May port `p` order a station channel (R303)? -/
def Chip.mayBus (c : Chip) (p : Nat) : Bool := c.has p .order || c.has p .maint

/-- TX2_GO (R292, R302, R303). -/
def execTx2Go (p : Option PortIx) (n : BusIx) (s : State) : Host.Outcome State Fault Refusal :=
  s.run fun c =>
    match p, n with
    | some q, .station k => if c.mayBus q then (c.tx2Go (16384 + k)).2 else c.refuse q
    | _, .cell a => (c.tx2Go a).2
    | none, .station _ => c

/-- TX2_ABORT (R293, R303). -/
def execTx2Abort (p : Option PortIx) (n : BusIx) (s : State) : Host.Outcome State Fault Refusal :=
  s.run fun c =>
    match p, n with
    | some q, .station k => if c.mayBus q then c.tx2Abort (16384 + k) else c.refuse q
    | _, .cell a => c.tx2Abort a
    | none, .station _ => c

/-- A write of CAN_CFG (R291, R302): 1 done, 2 refused, 5 out of range. The pack bus goes online where PACK_STATE is
CHECKING, OPEN, CLOSING, CLOSED, DETACH_READY or FENCED. -/
def Chip.canCfgWrite (c : Chip) (a data : Nat) : Nat × Chip :=
  let arb := bits data 0 3
  let dat := bits data 3 3
  if c.rd (Reg.Can.CAN_STATE a) ≠ 0 then (2, c)
  else if arb = 0 ∨ 4 < arb ∨ 4 < dat then (5, c)
  else
    let c1 := (((c.wr (Reg.Can.ARB_RATE a) arb).wr (Reg.Can.DATA_RATE a) dat).wr (Reg.Can.TX_ORDER a) (bits data 6 1)).wr
      (Reg.Can.LISTEN_ONLY a) (bits data 7 1)
    let st := c.rd (Reg.Idb.PACK_STATE a)
    (1, if st = 2 ∨ (4 ≤ st ∧ st ≤ 8) then c1.canOnline a else c1)

/-- CAN_CFG_WRITE (R291, R302); never at a WN140-S (R226). -/
def execCanCfgWrite (a : CellAddr) (data : Word) (s : State) : Host.Outcome State Fault Refusal :=
  s.run fun c => if c.cellIsS a then c else (c.canCfgWrite a data.toNat).2

/-- CAN_BUS_IDLE_SEEN (R291): 11 recessive bits. -/
def execCanBusIdleSeen (n : BusIx) (s : State) : Host.Outcome State Fault Refusal :=
  s.run fun c => c.setCan (busNum n) { c.can (busNum n) with joining := false }

/-- A restart (R298): only in BUS_OFF, and not while RECOVERING. False where refused. -/
def Chip.restartBus (c : Chip) (n : Nat) : Bool × Chip :=
  if c.rd (Reg.Can.CAN_STATE n) = 3 ∧ c.on (Reg.Can.RECOVERING n) = false then (true, c.set (Reg.Can.RECOVERING n))
  else (false, c)

/-- CAN_RESTART (R298). -/
def execCanRestart (a : CellAddr) (s : State) : Host.Outcome State Fault Refusal := s.run fun c => (c.restartBus a).2

/-- CHANNEL_RESTART_GO (R298, R303). -/
def execChannelRestartGo (p : PortIx) (n : Fin 2) (s : State) : Host.Outcome State Fault Refusal :=
  s.run fun c =>
    if c.mayBus p then
      let (ok, c1) := c.restartBus (16384 + n)
      c1.wr (Reg.StCan.RESTART_RESULT n) (if ok then 1 else 2)
    else c.refuseTo p (Reg.StCan.RESTART_RESULT n) 3

/-- CELL_CAN_RESTART (R298): through the management slot of the cell. -/
def execCellCanRestart (p : PortIx) (s : State) : Host.Outcome State Fault Refusal :=
  s.run fun c =>
    let res := Reg.CanRst.CELL_CAN_RESULT p
    let a := c.rd (Reg.CanRst.CELL_CAN_SEL p)
    if !c.has p .maint then c.refuseTo p res 3
    else if c.population (a / 64) ≤ a % 64 ∨ c.isSensor a = true then c.wr res 4
    else if c.rd (Reg.Can.CAN_STATE a) = 3 ∧ c.on (Reg.Can.RECOVERING a) = false then
      (c.sendMgmt 1 a 0xB3 1 9).wr res 1
    else c.wr res 2

/-- CAN_AUTO_RESTART (R298): CAN_RESTART_DELAY after BUS_OFF, within CAN_RESTART_MAX of the last 3,600 s; cause 7 once when
the limit is reached. -/
def execCanAutoRestart (dt : Nat) (n : BusIx) (s : State) : Host.Outcome State Fault Refusal :=
  s.run fun c0 =>
    let n := busNum n
    let c := c0.advance dt
    let x := c.can n
    let cfg := c.card.can
    let recent := x.restarts.filter (fun t => decide (c.runNs < t + 3600000000000))
    if c.rd (Reg.Can.CAN_STATE n) ≠ 3 ∨ c.on (Reg.Can.RECOVERING n) = true ∨ cfg.restartMax = 0 then c
    else if (match x.busOffAt with | some t => decide (c.busRun n < t + cfg.restartDelay * 1000000000) | none => true) then c
    else if cfg.restartMax ≤ recent.length then
      if x.exhausted then c else (c.setCan n { x with exhausted := true, restarts := recent }).busFault n 7
    else
      let c1 := c.setCan n { x with restarts := c.runNs :: recent }
      if isStation n then (c1.set (Reg.Can.RECOVERING n)).wr (Reg.StCan.AUTO_RESTARTS (n - 16384)) (recent.length + 1)
      else c1.sendMgmt 1 n 0xB3 1 9

/-- CAN_RECOVERY_DONE (R298): ERROR_ACTIVE with both counters at 0. -/
def execCanRecoveryDone (n : BusIx) (s : State) : Host.Outcome State Fault Refusal :=
  s.run fun c =>
    let n := busNum n
    if c.on (Reg.Can.RECOVERING n) then
      ((c.setCan n { c.can n with tec := 0, rec0 := 0, busOffAt := none }).clr (Reg.Can.RECOVERING n)).syncCan n
    else c

/-- BUS_ALONE (R299): 500 ms since the first unacknowledged attempt. -/
def execBusAlone (dt : Nat) (n : BusIx) (s : State) : Host.Outcome State Fault Refusal :=
  s.run fun c0 =>
    let n := busNum n
    let c := c0.busAdvance n dt
    match (c.can n).aloneFrom with
    | some t =>
      if t + 500000000 ≤ c.busRun n ∧ c.on (Reg.Can.BUS_ALONE n) = false ∧ c.busLive n = true then
        ((c.set (Reg.Can.BUS_ALONE n)).set (Reg.Can.ALONE_SEEN n)).busFault n 3
      else c
    | none => c

/-- BUS_ALONE_ATTEMPT (R299): one paced attempt, of the buffer whose turn it is. (notes/assumptions: 40 DEDUCED) -/
def execBusAloneAttempt (n : BusIx) (s : State) : Host.Outcome State Fault Refusal :=
  s.run fun c => if c.on (Reg.Can.BUS_ALONE (busNum n)) then c.setCan (busNum n) { c.can (busNum n) with paced := true } else c

/-- CAN_RX_STALL (R295, R297): a station queue whose head stays owned for longer than RX_STALL. (notes/assumptions: 40 DEDUCED) -/
def execCanRxStall (dt : Nat) (n : BusIx) (s : State) : Host.Outcome State Fault Refusal :=
  s.run fun c0 =>
    let n := busNum n
    let c := c0.busAdvance n dt
    match (c.can n).queueAt with
    | t :: _ => if isStation n && decide (t + c.card.can.rxStall * 1000000 < c.busRun n) then c.busFault n 4 else c
    | [] => c

/-- TASK_COMPLETE (R197, R295): the instance finishes; a published consumer of a station queue is activated again while the
queue has a head. -/
def execTaskComplete (dt : Nat) (d : Fin 1024) (s : State) : Host.Outcome State Fault Refusal :=
  s.run fun c0 =>
    let c := c0.advance dt
    match c.inst d.val with
    | some i => if i.phase = .running then ((c.completeTask i).wakeConsumer 16384).wakeConsumer 16385 else c
    | none => c

end Sys2Proof.Machine
end

