-- ==== Sys2Proof/Machine/Pack.lean ====
section
/-! DEFINITION. The pack port of a cell (chapter 11, cell side): the identity bus and its records, the pack profile and its
decoder, presence, and the battery port. A function that carries out a management write answers the RESULT of R105 with the
chip: 1 done, 2 refused. -/

namespace Sys2Proof.Machine

/-- PACK_STATE of the cell (R270). -/
def Chip.packState (c : Chip) (a : Nat) : Nat := c.rd (Reg.Idb.PACK_STATE a)

/-- Set PACK_STATE. -/
def Chip.setPackState (c : Chip) (a st : Nat) : Chip := c.wr (Reg.Idb.PACK_STATE a) st

/-! ### Targets and flags of the profile (R260, R261) -/

/-- The binary32 value of profile target `k`, while it is not stale (R261). -/
def Chip.target (c : Chip) (a k : Nat) : Option Nat :=
  match findKey k (c.pack a).targets with
  | some t => if (c.ct a).time ≤ t.at0 + t.timeout then some t.value else none
  | none => none

/-- Word `w` of entry `e` of the cell's profile memory. -/
def PackSt.profWord (x : PackSt) (e w : Nat) : Nat := mapGet 0 x.profile (4 * e + w)

/-- Signal items in use (R260). -/
def PackSt.nSignals (x : PackSt) : Nat := min (bits (x.profWord 0 1) 0 8) 29

/-- Is a target's value given and not zero? -/
def Chip.targetOn (c : Chip) (a k : Nat) : Bool :=
  match c.target a k with
  | some v => decide (v % 2 ^ 31 ≠ 0)
  | none => false

/-- Does some signal item set target `k`? -/
def PackSt.hasItem (x : PackSt) (k : Nat) : Bool :=
  (List.range x.nSignals).any (fun j => decide (bits (x.profWord (3 + j) 1) 16 8 = k))

/-- The header is valid and names at least one signal (R261): PROFILE_ID is not 0. -/
def PackSt.loaded (x : PackSt) : Bool := decide (bits (x.profWord 0 0) 0 16 ≠ 0) && decide (1 ≤ x.nSignals)

/-- The BMS status flags of a cell (R261). -/
def Chip.bmsFlags (c : Chip) (a : Nat) : Nat :=
  let x := c.pack a
  let present := match x.decodedAt with
    | some t => decide ((c.ct a).time ≤ t + 256000000000)
    | none => false
  bit present + 2 * bit (c.target a 1).isSome + 4 * bit ((c.target a 6).isSome && (c.target a 7).isSome)
    + 8 * bit (c.target a 4).isSome + 16 * bit (c.targetOn a 11) + 32 * bit x.bmsFence
    + 64 * bit (c.targetOn a 13 || !x.hasItem 13) + 128 * bit x.loaded

/-! ### The identity bus (R253 to R256) -/

/-- Is the identity bus free for a transaction? A request that finds it busy is refused (R253). -/
def Chip.idFree (c : Chip) (a : Nat) : Bool := (c.pack a).job.isNone && !(c.pack a).busHeld

/-- A read of records starts: the pack record first where a pack is debounced present, then the stage record if `both`. -/
def Chip.startRead (c : Chip) (a : Nat) (both : Bool) : Chip :=
  let x := c.pack a
  c.setPack a { x with job := some (.read (!(x.debounced)) both 0 false) }

/-- READ_IDS (R270): both records; a debounced pack that is not in use goes back to CHECKING (notes/assumptions/17.md).
(notes/assumptions: 17 DEDUCED) -/
def Chip.readIds (c : Chip) (a : Nat) : Nat × Chip :=
  if !c.idFree a then (2, c)
  else
    let st := c.packState a
    let c1 := (c.clr (Reg.Idb.PACK_READ_OK a)).clr (Reg.Idb.STAGE_READ_OK a)
    let c2 := c1.startRead a true
    (1, if (c.pack a).debounced ∧ (st = 3 ∨ st = 4 ∨ st = 7) then
        (c2.setPackState a 2).setPack a { c2.pack a with accepted := false }
      else c2)

/-- The registers that show the current summary slot of the pack record (R255, R270). -/
def Chip.syncPackRec (c : Chip) (a : Nat) (ok : Bool) : Chip :=
  let r := (c.pack a).packRec
  let cur := currentSlot r
  ((((c.wrB (Reg.Idb.PACK_READ_OK a) ok).wrB (Reg.Idb.SUMMARY_VALID a) cur.isSome).wr (Reg.Idb.SUMMARY_SLOT a)
    (cur.getD 0)).wr (Reg.Idb.SUMMARY_SEQ a) (slotField r 0 2)).wr (Reg.Idb.SUMMARY_TIME a) (slotField r 2 4)

/-- Which calibration copy of a stage record is current (R256). -/
def currentCal (r : List Nat) : Option Nat :=
  currentCopy (crcOk r 64 80) (crcOk r 144 80) (leAt r 136 2) (leAt r 216 2)

/-- The registers that show the current calibration copy (R256, R270). -/
def Chip.syncStageRec (c : Chip) (a : Nat) (ok : Bool) : Chip :=
  let cur := currentCal (c.pack a).stageRec
  ((c.wrB (Reg.Idb.STAGE_READ_OK a) ok).wrB (Reg.Idb.CAL_COPY_VALID a) cur.isSome).wr (Reg.Idb.CAL_COPY a) (cur.getD 0)

/-- The cell's own answer to a pack record that has been read, or found absent (R259, R282): a tenure open for another pack,
or for no pack, is closed by a PACK_CHANGED row; the same pack after OFF gets its RESTART row. -/
def Chip.comparePack (c : Chip) (a : Nat) (uid : Option Nat) : Chip :=
  let l := c.ledger a
  match l.openUid with
  | none => c
  | some (u, _) =>
    if uid = some u then (if l.restartDue then c.requestCommit a 7 else c)
    else c.requestCommit a 6

/-- One record of a read job has ended: its bytes (empty where the memory is absent) go into the buffer; then the stage
record is read, or the job is over. True where the job is over. -/
def Chip.recordRead (c : Chip) (a : Nat) (stage both : Bool) (bytes : List Nat) (ok : Bool) : Bool × Chip :=
  let x := c.pack a
  if stage then
    (true, (c.setPack a { x with stageRec := bytes, job := none }).syncStageRec a ok)
  else
    let c1 := (c.setPack a { x with
      packRec := bytes, job := if both then some (.read true false 0 false) else none }).syncPackRec a ok
    (!both, c1.comparePack a (if ok then some (packUid bytes) else none))

/-- The summary slot or calibration copy under way could not be written (R255, R256). (notes/assumptions: 34 DEDUCED) -/
def Chip.writeFailed (c : Chip) (a detail : Nat) : Chip :=
  ((c.setPack a { c.pack a with job := none }).set (Reg.Idb.WRITE_FAILED a)).cellFault a 1 0x15 detail false false

/-- SUMMARY_WRITE (R255, R270): refused where no pack is present, and, with WRITE_FAILED, where the bus is busy (R253, R287).
(notes/assumptions: 34 DEDUCED) -/
def Chip.summaryWrite (c : Chip) (a : Nat) : Nat × Chip :=
  if (c.pack a).debounced then
    match c.startSummary a with
    | some c1 => (1, c1)
    | none => (2, c.set (Reg.Idb.WRITE_FAILED a))
  else (2, c)

/-- A summary that read back: it is the current slot (R255). (notes/assumptions: 34 DEDUCED) -/
def Chip.summaryDone (c : Chip) (a slot : Nat) (image : List Nat) : Chip :=
  let x := c.pack a
  let c1 := c.setPack a { x with packRec := patch x.packRec (128 + 64 * slot) image, job := none }
  (c1.syncPackRec a (c.on (Reg.Idb.PACK_READ_OK a))).inc (Reg.Idb.SUMMARY_WRITES a)

/-- CAL_WRITE (R256, R270): the buffer's copy goes into the copy that is not current. -/
def Chip.calWrite (c : Chip) (a : Nat) : Nat × Chip :=
  if !c.idFree a then (2, c)
  else
    let cur := if c.on (Reg.Idb.CAL_COPY_VALID a) then some (c.rd (Reg.Idb.CAL_COPY a)) else none
    (1, c.setPack a { c.pack a with job := some (.cal (match cur with | some 0 => 1 | _ => 0) false) })

/-- A calibration copy that read back (R256): the edited copy of the buffer stands in the other place and is current. -/
def Chip.calDone (c : Chip) (a copy : Nat) : Chip :=
  let x := c.pack a
  let image := (x.stageRec.drop (64 + 80 * (1 - copy))).take 80
  let c1 := c.setPack a { x with stageRec := patch x.stageRec (64 + 80 * copy) image, job := none }
  (c1.set (Reg.Idb.CAL_COPY_VALID a)).wr (Reg.Idb.CAL_COPY a) copy

/-! ### The record buffer and the profile memory (R270) -/

/-- One word of the record buffer. -/
def Chip.recWord (c : Chip) (a : Nat) : Nat :=
  let x := c.pack a
  leAt (if c.on (Reg.Idb.REC_SEL a) then x.stageRec else x.packRec) (4 * c.rd (Reg.Idb.REC_IDX a)) 4

/-- An access to REC_DATA: RESULT, data and the chip. Writes only in ADMIT or FENCED and only to stage bytes 64 to 223; a
refused write moves nothing. (notes/assumptions: 35 DEDUCED) -/
def Chip.recData (c : Chip) (a : Nat) (write : Option Nat) : Nat × Nat × Chip :=
  let i := c.rd (Reg.Idb.REC_IDX a)
  match write with
  | none => (1, c.recWord a, c.inc (Reg.Idb.REC_IDX a))
  | some v =>
    if (c.cellState a = 3 ∨ c.cellState a = 8) ∧ c.on (Reg.Idb.REC_SEL a) = true ∧ 16 ≤ i ∧ i < 56 then
      let x := c.pack a
      (1, v, (c.setPack a { x with stageRec := patch x.stageRec (4 * i) (leBytes 4 v) }).inc (Reg.Idb.REC_IDX a))
    else (2, v, c)

/-- An access to PROF_DATA: writes only in NO_PACK, DEBOUNCE, CHECKING or REFUSED; a write takes the bus offline (R291).
(notes/assumptions: 35 DEDUCED) -/
def Chip.profData (c : Chip) (a : Nat) (write : Option Nat) : Nat × Nat × Chip :=
  let i := c.rd (Reg.Idb.PROF_IDX a)
  let x := c.pack a
  match write with
  | none => (1, mapGet 0 x.profile i, c.inc (Reg.Idb.PROF_IDX a))
  | some v =>
    if c.packState a ≤ 3 then
      (1, v, ((c.setPack a { x with profile := mapSet 0 x.profile i v }).canOffline a).inc (Reg.Idb.PROF_IDX a))
    else (2, v, c)

/-! ### Orders to the pack port (R264, R270) -/

/-- PACK_ACCEPT: DEBOUNCE or CHECKING to OPEN. -/
def Chip.packAccept (c : Chip) (a : Nat) : Nat × Chip :=
  let st := c.packState a
  if st = 1 ∨ st = 2 then (1, (c.setPack a { c.pack a with accepted := true }).setPackState a 4) else (2, c)

/-- PACK_REFUSE: REFUSED, the port open and the bus offline (R291); without a pack there is none to refuse. -/
def Chip.packRefuse (c : Chip) (a : Nat) : Nat × Chip :=
  if c.packState a = 0 then (2, c)
  else
    let c1 := (c.stopStage a).openPort a
    (1, ((c1.setPack a { c1.pack a with accepted := false }).canOffline a).setPackState a 3)

/-- The conditions of PORT_CLOSE (R264), with the port not already CLOSING or CLOSED. -/
def Chip.mayClose (c : Chip) (a : Nat) : Bool :=
  let st := c.cellState a
  (c.pack a).accepted && (c.pack a).debounced && decide (4 ≤ st ∧ st ≤ 6) && decide (c.rd (Reg.BcSlot.BC_MODE a) ≠ 1)
    && decide (bits (c.bmsFlags a) 6 1 = 1) && c.on (Reg.Adc.CAL_LOADED a) && decide (c.packState a = 4)

/-- PORT_CLOSE (R264): PACK_EN rises, or RESULT 2. -/
def Chip.portClose (c : Chip) (a : Nat) : Nat × Chip :=
  if c.mayClose a then
    (1, ((c.setPack a { c.pack a with closing := some (c.ct a).time }).set (Reg.Idb.PACK_EN_OUT a)).setPackState a 5)
  else (2, c)

/-- PORT_OPEN (1) or DETACH (2): carried out now, or once the DC-DC stage has stopped (R264, R270). -/
def Chip.portOpen (c : Chip) (a k : Nat) : Nat × Chip :=
  let st := c.packState a
  let fits := if k = 1 then decide (4 ≤ st ∧ st ≤ 7) else decide (3 ≤ st)
  if fits then
    let c1 := c.setPack a { c.pack a with openAsked := k }
    (1, if c.rd (Reg.BcSlot.BC_MODE a) = 1 then c1 else c1.openIfAsked a)
  else (2, c)

/-- PACK_FENCE: FENCED, the stage stopped and the port open (R264, R270). -/
def Chip.packFence (c : Chip) (a : Nat) : Nat × Chip :=
  if c.packState a = 0 then (2, c) else (1, ((c.stopStage a).openPort a).setPackState a 8)

/-- PACK_UNFENCE: from FENCED, after a fresh read and check, to OPEN; refused where the bus is busy (R253, R270).
(notes/assumptions: 17 DEDUCED) -/
def Chip.packUnfence (c : Chip) (a : Nat) : Nat × Chip :=
  if c.packState a = 8 ∧ c.idFree a = true then
    let c1 := (c.clr (Reg.Idb.PACK_READ_OK a)).startRead a false
    (1, (c1.setPack a { c1.pack a with accepted := false }).setPackState a 2)
  else (2, c)

/-! ### Presence (R263) -/

/-- The pack is gone: NO_PACK, the port open and the bus offline (R263, R291). -/
def Chip.dropPack (c : Chip) (a : Nat) : Chip :=
  let c1 := (c.stopStage a).openPort a
  let x := c1.pack a
  let job := match x.job with
    | some (.read true both t g) => some (.read true both t g)
    | some (.cal k r) => some (.cal k r)
    | _ => none
  ((((((c1.setPack a { x with
    packRec := [], job := job, presentSince := none, debounced := false, accepted := false, targets := [], decodedAt := none,
    fenceSince := none, bmsFence := false, closeFails := 0 }).canOffline a).setPackState a 0).clr (Reg.Idb.PRESENT a)).clr
    (Reg.Idb.PACK_READ_OK a)).clr (Reg.Idb.SUMMARY_VALID a)).set (Reg.Idb.PACK_REMOVED a)

/-- PACK_REMOVED at the cell (R263): a live removal while PACK_EN is high, an unprepared one outside DETACH_READY while the
port is open; both end the tenure with a PACK_LOST row (R278). (notes/assumptions: 34 DEDUCED) -/
def Chip.packRemoved (c : Chip) (a : Nat) : Chip :=
  let st := c.packState a
  let live := c.on (Reg.Idb.PACK_EN_OUT a)
  let iPack := match c.roleValue a 3 with
    | some v => ofSigned 16 (fToInt v 20 (-32768) 32767)
    | none => 0
  if live then
    (((c.requestCommit a 5).dropPack a).set (Reg.Idb.LIVE_REMOVAL a)).cellFault a 1 0x12 iPack false false
  else if st ≠ 7 ∧ st ≠ 0 then ((c.requestCommit a 5).dropPack a).cellFault a 1 0x13 st false false
  else c.dropPack a

/-! ### The decoder (R260, R261) -/

/-- The bits of a big-endian field: from `start` down to bit 0 of its byte, then from bit 7 of the next one. -/
def bigBits (start : Nat) : Nat → List Nat
  | 0 => []
  | n + 1 => start :: bigBits (if start % 8 = 0 then start + 15 else start - 1) n

/-- The bit numbers of a field, least significant first. -/
def fieldBits (start len : Nat) (big : Bool) : List Nat :=
  if big then (bigBits start len).reverse else (List.range len).map (start + ·)

/-- The field of a message, if the message is long enough (R260). -/
def extract (data : List Nat) (start len : Nat) (big : Bool) : Option Nat :=
  let bs := fieldBits start len big
  if bs.all (fun b => decide (b < 8 * data.length)) then
    some (bs.foldr (fun b acc => acc * 2 + bits (data.getD (b / 8) 0) (b % 8) 1) 0)
  else none

/-- One signal item is applied to a frame (R260). -/
def Chip.applyItem (c : Chip) (a e : Nat) (f : CanFrame) : Chip :=
  let x := c.pack a
  if x.profWord e 0 % 2 ^ 30 ≠ f.id + bit f.ext * 2 ^ 29 then c
  else
    let w1 := x.profWord e 1
    let pos := bits w1 0 16
    let len := bits pos 10 5 + 1
    let k := bits w1 16 8
    if k = 0 ∨ 13 < k then c
    else
      match extract f.data (bits pos 0 9) len (decide (bits pos 9 1 = 1)) with
      | none => c.set (Reg.Idb.PROFILE_ERR a)
      | some raw =>
        let v : Int := if bits pos 15 1 = 1 then toSigned len raw else raw
        let val := fAdd (fMul (fInt v) (x.profWord e 2)) (x.profWord e 3)
        let t := bits w1 24 8
        let now := (c.ct a).time
        let tgt : TargetSt := ⟨val, now, (if t = 0 then 255 else t) * 2560000000⟩
        let fence := if k = 12 then
            if val % 2 ^ 31 = 0 then (none, false) else (some (x.fenceSince.getD now), x.bmsFence)
          else (x.fenceSince, x.bmsFence)
        c.setPack a { x with
          targets := insertKey k tgt x.targets, decodedAt := some now, fenceSince := fence.1, bmsFence := fence.2 }

/-- The decoder takes the head of the receive queue, applies every matching item and acknowledges the entry (R260). -/
def Chip.decodeHead (c : Chip) (a : Nat) : Chip :=
  match (c.can a).queue with
  | [] => c
  | f :: _ => ((List.range (c.pack a).nSignals).foldl (fun c j => c.applyItem a (3 + j) f) c).rxAck a

/-- A field of the mirror: the target times `k`, in 16 bits, or the code for a stale one (R262). -/
def Chip.mirrorField (c : Chip) (a tgt k : Nat) (signed : Bool) : Nat :=
  match c.target a tgt with
  | none => if signed then 0x8000 else 0xFFFF
  | some v => if signed then ofSigned 16 (fToInt v k (-32768) 32767) else (fToInt v k 0 65535).toNat

/-- The largest age of a target that is not stale, in 10 ms units, saturating; none where every target is stale.
(notes/assumptions: 40 DEDUCED) -/
def Chip.mirrorAge (c : Chip) (a : Nat) : Option Nat :=
  let now := (c.ct a).time
  let ages := ((c.pack a).targets.filter (fun t => decide (now ≤ t.2.at0 + t.2.timeout))).map (fun t => now - t.2.at0)
  if ages = [] then none else some (satNat 16 (ages.foldl max 0 / 2560000000))

/-- The BMS mirror record (R262); of its age with no target fresh the rules state no value.
(notes/assumptions: 2 DESIGN CHOICE, 40 DEDUCED) -/
def Chip.queueMirror (c0 : Chip) (a : Nat) : Chip :=
  let (age, c) := match c0.mirrorAge a with
    | some n => (n, c0)
    | none => let (v, c1) := c0.drawFree; (v % 65536, c1)
  let flags := c.bmsFlags a
  let f (t k : Nat) (sg : Bool) := leBytes 2 (c.mirrorField a t k sg)
  let pl := f 1 100 false ++ f 2 20 false ++ f 3 20 true ++ f 4 16 true ++ f 5 16 true ++ f 6 20 false ++ f 7 20 false
    ++ f 8 10 false ++ f 9 1000 false ++ f 10 1000 false ++ leBytes 2 flags ++ leBytes 2 age
  (c.setPack a { c.pack a with lastFlags := flags }).queueBulk a 3 pl

/-! ### Commands that touch the cell alone -/

/-- READ_IDS (R270). -/
def execReadIds (a : CellAddr) (s : State) : Host.Outcome State Fault Refusal :=
  s.run fun c => if c.cellIsS a then c else (c.readIds a).2

/-- PACK_ACCEPT (R270). -/
def execPackAccept (a : CellAddr) (s : State) : Host.Outcome State Fault Refusal :=
  s.run fun c => if c.cellIsS a then c else (c.packAccept a).2

/-- PACK_REFUSE (R270). -/
def execPackRefuse (a : CellAddr) (s : State) : Host.Outcome State Fault Refusal :=
  s.run fun c => if c.cellIsS a then c else (c.packRefuse a).2

/-- PORT_CLOSE (R264). -/
def execPortClose (a : CellAddr) (s : State) : Host.Outcome State Fault Refusal :=
  s.run fun c => if c.cellIsS a then c else (c.portClose a).2

/-- PORT_OPEN (R264). -/
def execPortOpen (a : CellAddr) (s : State) : Host.Outcome State Fault Refusal :=
  s.run fun c => if c.cellIsS a then c else (c.portOpen a 1).2

/-- DETACH of the pack port (R270). -/
def execPackDetach (a : CellAddr) (s : State) : Host.Outcome State Fault Refusal :=
  s.run fun c => if c.cellIsS a then c else (c.portOpen a 2).2

/-- SUMMARY_WRITE (R255). -/
def execSummaryWrite (a : CellAddr) (s : State) : Host.Outcome State Fault Refusal :=
  s.run fun c => if c.cellIsS a then c else (c.summaryWrite a).2

/-- CAL_WRITE (R256). -/
def execCalWrite (a : CellAddr) (s : State) : Host.Outcome State Fault Refusal :=
  s.run fun c => if c.cellIsS a then c else (c.calWrite a).2

/-- PACK_FENCE (R270). -/
def execPackFence (a : CellAddr) (s : State) : Host.Outcome State Fault Refusal :=
  s.run fun c => if c.cellIsS a then c else (c.packFence a).2

/-- PACK_UNFENCE (R270). -/
def execPackUnfence (a : CellAddr) (s : State) : Host.Outcome State Fault Refusal :=
  s.run fun c => if c.cellIsS a then c else (c.packUnfence a).2

/-- What a management access answered, kept as the cell's last entry result (R105). -/
def Chip.answer (_c : Chip) (a : Nat) (r : Nat × Nat × Chip) : Chip :=
  let (res, v, c1) := r
  c1.setCmd a { c1.cmd a with result := res, data := v }

/-- REC_DATA_ACCESS (R270). -/
def execRecDataAccess (a : CellAddr) (write : Option Word) (s : State) : Host.Outcome State Fault Refusal :=
  s.run fun c => if c.cellIsS a then c else c.answer a (c.recData a (write.map BitVec.toNat))

/-- PROF_DATA_ACCESS (R270, R291). -/
def execProfDataAccess (a : CellAddr) (write : Option Word) (s : State) : Host.Outcome State Fault Refusal :=
  s.run fun c => if c.cellIsS a then c else c.answer a (c.profData a (write.map BitVec.toNat))

/-- PROFILE_DECODE (R260). -/
def execProfileDecode (a : CellAddr) (dt : Nat) (s : State) : Host.Outcome State Fault Refusal :=
  s.run fun c => (c.cellAdvance a dt).decodeHead a

/-- PROFILE_TARGET_STALE (R261): the target's age has passed its TIMEOUT. -/
def execProfileTargetStale (a : CellAddr) (dt : Nat) (code : Fin 14) (s : State) : Host.Outcome State Fault Refusal :=
  s.run fun c0 =>
    let c := c0.cellAdvance a dt
    match findKey code.val (c.pack a).targets with
    | none => c
    | some t =>
      if t.at0 + t.timeout < (c.ct a).time then
        c.setPack a { c.pack a with targets := eraseKey code.val (c.pack a).targets }
      else c

/-- BMS_FENCE_DEBOUNCE (R261): the FENCE target non-zero for FENCE_DEBOUNCE. -/
def execBmsFenceDebounce (a : CellAddr) (dt : Nat) (s : State) : Host.Outcome State Fault Refusal :=
  s.run fun c0 =>
    let c := c0.cellAdvance a dt
    let x := c.pack a
    match x.fenceSince with
    | some t =>
      if t + bits (x.profWord 0 1) 8 8 * 25600000000 ≤ (c.ct a).time then c.setPack a { x with bmsFence := true } else c
    | none => c

/-- PROFILE_TX_DUE (R260, R292): a periodic item is loaded into its buffer, or skipped while that is pending. -/
def execProfileTxDue (a : CellAddr) (dt : Nat) (k : Fin 2) (s : State) : Host.Outcome State Fault Refusal :=
  s.run fun c0 =>
    let c := c0.cellAdvance a dt
    let x := c.pack a
    let id := x.profWord (1 + k) 0
    if id % 2 ^ 29 = 0 ∨ c.rd (Reg.Can.CAN_STATE a) = 0 then c
    else if ((c.can a).buf k).isSome then (c.inc (Reg.Can.TX_SKIPPED a)).set (Reg.Can.TX_SKIPPED_SEEN a)
    else
      let w1 := x.profWord (1 + k) 1
      let data := leBytes 4 (x.profWord (1 + k) 2) ++ leBytes 4 (x.profWord (1 + k) 3)
      (c.sendBuf a k ⟨id % 2 ^ 29, decide (bits id 29 1 = 1), false, false, false, false, data.take (min (bits w1 0 8) 8), 0⟩
        false).2

/-- BMS_MIRROR_DUE (R262): with a profile loaded, the mirror record is queued. -/
def execBmsMirrorDue (a : CellAddr) (dt : Nat) (s : State) : Host.Outcome State Fault Refusal :=
  s.run fun c0 =>
    let c := c0.cellAdvance a dt
    if (c.pack a).loaded then c.queueMirror a else c

/-- ID_NACK_RETRY (R253): the read that the memory did not acknowledge is tried again, three times; then the memory counts as
absent. -/
def Chip.nackRetry (c : Chip) (a : Nat) : Bool × Chip :=
  match (c.pack a).job with
  | some (.read stage both tries again) =>
    let c1 := c.inc (Reg.Idb.ID_NACK_COUNT a)
    if tries < 3 then (false, c1.setPack a { c1.pack a with job := some (.read stage both (tries + 1) again) })
    else c1.recordRead a stage both [] false
  | _ => (false, c)

end Sys2Proof.Machine
end

