-- ==== Sys2Proof/Machine/Measure.lean ====
section
/-! DEFINITION. Cell measurement (chapter 10, cell side): conversion plans, the converter, the result buffer, frozen values,
calibration points, the correlators, and the captures of R352. -/

namespace Sys2Proof.Machine

/-! ### Plans (R233 to R235) -/

/-- The built-in boot plan: AIN0 to AIN11 at k × 800 ns, all in class diagnostics (R234). -/
def bootPlan : List Nat := (List.range 12).map (fun k => k + 4 * 32 + 1000 * k * 1024)

/-- AIN of a plan entry. -/
def entryAin (e : Nat) : Nat := bits e 0 4

/-- CLASS of a plan entry. -/
def entryClass (e : Nat) : Nat := bits e 5 3

/-- FIRST and COUNT of plan `pl` (R233). -/
def Chip.planDir (c : Chip) (a pl : Nat) : Nat × Nat :=
  let d := c.rd (Reg.Adc.PLAN_DIR a pl)
  (bits d 0 8, bits d 8 8)

/-- The entries of the plan in force, as a frame start reads them (R233, R234). -/
def Chip.planEntries (c : Chip) (a : Nat) : List Nat :=
  if c.on (Reg.Adc.BOOT_PLAN a) then bootPlan
  else
    let (first, count) := c.planDir a (c.rd (Reg.Adc.PLAN_NOW a))
    (List.range count).map (fun j => mapGet 0 (c.meas1 a).planMem ((first + j) % 256))

/-- The frame start reads the plan in force (R233). -/
def Chip.loadPlan (c : Chip) (a : Nat) : Chip := c.setMeas a { c.meas1 a with loaded := c.planEntries a }

/-- Is channel `n` usable at the cell: VALID, and not waiting for its ROT word (R92, R235)? -/
def Chip.chanUsable (c : Chip) (a n : Nat) : Bool := (c.ct a).valid.getD n false && !(c.ct a).waitRot.getD n false

/-! ### Correlators (R244 to R246) -/

/-- Records of type 1 that wait for their acknowledgement and belong to correlator `k`. -/
def Chip.corrHeld (c : Chip) (a k : Nat) : Bool :=
  (c.cmd a).bulkQ.any (fun r => decide (r.typ = 1) && decide (r.payload.getD 0 0 % 4 = k))

/-- The status byte of correlator `k` (R246). -/
def Chip.corrStatus (c : Chip) (a k : Nat) : Nat :=
  let x := c.corr a k
  x.phase + 8 * bit (c.corrHeld a k) + 16 * bit x.aborted + 32 * bit x.ovr + 64 * (x.windows % 4)

/-- Does the angle of channel `n` pass through 0 in the frame that ends (R245)? -/
def CTimeSt.passesZero (t : CTimeSt) (n periodNs : Nat) : Bool :=
  let x : Int := (t.est.getD n 0 * 65536 + t.estFrac.getD n 0 : Nat)
  let y := x + t.rates.getD n 0 * periodNs
  decide (2 ^ 48 ≤ y) || decide (0 < x ∧ y ≤ 0)

/-- An armed correlator whose reference passes through 0 counts its SETTLE turns from there (R245). -/
def Chip.settleCorr (c : Chip) (a : Nat) (t : CTimeSt) (periodNs : Nat) : Chip :=
  [0, 1, 2, 3].foldl (fun c k =>
    let ch := c.rd (Reg.Corr.REF_CH a k)
    if (c.corr a k).phase = 1 ∧ t.valid.getD ch false = true ∧ t.waitRot.getD ch false = false ∧ t.passesZero ch periodNs = true then
      c.setCorr a k { c.corr a k with phase := 2 } else c) c

/-- The status bytes follow the correlators. -/
def Chip.syncCorr (c : Chip) (a : Nat) : Chip :=
  [0, 1, 2, 3].foldl (fun c k => c.wr (Reg.Corr.CORR_STATUS a k) (c.corrStatus a k)) c

/-- A report has been written: the aborts that the status bytes showed belong to it (R246). -/
def Chip.corrReported (c : Chip) (a : Nat) : Chip :=
  [0, 1, 2, 3].foldl (fun c k =>
    if (c.corr a k).aborted then
      let c1 := c.setCorr a k { c.corr a k with aborted := false }
      c1.wr (Reg.Corr.CORR_STATUS a k) (c1.corrStatus a k)
    else c) c

/-- Correlator `k` is armed, or re-armed (R245). -/
def Chip.armCorr (c : Chip) (a k : Nat) : Chip :=
  let x := c.corr a k
  c.setCorr a k { x with phase := 1, accC := 0, accS := 0, accX := 0, n := 0, ovr := false }

/-- A window of correlator `k` is aborted, with its count; the correlator goes to `phase` (R245).
(notes/assumptions: 36 DEDUCED) -/
def Chip.abortCorr (c : Chip) (a k phase : Nat) : Chip :=
  let x := c.corr a k
  let c1 := if x.phase = 3 then c.inc (Reg.Corr.ABORT_COUNT a k) else c
  c1.setCorr a k { x with phase := phase, aborted := x.aborted || decide (x.phase = 3) }

/-- May correlators run in the cell's state (R244)? -/
def Chip.corrState (c : Chip) (a : Nat) : Bool := decide (4 ≤ c.cellState a ∧ c.cellState a ≤ 6)

/-- CORR_EN of the command in force (R244, R245): a bit that rises arms its correlator, one that clears aborts it. -/
def Chip.setCorrEn (c : Chip) (a mask : Nat) : Chip :=
  let m := c.meas1 a
  let new := if c.corrState a then mask % 16 else 0
  ([0, 1, 2, 3].foldl (fun c k =>
    if bits new k 1 = 1 then (if (c.corr a k).phase = 0 then c.armCorr a k else c)
    else if (c.corr a k).phase = 0 then c else c.abortCorr a k 0) (c.setMeas a { m with corrEnNow := new })).syncCorr a

/-- CORR_RESTART (R245): aborts and re-arms the correlators named that run. -/
def Chip.corrRestart (c : Chip) (a mask : Nat) : Chip :=
  ([0, 1, 2, 3].foldl (fun c k =>
    if bits mask k 1 = 1 ∧ (c.corr a k).phase ≠ 0 then (c.abortCorr a k 1).armCorr a k else c) c).syncCorr a

/-- Every running window is aborted and its correlator armed again: the plan in force changed (R245). -/
def Chip.abortAll (c : Chip) (a : Nat) : Chip :=
  ([0, 1, 2, 3].foldl (fun c k => if (c.corr a k).phase = 0 then c else c.abortCorr a k 1) c).syncCorr a

/-- The phase, in ac, of the reference of correlator `k` at cell time `t` (2^-8 ns): HARM × angle (R244, R60). -/
def Chip.corrPhase (c : Chip) (a k t : Nat) : Nat :=
  let s := c.ct a
  let ch := c.rd (Reg.Corr.REF_CH a k)
  let h := c.rd (Reg.Corr.HARM a k)
  let ang := ((((s.est.getD ch 0 * 2 ^ 24 : Nat) : Int) + s.rates.getD ch 0 * ((t : Int) - s.frameStart)) / 2 ^ 24)
  (((if h = 0 then 1 else h : Nat) : Int) * (ang % (2 ^ 32 : Int)) % (2 ^ 32 : Int)).toNat

/-- A sine or cosine of the correlator, in units of 2^-48: true to 2^-20 (R244); by how much it is off the rules leave open. -/
def corrTrig (exact : Int) (place : Nat) : Int := exact + clampInt (-(2 ^ 28)) (2 ^ 28) (Config.sineError place)

/-- A clean conversion of value `x` (binary32) adds to the sums of correlator `k` (R244). (notes/assumptions: 43 DEDUCED) -/
def Chip.accumulate (c : Chip) (a k t x : Nat) : Chip :=
  let y := c.corr a k
  let ph := c.corrPhase a k t
  let v := f32.dec x
  let add (acc : Nat) (w : Fp) := f64.enc ((f64.dec acc).add (v.mul w))
  c.setCorr a k { y with
    accC := add y.accC (Fp.ofRat (corrTrig (cosTurn ph) (2 * ph)) (2 ^ 48))
    accS := add y.accS (Fp.ofRat (corrTrig (sinTurn ph) (2 * ph + 1)) (2 ^ 48))
    accX := add y.accX (Fp.ofInt 1)
    n := y.n + 1 }

/-- X_RE, X_IM and X_DC of a window (R244), binary32. -/
def CorrSt.result (x : CorrSt) : Nat × Nat × Nat :=
  let f (acc : Nat) (k : Int) := f32.enc (((f64.dec acc).mul (Fp.ofInt k)).div (Fp.ofInt x.n))
  (f x.accC 2, f x.accS (-2), f x.accX 1)

/-- A window of correlator `k` ends (R246): its result and its record, or a lost one where eight are held. -/
def Chip.endWindow (c : Chip) (a k : Nat) : Chip :=
  let x := c.corr a k
  let (re, im, dc) := x.result
  let endNs := (c.ct a).time / 256
  let t := c.rd (Reg.Corr.TURNS a k)
  let h := c.rd (Reg.Corr.HARM a k)
  let pl := [k + 4 * c.rd (Reg.Corr.REF_CH a k) + 16 * c.rd (Reg.Corr.INPUT a k), if h = 0 then 1 else h]
    ++ leBytes 2 (if t = 0 then 1 else t) ++ leBytes 4 x.start ++ leBytes 4 endNs ++ leBytes 4 re ++ leBytes 4 im
    ++ leBytes 4 dc ++ leBytes 3 (satNat 24 x.n) ++ [bit x.ovr + 2 * bit (decide (x.n < 256))]
    ++ leBytes 2 ((c.cmd a).frozen.getD 6 0x8000) ++ leBytes 2 ((x.windows + 1) % 65536)
    ++ leBytes 4 (x.start / 2 ^ 32) ++ leBytes 4 (endNs / 2 ^ 32)
  let c1 := (c.wr (Reg.Corr.CORR_RE a k) re).wr (Reg.Corr.CORR_IM a k) im
  let c2 := if c.bulkHeld a 1 < 8 then c1.queueBulk a 1 pl else c1.inc (Reg.Corr.CORR_LOST a k)
  ((c2.setCorr a k { x with windows := x.windows + 1 }).armCorr a k).syncCorr a

/-! ### CONV_PLAN (R234) -/

/-- The command's CONV_PLAN at its execution frame start: the plan in force, or a count of a bad value. -/
def Chip.convPlan (c : Chip) (a v : Nat) : Chip :=
  if 8 ≤ v ∨ (c.planDir a v).2 = 0 then (c.inc (Reg.Adc.PLAN_BAD_COUNT a)).set (Reg.Adc.PLAN_BAD a)
  else if c.rd (Reg.Adc.PLAN_NOW a) = v ∧ c.on (Reg.Adc.BOOT_PLAN a) = false then c
  else
    let c1 := (c.wr (Reg.Adc.PLAN_NOW a) v).clr (Reg.Adc.BOOT_PLAN a)
    (c1.setMeas a { c1.meas1 a with waiting := [] }).abortAll a

/-! ### Captures (R352) -/

/-- The newest `n` entries of the result buffer, oldest first. -/
def Chip.lastEntries (c : Chip) (a n : Nat) : List (Nat × Nat) :=
  let head := c.rd (Reg.Adc.BUF_HEAD a)
  let total := min n (if c.rd (Reg.Adc.BUF_WRAPS a) = 0 then head else 1024)
  (List.range total).map (fun j => mapGet (0, 0) (c.meas1 a).buf ((head + 1024 - total + j) % 1024))

/-- A protection action starts a capture, or is counted as skipped where two are held (R352). -/
def Chip.startCapture (c : Chip) (a cause : Nat) : Chip :=
  let x := c.capture a
  if x.runs.length + (c.bulkHeld a 4 + 1) / 2 < 2 then
    c.setCapture a { x with
      seq := (x.seq + 1) % 65536, skipped := 0
      runs := x.runs ++ [⟨x.seq, x.skipped, cause, (c.ct a).time, c.lastEntries a 60, []⟩] }
  else c.setCapture a { x with skipped := satNat 7 (x.skipped + 1) }

/-- A buffer entry enters every capture that still gathers. -/
def Chip.feedCaptures (c : Chip) (a : Nat) (e : Nat × Nat) : Chip :=
  let x := c.capture a
  if x.runs = [] then c
  else c.setCapture a { x with
    runs := x.runs.map (fun r => if r.after.length < 60 then { r with after := r.after ++ [e] } else r) }

/-- The payload of a capture record (R352). -/
def capturePayload (r : CapRun) (part : Nat) (es : List (Nat × Nat)) : List Nat :=
  leBytes 2 r.seq ++ [part + 2 * r.skipped, r.cause] ++ leBytes 4 (r.at0 / 256)
    ++ es.flatMap (fun e => leBytes 4 e.1 ++ leBytes 4 e.2)

/-- CELL_CAPTURE_WINDOW_END (R352): 60 entries after the action, or 1 ms; two bulk records of type 4.
(notes/assumptions: 44 DEDUCED) -/
def execCellCaptureWindowEnd (a : CellAddr) (dt : Nat) (s : State) : Host.Outcome State Fault Refusal :=
  s.run fun c0 =>
    let c := c0.cellAdvance a dt
    let x := c.capture a
    match x.runs with
    | [] => c
    | r :: rest =>
      if 60 ≤ r.after.length ∨ r.at0 + 256000000 ≤ (c.ct a).time then
        ((c.setCapture a { x with runs := rest }).queueBulk a 4 (capturePayload r 0 r.before)).queueBulk a 4
          (capturePayload r 1 r.after)
      else c

/-! ### Conversions (R235, R236, R238, R241) -/

/-- CONVERSION_DUE (R235): entry `i` of the plan in force falls due; an angle entry only while its channel is usable. -/
def execConversionDue (a : CellAddr) (dt i : Nat) (s : State) : Host.Outcome State Fault Refusal :=
  s.run fun c0 =>
    let c := c0.cellAdvance a dt
    let m := c.meas1 a
    match m.loaded[i]? with
    | none => c
    | some e =>
      if c.cellState a = 0 ∨ (bits e 4 1 = 1 ∧ c.chanUsable a (bits e 10 2) = false) then c
      else c.setMeas a { m with waiting := m.waiting ++ [⟨i, e, c.cellTick a, 0, false⟩] }

/-- Does request `x` precede `y` (R236)? -/
def convBefore (x y : ConvReq) : Bool :=
  let kx := (entryClass x.entry, x.due, x.idx)
  let ky := (entryClass y.entry, y.due, y.idx)
  decide (kx.1 < ky.1) || (decide (kx.1 = ky.1) && (decide (kx.2.1 < ky.2.1)
    || (decide (kx.2.1 = ky.2.1) && decide (kx.2.2 < ky.2.2))))

/-- The waiting request of highest precedence. -/
def bestConv : List ConvReq → Option ConvReq
  | [] => none
  | x :: xs =>
    match bestConv xs with
    | none => some x
    | some y => if convBefore y x then some y else some x

/-- CONVERSION_START (R236): the free ADC takes the request of highest precedence, or a calibration conversion when none waits. -/
def execConversionStart (a : CellAddr) (dt : Nat) (s : State) : Host.Outcome State Fault Refusal :=
  s.run fun c0 =>
    let c := c0.cellAdvance a dt
    let m := c.meas1 a
    let now := c.cellTick a
    let begin_ (c : Chip) (m' : MeasSt) (r : ConvReq) : Chip :=
      ((c.setMeas a { m' with busy := some r }).set (Reg.Adc.BUSY a)).wr (Reg.Adc.MUX_NOW a) (entryAin r.entry)
    if m.busy.isSome ∨ c.cellState a = 0 then c
    else
      match bestConv m.waiting with
      | some r =>
        let r1 : ConvReq := { r with started := (c.ct a).time, delayed := decide (r.due < now) }
        let c1 := begin_ c { m with waiting := m.waiting.erase r } r1
        if r.due < now then c1.inc (Reg.Adc.CONV_DELAYED a) else c1
      | none =>
        match m.cal with
        | some p => if 0 < p.left then begin_ c m ⟨256, p.ain + 2 * 32, now, (c.ct a).time, false⟩ else c
        | none => c

/-- CONVERSION_DROPPED (R236): not started 2,000 ns after it fell due; a fault for classes protection and control. -/
def execConversionDropped (a : CellAddr) (dt i : Nat) (s : State) : Host.Outcome State Fault Refusal :=
  s.run fun c0 =>
    let c := c0.cellAdvance a dt
    let m := c.meas1 a
    match m.waiting.find? (fun r => decide (r.idx = i) && decide (r.due + 2500 ≤ c.cellTick a)) with
    | none => c
    | some r =>
      let c1 := ((c.setMeas a { m with waiting := m.waiting.erase r }).inc (Reg.Adc.CONV_DROPPED a)).set
        (Reg.Adc.CONV_DROP_SEEN a)
      if entryClass r.entry ≤ 1 then
        c1.cellFault a 1 0x09 (entryAin r.entry + entryClass r.entry * 16) false false
      else c1

/-- The buffer takes an entry at BUF_HEAD (R238). -/
def Chip.pushEntry (c : Chip) (a : Nat) (e : Nat × Nat) : Chip :=
  let m := c.meas1 a
  let h := c.rd (Reg.Adc.BUF_HEAD a)
  let c1 := (c.setMeas a { m with buf := mapSet (0, 0) m.buf h e }).inc (Reg.Adc.BUF_HEAD a)
  (if h = 1023 then c1.inc (Reg.Adc.BUF_WRAPS a) else c1).feedCaptures a e

/-- CAPACITOR_HOLD (R222): a clean V_CAP conversion above V_HOLD bypasses the sub-module; one below the hysteresis ends it. -/
def Chip.capHold (c : Chip) (a value : Nat) : Chip :=
  let v := f32.dec value
  let th : Int := c.rd (Reg.Prot.V_HOLD a)
  let held := c.on (Reg.Prot.LOCAL_HOLD a)
  if th ≠ 0xFFFF ∧ (Fp.ofRat th 20).lt v = true ∧ held = false then
    (((((c.set (Reg.Prot.LOCAL_HOLD a)).set (Reg.Prot.HOLD_SEEN a)).inc (Reg.Prot.HOLD_COUNT a)).cellFault a 1 0x07
      (fToInt value 20 0 65535).toNat false false).startCapture a 0x07).retarget a true
  else if v.lt (Fp.ofRat (th - c.rd (Reg.Prot.V_HOLD_HYST a)) 20) = true ∧ held = true
      ∧ (c.on (Reg.CId.FENCE_RECORD a) && c.on (Reg.CId.FENCE_HARD a)) = false then
    (c.clr (Reg.Prot.LOCAL_HOLD a)).retarget a false
  else c

/-- PORT_CLOSED (R264): a clean PORT_FB_CH conversion within PORT_V_TOL of the V_PACK role value. A pack that opens takes its
counts and its PACK_OPEN row (R274, R278). -/
def Chip.portFeedback (c : Chip) (a value : Nat) : Chip :=
  match (c.pack a).closing, c.roleValue a 2 with
  | some t, some vp =>
    let d := f32.dec (fAbs (fSub value vp))
    let tol := Fp.ofRat (c.rd (Reg.Idb.PORT_V_TOL a)) 10
    if (c.ct a).time ≤ t + c.rd (Reg.Idb.PORT_CLOSE_T a) * 2560000000 ∧ c.packState a = 5 ∧ tol.lt d = false then
      let c1 := (c.setPack a { c.pack a with closing := none, closeFails := 0 }).setPackState a 6
      let uid := packUid (c.pack a).packRec
      let same := match (c.ledger a).openUid with
        | some (u, _) => decide (u = uid)
        | none => false
      if same then c1 else (c1.loadCounts a).requestCommit a 1
    else c
  | _, _ => c

/-- Is the capture of a bypass confirmation open, and is this raw code below BYP_CONFIRM_CODE (R223)? -/
def Chip.bypFeedback (c : Chip) (a : Nat) (ain : Nat) (code : Int) : Chip :=
  let g := c.gate a
  match g.confirmFrom with
  | some t =>
    if ain = c.rd (Reg.Prot.BYP_FB_CH a) ∧ code < c.rdI (Reg.Prot.BYP_CONFIRM_CODE a)
        ∧ (c.ct a).time ≤ t + c.rd (Reg.Prot.BYP_CONFIRM_T a) * 256000000 then
      (c.setGate a { g with confirmFrom := none }).set (Reg.Prot.BYP_CONFIRMED a)
    else c
  | none => c

/-- A calibration point takes a conversion of its input (R243): clean ones count, others are noted. -/
def CalPoint.take (p : CalPoint) (code : Int) (clean ovr : Bool) : CalPoint :=
  if clean then
    let first := decide (p.left = p.total)
    { p with
      left := p.left - 1, sum := p.sum + code
      least := if first then code else min p.least code
      most := if first then code else max p.most code }
  else { p with ovr := p.ovr + bit ovr }

/-- The frame period of the cell, 2^-8 ns. -/
def Chip.cellPeriod (c : Chip) (a : Nat) : Nat := if (c.ct a).frame20 then 5120000 else 2560000

/-- What a clean conversion feeds: freeze values, the capacitor hold, the meter, the battery port, the correlators (R238). -/
def Chip.feedClean (c : Chip) (a ain : Nat) (code : Int) (started : Nat) : Chip :=
  let m := c.meas1 a
  let value := m.value ain code
  let c1 := c.setMeas a { m with latest := insertKey ain ⟨code, started, c.cellTick a⟩ m.latest }
  let c2 := [0, 1, 2, 3].foldl (fun c k =>
    if (c.corr a k).phase = 3 ∧ c.rd (Reg.Corr.INPUT a k) = ain ∧ (c.corr a k).start * 256 ≤ started then
      c.accumulate a k started value
    else c) c1
  if c.cellIsS a then c2
  else
    let c3 := if ain = c.role a 0 then c2.capHold a value else c2
    let c4 := if ain = c.role a 3 then
        let v := match findKey (c.role a 2) m.latest with
          | some x => if started ≤ x.at0 + c.cellPeriod a then some (m.value (c.role a 2) x.code) else none
          | none => none
        c3.meterStep a started value (c.cellPeriod a) v
      else c3
    if ain = c.rd (Reg.Idb.PORT_FB_CH a) then c4.portFeedback a value else c4

/-- A conversion of `req` ends with the exact code `raw`, before the converter's clamp (R238, R241). -/
def Chip.completeConv (c : Chip) (a : Nat) (req : ConvReq) (raw : Int) : Chip :=
  let m := c.meas1 a
  let code := clampInt (-32768) 32767 raw
  let ovr := decide (code ≠ raw)
  let settling := m.settling && !ovr
  let clean := !ovr && !settling
  let ain := entryAin req.entry
  let c1 := c.setMeas a { m with
    busy := none, settling := ovr
    ovrTotal := m.ovrTotal + bit ovr
    cal := if entryClass req.entry = 2 ∧ req.idx = 256 then m.cal.map (fun p => p.take code clean ovr) else m.cal }
  let c2 := (c1.clr (Reg.Adc.BUSY a)).inc (Reg.Adc.CONV_COUNT a)
  let c3 := if ovr then
      let c4 := (c2.set (Reg.Adc.OVR_STICKY a)).inc (Reg.Adc.OVR_COUNT a)
      c4.setCmd a { c4.cmd a with ovrSeen := true }
    else if settling then c2.inc (Reg.Adc.SETTLING_COUNT a) else c2
  let w0 := ofSigned 16 code + ain * 2 ^ 16 + bit ovr * 2 ^ 20 + bit settling * 2 ^ 21 + bits req.entry 4 1 * 2 ^ 22
    + entryClass req.entry * 2 ^ 23 + bit req.delayed * 2 ^ 26
  let c5 := (c3.pushEntry a (w0, req.started / 256 % 2 ^ 32)).bypFeedback a ain code
  let c6 := if clean then c5.feedClean a ain code req.started
    else [0, 1, 2, 3].foldl (fun c k =>
      if (c.corr a k).phase = 3 ∧ c.rd (Reg.Corr.INPUT a k) = ain then c.setCorr a k { c.corr a k with ovr := true } else c) c5
  let slot := decide (req.idx ≠ 256) && decide (bits req.entry 8 1 = 1) && !c.cellIsS a
  (if slot then c6.bcRun a (req.started * 5 / 1024) (if clean then some (m.value ain code) else none) else c6).syncCorr a

/-- PLAN_DATA_ACCESS (R233): a read or a write of the entry at PLAN_IDX, which then moves on. -/
def Chip.planData (c : Chip) (a : Nat) (write : Option Nat) : Nat × Nat × Chip :=
  let i := c.rd (Reg.Adc.PLAN_IDX a)
  let m := c.meas1 a
  match write with
  | none => (1, mapGet 0 m.planMem i, c.inc (Reg.Adc.PLAN_IDX a))
  | some v => (1, v, (c.setMeas a { m with planMem := mapSet 0 m.planMem i v }).inc (Reg.Adc.PLAN_IDX a))

/-- PLAN_DATA_ACCESS (R233). -/
def execPlanDataAccess (a : CellAddr) (write : Option Word) (s : State) : Host.Outcome State Fault Refusal :=
  s.run fun c => c.answer a (c.planData a (write.map BitVec.toNat))

/-- CONV_PLAN (R234): the command's CONV_PLAN at its execution frame start, whose plan the frame start then reads. -/
def execConvPlan (a : CellAddr) (v : Fin 256) (s : State) : Host.Outcome State Fault Refusal :=
  s.run fun c => (c.convPlan a v).loadPlan a

/-- BUF_W0_READ (R238, R5): word 0 of the entry at BUF_SEL, and word 1 into its snapshot. -/
def Chip.bufRead (c : Chip) (a : Nat) : Chip :=
  let e := mapGet (0, 0) (c.meas1 a).buf (c.rd (Reg.Adc.BUF_SEL a))
  ((c.wr (Reg.Adc.BUF_W0 a) e.1).wr (Reg.Adc.BUF_W1 a) e.2).latchCell (Reg.Adc.BUF_W1 a)

/-- BUF_W0_READ (R238, R5). -/
def execBufW0Read (a : CellAddr) (s : State) : Host.Outcome State Fault Refusal :=
  s.run fun c => c.answer a (1, (mapGet (0, 0) (c.meas1 a).buf (c.rd (Reg.Adc.BUF_SEL a))).1, c.bufRead a)

/-! ### Calibration points at the cell (R242, R243) -/

/-- CAL_VALID and CAL_LOADED follow the coefficients written since OFF (R242): a WN140-S has five roles; T_PACK needs an input
only where ROLE_MAP takes it from one. -/
def Chip.syncCal (c : Chip) (a : Nat) : Chip :=
  let m := c.meas1 a
  let valid := m.ofsSet &&& m.gainSet
  let roles := if c.cellIsS a then [0, 1, 2, 3, 4]
    else if c.on (Reg.Adc.T_PACK_BMS a) || c.on (Reg.Adc.T_PACK_NONE a) then [0, 1, 2, 3, 4, 5] else [0, 1, 2, 3, 4, 5, 6]
  (c.wr (Reg.Adc.CAL_VALID a) valid).wrB (Reg.Adc.CAL_LOADED a)
    (roles.all (fun k => decide (bits valid (c.role a k) 1 = 1)))

/-- The offset or gain of the input CAL_SEL is written (R242). -/
def Chip.writeCoef (c : Chip) (a : Nat) (gain : Bool) (v : Nat) : Chip :=
  let m := c.meas1 a
  let i := c.rd (Reg.Adc.CAL_SEL a)
  let m1 : MeasSt := if gain then { m with gain := mapSet 0 m.gain i v, gainSet := m.gainSet ||| 2 ^ i }
    else { m with ofs := mapSet 0 m.ofs i (v % 65536), ofsSet := m.ofsSet ||| 2 ^ i }
  (c.setMeas a m1).syncCal a

/-- N_LOG2 as it reads: 4 to 16; other values read as 12 (R243). -/
def calN (v : Nat) : Nat := if 4 ≤ v ∧ v ≤ 16 then v else 12

/-- CAL_GO at a cell (R243): only FENCED, and not while a point runs. -/
def Chip.cellCalGo (c : Chip) (a : Nat) : Chip :=
  let m := c.meas1 a
  if c.cellState a = 8 ∧ m.cal = none then
    let n := 2 ^ calN (c.rd (Reg.Adc.CAL_N_LOG2 a))
    c.setMeas a { m with cal := some ⟨c.rd (Reg.Adc.CAL_SEL a), n, n, 0, 0, 0, 0, (c.ct a).time⟩ }
  else c.set (Reg.Adc.CAL_FAILED a)

/-- The values frozen at a frame start (R239): each role's latest clean conversion of the last P, in the field's unit; a field
without one keeps its value. The second answer is SAMPLE_VALID: every role found one, the coefficients are loaded, and a WN140-S is
neither FENCED nor, under GATE, without PLL lock (R226, R47). -/
def Chip.freeze (c : Chip) (a : Nat) : List Nat × Bool :=
  let m := c.meas1 a
  let old := (c.cmd a).frozen
  let now := (c.ct a).time
  let loaded := c.on (Reg.Adc.CAL_LOADED a)
  let conv (v k : Nat) (signed : Bool) : Nat :=
    if signed then ofSigned 16 (fToInt v k (-32768) 32767) else (fToInt v k 0 65535).toNat
  let field (k unit : Nat) (signed : Bool) : Option Nat :=
    match findKey (c.role a k) m.latest with
    | some x => if now ≤ x.at0 + c.cellPeriod a ∧ x.done < c.cellTick a then
        some (conv (m.value (c.role a k) x.code) unit signed) else none
    | none => none
  if c.cellIsS a then
    let fs := [0, 1, 2, 3, 4].map (fun k => field k 1 true)
    (((List.range 5).map (fun k => (fs.getD k none).getD (old.getD k 0))) ++ [old.getD 5 0, 0x8000],
      fs.all Option.isSome && loaded && decide (c.cellState a ≠ 8) && !(c.on (Reg.CTime.LOSS_ACTION a) && !(c.ct a).pll.locked))
  else
    let tp : Option Nat := if c.on (Reg.Adc.T_PACK_NONE a) then some 0x8000
      else if c.on (Reg.Adc.T_PACK_BMS a) then
        (if bits ((c.pack a).profWord 0 1) 16 1 = 1 then
          some (match c.target a 4 with | some v => conv v 16 true | none => 0x8000)
        else some 0x8000)
      else field 6 16 true
    let fs := [field 0 20 false, field 1 10 true, field 2 20 false, field 3 20 true, field 4 20 true, field 5 16 true, tp]
    ((List.range 7).map (fun k => (fs.getD k none).getD (old.getD k 0)), fs.all Option.isSome && loaded)

/-! ### Correlator commands -/

/-- CORR_EN (R245). -/
def execCorrEn (a : CellAddr) (mask : Fin 16) (s : State) : Host.Outcome State Fault Refusal :=
  s.run fun c => c.setCorrEn a mask

/-- CORR_RESTART (R245). -/
def execCorrRestart (a : CellAddr) (mask : Fin 16) (s : State) : Host.Outcome State Fault Refusal :=
  s.run fun c => c.corrRestart a mask

/-- CORR_WINDOW_START (R245): a passage through 0 after SETTLE turns from arming, on a usable reference. -/
def execCorrWindowStart (a : CellAddr) (dt : Nat) (k : Fin 4) (s : State) : Host.Outcome State Fault Refusal :=
  s.run fun c0 =>
    let c := c0.cellAdvance a dt
    let x := c.corr a k
    if (x.phase = 1 ∨ x.phase = 2) ∧ c.chanUsable a (c.rd (Reg.Corr.REF_CH a k)) = true ∧ c.corrState a = true then
      (c.setCorr a k { x with
        phase := 3, start := (c.ct a).time / 256, accC := 0, accS := 0, accX := 0, n := 0, ovr := false }).syncCorr a
    else c

/-- CORR_WINDOW_END (R246): TURNS passages after the start. -/
def execCorrWindowEnd (a : CellAddr) (dt : Nat) (k : Fin 4) (s : State) : Host.Outcome State Fault Refusal :=
  s.run fun c0 =>
    let c := c0.cellAdvance a dt
    if (c.corr a k).phase = 3 then c.endWindow a k else c

end Sys2Proof.Machine
end

