-- ==== Sys2Proof/Machine/Posn.lean ====
section
/-! DEFINITION. A position as admission keeps it: its state with the counts and probes that show it (R304 to R312, R327). -/

namespace Sys2Proof.Machine

/-- Positions of region `r` in one of the given admission states. -/
def Chip.countIn (c : Chip) (r : Nat) (l : List Nat) : Nat :=
  ((c.regionCells r).filter (fun a => decide ((c.posn a).admState ∈ l))).length

/-- The admission counts of region `r`: a cell counts as in BIVOUAC by its last report, or when it is lost (R311). -/
def Chip.countAdm (c : Chip) (r : Nat) : Chip :=
  let biv := ((c.regionCells r).filter (fun a => decide ((c.posn a).state = 7 ∨ (c.posn a).admState = 9))).length
  (((c.wr (Reg.RegAdm.CELLS_ADMITTING r) (c.countIn r [2, 3, 4, 5])).wr (Reg.RegAdm.CELLS_BIVOUAC r) biv).wr
    (Reg.RegAdm.CELLS_ABANDONED r) (c.countIn r [8])).wr (Reg.RegAdm.CELLS_LOST r) (c.countIn r [9])

/-- The admission probe of port `p` shows the position that ADM_CELL names. -/
def Chip.showAdm (c : Chip) (p : Nat) : Chip :=
  let x := c.posn (c.rd (Reg.Adm.ADM_CELL p))
  ((((((c.wr (Reg.Adm.ADM_STATE p) x.admState).wr (Reg.Adm.ADM_FAILS p) (satNat 4 x.fails)).wr (Reg.Adm.ADM_REASON p)
    x.reason).wr (Reg.Adm.ADM_EPOCH p) x.epochRec).wr (Reg.Adm.ADM_UID_LO p) x.uid).wr (Reg.Adm.ADM_UID_HI p)
    (x.uid / 2 ^ 32)).wr (Reg.Adm.ADM_SINCE p) (satNat 32 ((c.runNs - x.since) / 1000000))

/-- The four probes are shown anew. -/
def Chip.showAdms (c : Chip) : Chip := [0, 1, 2, 3].foldl (fun c p => c.showAdm p) c

/-- A position takes an admission state (ADM_STATE). -/
def Chip.setAdm (c : Chip) (a st : Nat) : Chip :=
  ((c.setAt a { c.posn a with admState := st, since := c.runNs }).countAdm (regionOf a)).showAdms

/-- TO_BIVOUAC goes out to the cell at `a`. -/
def Chip.orderBivouac (c : Chip) (a : Nat) : Chip := c.sendMgmt 1 a 0x08 8 0

/-- An admitted position is admitted anew: TO_BIVOUAC, then it awaits the cell (R119, R309). -/
def Chip.readmit (c : Chip) (a : Nat) : Chip := (c.orderBivouac a).setAdm a 1

/-- Every admitted position is admitted anew (R119). -/
def Chip.readmitAdmitted (c : Chip) : Chip :=
  (c.populated.flatMap c.ropeCells).foldl (fun c a => if (c.posn a).admState = 6 then c.readmit a else c) c

end Sys2Proof.Machine
end

