-- ==== Sys2Proof/Machine/Time.lean ====
section
/-! DEFINITION. The time base, its references, the lock declarations, the angle channels and the dated actions
(chapter 02). -/

namespace Sys2Proof.Machine

/-- R38, R91: the frame epoch is reset to `e`; the next frame is number `m`, at e + m × P.
(notes/assumptions: 13 DESIGN CHOICE) -/
def Chip.resetEpoch (c : Chip) (e m : Nat) : Chip :=
  { c with time := { c.time with epoch := e, nextStart := e + m * c.period, nextNum := m, epochResetLeft := 16 } }.set
    Reg.Time.FRAME_RESYNC

/-- R37, R38: the one step. The time base takes the reference time, the frame epoch the next whole TAI second, and every
cell that was admitted is admitted again (R119). The frame in progress and the last PPS edge keep their distance from the
present. (notes/assumptions: 13 DESIGN CHOICE) -/
def Chip.timeStep (c : Chip) (refNs : Nat) : Chip :=
  let t := c.time
  let c1 := { c with time := { t with
    units := refNs * 2 ^ 40, leap := t.leap + ((refNs : Int) - c.nowNs), frameStart := refNs - (c.nowNs - t.frameStart) } }
  let c2 := ((c1.set Reg.Time.TIME_VALID).set Reg.Time.STEPPED).set Reg.Time.STEP_DONE
  (c2.resetEpoch ((refNs / 1000000000 + 1) * 1000000000) 0).readmitAdmitted

/-- R37: the first acquisition of the reference; the step is taken only if no region has been deblocked since power-up.
(notes/assumptions: 9 DEDUCED) -/
def Chip.acquire (c : Chip) (refNs : Nat) : Chip :=
  let c1 := { c with time := { c.time with acquired := true } }
  if c.time.deblocked then c1 else c1.timeStep refNs

/-- R39, R40, R45: one reference cycle with offset `off` (time base minus reference, ns) and the measured frequency offset
of REFCLK. A rejected reference moves nothing until its offset lies within REF_REJECT again and no reaction fences it.
(notes/assumptions: 26 DEDUCED) -/
def Chip.refCycle (c : Chip) (off freq : Int) : Chip :=
  let t := c.time
  let big := decide (c.card.time.refReject < off.natAbs)
  let still := t.rejected && (big || decide ((6, 0x10) ∈ c.faults.fencedUnits))
  let l := lockCycle t.tb c.card.time.lockWin (2 * c.card.time.lockWin) (some off.natAbs)
  let t1 := { t with tb := l, rejectCount := if big then t.rejectCount + 1 else 0, rejected := still }
  let c1 := { c with time := t1 }.wrI Reg.Time.REF_OFFSET (satSigned 32 off)
  if still then c1
  else
    let lim : Int := (c.card.time.slewMax * 2 ^ 40 / 1000000 : Nat)
    let raw := Config.servoPhase off
    let f := t.freq + divRound (freq - t.freq) 16
    let p := clampInt (-lim) lim raw
    let c2 := { c1 with time := { c1.time with freq := f, phase := p } }
    (((c2.wrI Reg.Time.RATE_ADJ (satSigned 32 (f + p))).wrB Reg.Time.SLEWING (decide (lim ≤ raw.natAbs))).clr
      Reg.Time.HOLDOVER).clr Reg.Time.DEGRADED

/-- A reference event gives the reference time `refNs` for the present instant: the first acquisition, or a cycle of the
servo (R37, R39). (notes/assumptions: 9 DEDUCED) -/
def Chip.refEvent (c : Chip) (refNs : Nat) (freq : Int) : Chip :=
  let c1 := if c.time.acquired then c else c.acquire refNs
  c1.refCycle ((c1.nowNs : Int) - refNs) freq

/-- Does the time base follow PTP now: mode 1, or mode 3 while PPS_IN is missing (R42)? -/
def Chip.followsPtp (c : Chip) : Bool :=
  decide (c.rd Reg.Time.REF_MODE = 1) || (decide (c.rd Reg.Time.REF_MODE = 3) && c.time.ppsMissing)

/-- PTP_SYNC (R41): a Sync of the selected master in the card's domain. (notes/assumptions: 8 PRESUMED) -/
def execPtpSync (dt domain gm origin : Nat) (corr freq : Int) (s : State) : Host.Outcome State Fault Refusal :=
  s.run fun c0 =>
    let c := c0.advance dt
    match c.time.master with
    | none => c
    | some m =>
      if m.identity = gm ∧ domain = c.rd Reg.Time.PTP_DOMAIN then
        let ref := ((origin : Int) + corr + c.time.peerDelay).toNat
        let c1 := (c.set Reg.Time.PTP_PRESENT).wr Reg.Time.PTP_PORT_STATE 9
        let c2 := { c1 with time := { c1.time with ptpOffset := some ((c.nowNs : Int) - ref) } }
        if c2.followsPtp then c2.refEvent ref freq else c2
      else c

/-- The order in which the best master clock algorithm prefers data sets: smaller is better, field by field (R41).
(notes/assumptions: 8 PRESUMED) -/
def Announce.better (x y : Announce) : Bool :=
  let f (m : Announce) := [m.priority1, m.clockClass, m.accuracy, m.variance, m.priority2, m.identity, m.steps]
  decide (f x < f y)

/-- The selected master and its registers (R41, R43). (notes/assumptions: 8 PRESUMED) -/
def Chip.setMaster (c : Chip) (m : Announce) : Chip :=
  let c1 := { c with time := { c.time with master := some m } }
  let c2 := (c1.wr Reg.Time.PTP_GM_ID_LO m.identity).wr Reg.Time.PTP_GM_ID_HI (m.identity / 2 ^ 32)
  if c.rd Reg.Time.PTP_PORT_STATE = 9 then c2 else c2.wr Reg.Time.PTP_PORT_STATE 8

/-- PTP_ANNOUNCE (R41): the master is the better of the one selected and the one that announces itself.
(notes/assumptions: 8 PRESUMED) -/
def execPtpAnnounce (msg : Announce) (s : State) : Host.Outcome State Fault Refusal :=
  s.run fun c =>
    if msg.domain = c.rd Reg.Time.PTP_DOMAIN then
      match c.time.master with
      | none => c.setMaster msg
      | some m =>
        if m.identity = msg.identity then c.setMaster msg
        else if Announce.better msg m then (c.clr Reg.Time.PTP_PRESENT).wr Reg.Time.PTP_PORT_STATE 8 |>.setMaster msg
        else c
    else c

/-- PTP_PDELAY (R41): the peer-to-peer delay mechanism's mean path delay. -/
def execPtpPdelay (t1 t2 t3 t4 : Nat) (corr : Int) (s : State) : Host.Outcome State Fault Refusal :=
  s.run fun c =>
    let d := ((t4 : Int) - t1) - ((t3 : Int) - t2) - corr
    { c with time := { c.time with peerDelay := divRound d 2 } }

/-- PTP_MASTER_LOST (R41, R28): no master is selected; the command flow goes on. (notes/assumptions: 8 PRESUMED) -/
def execPtpMasterLost (s : State) : Host.Outcome State Fault Refusal :=
  s.run fun c =>
    ({ c with time := { c.time with master := none } }.clr Reg.Time.PTP_PRESENT).wr Reg.Time.PTP_PORT_STATE 4

/-- The profile channels among the bits of a mask; bits 0 and 1 are ignored, other kinds are not reset (R58). -/
def Chip.syncSet (c : Chip) (mask : Nat) : List Nat :=
  (List.range 16).filter fun n => decide (2 ≤ n) && decide (bits mask n 1 = 1) && decide (c.rd (Reg.Angle.KIND n) = 2)

/-- The number whose bits are the members of a list. -/
def maskOf (l : List Nat) : Nat := (l.map (2 ^ ·)).sum

/-- The card's definition of angle channel `n`. -/
def Chip.angleCfg (c : Chip) (n : Nat) : AngleCfg := mapGet AngleCfg.unused c.card.time.chans n

/-- The 48-bit angle of channel `n` at the frame start: ac and 16 bits of fraction (R54). -/
def Chip.angle48 (c : Chip) (n : Nat) : Nat := c.rd (Reg.Angle.ANGLE n) * 65536 + c.rd (Reg.Angle.ANGLE_FRAC n)

/-- Write the 48-bit angle of channel `n` at the frame start. -/
def Chip.setAngle48 (c : Chip) (n v : Nat) : Chip :=
  (c.wr (Reg.Angle.ANGLE n) (v / 65536)).wr (Reg.Angle.ANGLE_FRAC n) v

/-- The 48-bit angle of channel `n` at `ns` after the frame start (R54). -/
def Chip.angleAfter (c : Chip) (n ns : Nat) : Nat :=
  (((c.angle48 n : Int) + c.rdI (Reg.Angle.RATE n) * ns) % (2 ^ 48 : Int)).toNat

/-- Nanoseconds since the start of the frame in progress. -/
def Chip.sinceFrame (c : Chip) : Nat := c.nowNs - c.time.frameStart

/-- A locked channel takes M × its source + OFFSET and inherits VALID, LOCKED and COASTING (R57); `fuel` bounds the chain
of sources, which the card keeps free of cycles. -/
def Chip.stepLocked (c : Chip) (n : Nat) : Nat → Chip
  | 0 => c
  | fuel + 1 =>
    if c.rd (Reg.Angle.KIND n) = 3 then
      let src := c.rd (Reg.Angle.LOCK_SOURCE n)
      let c1 := c.stepLocked src fuel
      let m := c.rdI (Reg.Angle.LOCK_MULT n)
      let a : Int := m * c1.angle48 src + (c.rd (Reg.Angle.LOCK_OFFSET n) * 65536 : Nat)
      ((((c1.setAngle48 n ((a % (2 ^ 48 : Int)).toNat)).wrI (Reg.Angle.RATE n) (m * c1.rdI (Reg.Angle.RATE src))).wr
        (Reg.Angle.VALID n) (c1.rd (Reg.Angle.VALID src))).wr (Reg.Angle.LOCKED n) (c1.rd (Reg.Angle.LOCKED src))).wr
        (Reg.Angle.COASTING n) (c1.rd (Reg.Angle.COASTING src))
    else c

/-- Every locked channel as its source has it now: what R57 says holds at every clock. -/
def Chip.followLocked (c : Chip) : Chip := (List.range 16).foldl (fun c n => c.stepLocked n 16) c

/-- PPS_PRESENT: an edge within the last 1.5 s (R43), weighed at every frame start. (notes/assumptions: 26 DEDUCED) -/
def Chip.agePps (c : Chip) : Chip :=
  if c.on Reg.Time.PPS_PRESENT && decide (c.time.lastPps + 1500000000 < c.runNs) then c.clr Reg.Time.PPS_PRESENT else c

/-- R58: the profile channels of `l` take their SYNC_PHASE at `ns` after the frame start. -/
def Chip.syncChannels (c : Chip) (l : List Nat) (ns : Nat) : Chip :=
  l.foldl (fun c n =>
    let a : Int := ((c.angleCfg n).syncPhase * 65536 : Nat) - c.rdI (Reg.Angle.RATE n) * ns
    (c.setAngle48 n ((a % (2 ^ 48 : Int)).toNat)).set (Reg.Angle.SYNCED n)) c |>.followLocked

/-- R58, R59: a PPS edge that the card enables resets the channels that both SYNC_MASK and SYNC_EN name, and the frame
epoch where SYNC_FRAME is set; with a region deblocked a reset of the epoch is ignored, and the channels with it.
(notes/assumptions: 9 DEDUCED) -/
def Chip.ppsSync (c : Chip) : Chip :=
  let l := (c.syncSet (c.rd Reg.Time.SYNC_MASK)).filter (fun n => c.on (Reg.Angle.SYNC_EN n))
  if l = [] then c
  else if c.on Reg.Time.SYNC_FRAME && !c.allBlocked then c.wrPorts Reg.Time.SYNC_RESULT 3
  else
    let c1 := ((c.syncChannels l c.sinceFrame).wr Reg.Time.SYNC_APPLIED (maskOf l)).set Reg.Time.SYNC_SOURCE
    let c2 := c1.wrPorts Reg.Time.SYNC_RESULT 1
    if c.on Reg.Time.SYNC_FRAME then
      c2.resetEpoch c.nowNs ((c.time.nextStart - c.nowNs + (c.period - 1)) / c.period)
    else c2

/-- The reference time of a PPS edge in mode 2: TIME_SET_SEC at the first edge used, one second more for every second that
has passed since (R42). -/
def Chip.ppsSeconds (c : Chip) : Nat :=
  match c.time.ppsRef with
  | none => c.rd Reg.Time.TIME_SET_SEC_LO + c.rd Reg.Time.TIME_SET_SEC_HI * 2 ^ 32
  | some (at0, sec) => sec + (c.nowNs - at0 + 500000000) / 1000000000

/-- PPS_IN_EDGE (R42, R58): presence; the reference event of modes 2 and 3; a channel synchronisation.
(notes/assumptions: 9 DEDUCED) -/
def execPpsInEdge (dt : Nat) (freq : Int) (s : State) : Host.Outcome State Fault Refusal :=
  s.run fun c0 =>
    let c1 := (c0.advance dt).set Reg.Time.PPS_PRESENT
    let c := { c1 with time := { c1.time with ppsMissing := false, lastPps := c1.runNs } }
    let mode := c.rd Reg.Time.REF_MODE
    let c2 :=
      if mode = 2 ∧ c.time.timeSetWritten = true then
        let sec := c.ppsSeconds
        let c3 := c.refEvent (sec * 1000000000) freq
        { c3 with time := { c3.time with ppsRef := some (c3.nowNs, sec) } }
      else if mode = 3 then
        match c.time.ptpOffset with
        | none => c
        | some o =>
          let sec := (((c.nowNs : Int) - o + 500000000) / 1000000000).toNat
          let c3 := c.refEvent (sec * 1000000000) freq
          if c.time.acquired then c3 else { c3 with time := { c3.time with ptpOffset := some 0 } }
      else c
    c2.ppsSync

/-- PPS_MISSING (R42): in mode 3 the time base follows PTP alone. -/
def execPpsMissing (s : State) : Host.Outcome State Fault Refusal :=
  s.run fun c =>
    if c.rd Reg.Time.REF_MODE = 3 then
      ({ c with time := { c.time with ppsMissing := true } }.set Reg.Time.PPS_MISSING).clr Reg.Time.PPS_PRESENT
    else c

/-- Hundredths of a degree as short-angle units (R7). -/
def shortOfCentiDeg (x : Nat) : Nat := x * 65536 / 36000

/-- The lock counters of grid channel `n`. -/
def Chip.gridLock (c : Chip) (n : Nat) : Lock := if n = 0 then c.time.grid0 else c.time.grid1

/-- Replace the lock counters of grid channel `n`. -/
def Chip.setGridLock (c : Chip) (n : Nat) (l : Lock) : Chip :=
  if n = 0 then { c with time := { c.time with grid0 := l } } else { c with time := { c.time with grid1 := l } }

/-- LOCK_GAINED (R45): the counters of R45 and R46 decide for the time base (4 cycles), the cell PLL (16) and the grid
channels (1,000); of a lane PLL no cycle is a command of its own, so the event itself is the declaration (R72). -/
def execLockGained (fn : LockFn) (s : State) : Host.Outcome State Fault Refusal :=
  s.run fun c =>
    match fn with
    | .timeBase =>
      match lockGain c.time.tb 4 with
      | none => c
      | some l =>
        (({ c with time := { c.time with tb := l } }.set Reg.Time.REF_LOCKED).set Reg.Time.REF_ACQUIRED).set
          Reg.Time.TIME_VALID
    | .ridgeLane g e => c.set (Reg.RLane.PLL_LOCKED g e)
    | .cellLane a b => c.set (Reg.CLane.PLL_LOCKED a b)
    | .cellPll a =>
      match lockGain (c.ct a).pll 16 with
      | none => c
      | some l =>
        (((c.setCt a { c.ct a with pll := l, alignLost := false }).set (Reg.CTime.PLL_LOCKED a)).clr
          (Reg.CTime.ON_CRYSTAL a)).wakeToListen a |>.retarget a false
    | .grid n =>
      match lockGain (c.gridLock n) 1000 with
      | none => c
      | some l =>
        ((((c.setGridLock n l).set (Reg.Angle.LOCKED n)).set (Reg.Angle.LOCK_GAINED n)).set (Reg.Angle.VALID n)).followLocked

/-- LOCK_LOST (R45): as LOCK_GAINED; a grid channel stays VALID (R48). -/
def execLockLost (fn : LockFn) (s : State) : Host.Outcome State Fault Refusal :=
  s.run fun c =>
    match fn with
    | .timeBase =>
      match lockLose c.time.tb 3 with
      | none => c
      | some l => { c with time := { c.time with tb := l } }.clr Reg.Time.REF_LOCKED
    | .ridgeLane g e => (c.setRlane g e { c.rlane g e with downCause := 0 }).clr (Reg.RLane.PLL_LOCKED g e)
    | .cellLane a b => (c.setClane a b { c.clane a b with downCause := 0 }).clr (Reg.CLane.PLL_LOCKED a b)
    | .cellPll a =>
      match lockLose (c.ct a).pll 2 with
      | none => c
      | some l => ((c.setCt a { c.ct a with pll := l }).clr (Reg.CTime.PLL_LOCKED a)).listenToWake a
    | .grid n =>
      match lockLose (c.gridLock n) 100 with
      | none => c
      | some l => (((c.setGridLock n l).clr (Reg.Angle.LOCKED n)).set (Reg.Angle.LOCK_LOST n)).followLocked

/-- R64: channel `n` is gated: every action dated on it that is not yet executed is discarded and counted. -/
def Chip.gateChannel (c : Chip) (n : Nat) : Chip :=
  let (gone, kept) := c.time.dated.partition (fun d => decide (d.part = 0 ∧ d.chan = some n))
  let c1 := ({ c with time := { c.time with dated := kept } }.clr (Reg.Angle.VALID n)).set (Reg.Angle.GATED n)
  ((c1.add Reg.Time.DROPPED_COUNT gone.length).set (Reg.Angle.GATED_DROP n)).raise 6 0x10 0xA3 n

/-- REFERENCE_LOST (R45, R47): the function's action, FREEZE or GATE. A WN140-B always coasts. (notes/assumptions: 26 DEDUCED) -/
def execReferenceLost (fn : LockFn) (s : State) : Host.Outcome State Fault Refusal :=
  s.run fun c =>
    match fn with
    | .timeBase =>
      let c1 := { c with time := { c.time with tb := { c.time.tb with locked := false, inCount := 0 } } }.clr
        Reg.Time.REF_LOCKED
      if c.on Reg.Time.HOLDOVER then c1
      else ((c1.set Reg.Time.HOLDOVER).set Reg.Time.REF_LOST).raise 6 0x10 0xA2 0
    | .ridgeLane g e =>
      (c.setRlane g e { c.rlane g e with downCause := 1 }).clr (Reg.RLane.PLL_LOCKED g e)
    | .cellLane a b =>
      (c.setClane a b { c.clane a b with downCause := 1 }).clr (Reg.CLane.PLL_LOCKED a b)
    | .cellPll a =>
      match lockMiss (c.ct a).pll 8 with
      | none => c
      | some l =>
        (((c.setCt a { c.ct a with pll := l }).clr (Reg.CTime.PLL_LOCKED a)).set (Reg.CTime.COASTING a)).listenToWake a
    | .grid n =>
      match lockMiss (c.gridLock n) 2 with
      | none => c
      | some l =>
        let was := c.on (Reg.Angle.COASTING n) || c.on (Reg.Angle.GATED n)
        let c0 := (c.setGridLock n l).clr (Reg.Angle.LOCKED n)
        let c1 := if c.on (Reg.Angle.LOCKED n) then c0.set (Reg.Angle.LOCK_LOST n) else c0
        (if was then c1
        else if c.on (Reg.Angle.LOSS_ACTION n) then c1.gateChannel n
        else c1.set (Reg.Angle.COASTING n)).followLocked

/-- The reference is rejected: the time base unlocks and goes into holdover (R40, R334). (notes/assumptions: 26 DEDUCED) -/
def Chip.rejectReference (c : Chip) : Chip :=
  let l := { c.time.tb with locked := false, inCount := 0 }
  (({ c with time := { c.time with rejected := true, tb := l } }.set Reg.Time.HOLDOVER).clr Reg.Time.REF_LOCKED).set
    Reg.Time.REF_REJECTED

/-- REFERENCE_REJECTED (R40): after the step, four consecutive cycles beyond REF_REJECT; holdover. -/
def execReferenceRejected (s : State) : Host.Outcome State Fault Refusal :=
  s.run fun c =>
    if c.on Reg.Time.STEPPED ∧ 4 ≤ c.time.rejectCount ∧ c.time.rejected = false then
      c.rejectReference.raise 6 0x10 0xA1 (c.rd Reg.Time.REF_OFFSET)
    else c

/-- HOLDOVER_LIMIT_EXPIRY (R43). -/
def execHoldoverLimitExpiry (s : State) : Host.Outcome State Fault Refusal :=
  s.run fun c => if c.on Reg.Time.HOLDOVER then c.set Reg.Time.DEGRADED else c

/-- TIME_SET_SEC_WRITE (R42): ORDER or MAINT; arms the PPS-mode step. -/
def execTimeSetSecWrite (p : PortIx) (secLo : Word) (s : State) : Host.Outcome State Fault Refusal :=
  s.run fun c =>
    if c.has p .order || c.has p .maint then
      { c with time := { c.time with timeSetWritten := true } }.wr Reg.Time.TIME_SET_SEC_LO secLo.toNat
    else c.refuse p

/-- SYNC_GO (R58, R59): an order of an ORDER port, taken at the next frame boundary; refused BUSY while another waits, and
where it would reset the frame epoch with a region deblocked. (notes/assumptions: 9 DEDUCED) -/
def execSyncGo (p : PortIx) (s : State) : Host.Outcome State Fault Refusal :=
  s.run fun c =>
    if c.has p .order then
      if c.time.pendingSync.isSome || (c.on Reg.Time.SYNC_FRAME && !c.allBlocked) then
        c.wr (Reg.Time.SYNC_RESULT p) 2
      else
        { c with time := { c.time with
            pendingSync := some (p.val, c.rd Reg.Time.SYNC_MASK, c.on Reg.Time.SYNC_FRAME) } }.set (Reg.Time.SYNC_GO p)
    else c.refuse p

/-- PROFILE_START (R56): the sequence of a profile channel starts, or starts again, at the next frame. -/
def execProfileStart (n : ChanIx) (s : State) : Host.Outcome State Fault Refusal :=
  s.run fun c =>
    if c.rd (Reg.Angle.KIND n) = 2 then c.setChan n { c.chan n with pendingStart := true } else c

/-- PROFILE_SEGMENT_END (R56): the next segment, or END_ACTION (0 HOLD, 1 REPEAT, 2 STOP) after the last. -/
def execProfileSegmentEnd (n : ChanIx) (s : State) : Host.Outcome State Fault Refusal :=
  s.run fun c =>
    let cfg := c.angleCfg n
    let k := c.rd (Reg.Angle.SEGMENT n)
    match cfg.segs[k]? with
    | none => c
    | some sg =>
      if c.on (Reg.Angle.RAMPING n) ∧ sg.duration ≤ (c.chan n).segFrames then
        let x := { c.chan n with segFrames := 0, segRate0 := c.rdI (Reg.Angle.RATE n) }
        if k + 1 < cfg.segs.length then (c.setChan n x).wr (Reg.Angle.SEGMENT n) (k + 1)
        else
          let c1 := (c.setChan n x).set (Reg.Angle.RAMP_DONE n)
          match cfg.endAction with
          | some 1 => c1.clr (Reg.Angle.SEGMENT n)
          | some 2 => ((c1.clr (Reg.Angle.RAMPING n)).clr (Reg.Angle.RATE n)).followLocked
          | _ => c1.clr (Reg.Angle.RAMPING n)
      else c

/-- The angle of channel `n` as part `part` (0 the WC8400, 1 + a a cell) has it now, its RATE, and whether it is VALID:
a cell extrapolates from its frame start (R60). -/
def Chip.angleOf (c : Chip) (part n : Nat) : Nat × Int × Bool :=
  if part = 0 then
    (c.angleAfter n c.sinceFrame / 65536, c.rdI (Reg.Angle.RATE n), c.on (Reg.Angle.VALID n))
  else
    let t := c.ct (part - 1)
    let rate := t.rates.getD n 0
    let ns := (t.time - t.frameStart) / 256
    (((((t.est.getD n 0 * 65536 + t.estFrac.getD n 0 : Nat) : Int) + rate * ns) % (2 ^ 48 : Int)).toNat / 65536, rate,
      t.valid.getD n false && !t.waitRot.getD n false)

/-- The short stamp of the present in part `part`. -/
def Chip.partStamp (c : Chip) (part : Nat) : Nat :=
  if part = 0 then c.stamp else (c.ct (part - 1)).time / 256 % 2 ^ 32

/-- What the late-action rule says of a date in part `part` (R60 to R63): on a channel that is not VALID an action is held.
(notes/assumptions: 15 DEDUCED) -/
def Chip.judge (c : Chip) (part : Nat) (date : Date) : Late × Int :=
  let win := if part = 0 then c.rd Reg.Time.LATE_WINDOW else c.rd (Reg.CTime.LATE_WINDOW (part - 1))
  match date with
  | .time st =>
    let d := signedDiff 32 st.toNat (c.partStamp part)
    (lateRule d win, -d)
  | .angle n ac =>
    let (a, rate, valid) := c.angleOf part n
    if valid then
      let d := signedDiff 32 ac.toNat a
      let ns := if rate = 0 then 0 else (d.natAbs : Int) * 65536 / rate.natAbs
      (lateAngle ac.toNat a rate win, ns)
    else (.hold, 0)

/-- An action executed late is counted in the part that executes it (R62). -/
def Chip.countLate (c : Chip) (part : Nat) : Chip :=
  if part = 0 then c.inc Reg.Time.LATE_COUNT else c.inc (Reg.CTime.LATE_COUNT (part - 1))

/-- An action discarded as late is counted and raises the fault of its level, with how late it was (R62). -/
def Chip.dropLate (c : Chip) (part : Nat) (lateNs : Int) : Chip :=
  let d := clampInt 0 (2 ^ 32 - 1) lateNs |>.toNat
  if part = 0 then (c.inc Reg.Time.DROPPED_COUNT).raise 6 0x10 0xA0 d
  else (c.inc (Reg.CTime.DROPPED_COUNT (part - 1))).cellFault (part - 1) 1 0x01 d false false

/-- DATED_ACTION_DUE (R62, R63, R65): scheduled and held actions stand in the order in which they were scheduled; an
executed or discarded one leaves the list. -/
def execDatedActionDue (dt : Nat) (part : Option CellAddr) (tag : Nat) (date : Date) (s : State) :
    Host.Outcome State Fault Refusal :=
  s.run fun c0 =>
    let c := c0.advance dt
    let pt := match part with
      | none => 0
      | some a => a.val + 1
    let (chan, v) := match date with
      | .time st => (none, st.toNat)
      | .angle n ac => (some n.val, ac.toNat)
    let act : Dated := ⟨pt, tag, chan, v⟩
    let off := c.time.dated.filter (fun d => decide (d ≠ act))
    let gone := { c with time := { c.time with dated := off } }
    let stay := if act ∈ c.time.dated then c else { c with time := { c.time with dated := c.time.dated ++ [act] } }
    match c.judge pt date with
    | (.schedule, _) => stay
    | (.hold, _) => stay
    | (.executeNow, _) => gone
    | (.executeLate, _) => gone.countLate pt
    | (.discard, ns) => gone.dropLate pt ns

/-- TIME_ALIGNMENT_LOST (R53): beyond 4.0 ns for two frames; the lock is cleared, the fault reported, and no edge executes
until lock is declared again. -/
def execTimeAlignmentLost (a : CellAddr) (s : State) : Host.Outcome State Fault Refusal :=
  s.run fun c =>
    let t := c.ct a
    if 2 ≤ t.badFrames then
      let l := { t.pll with locked := false, inCount := 0 }
      ((((c.setCt a { t with pll := l, alignLost := true, badFrames := 0 }).clr (Reg.CTime.PLL_LOCKED a)).cellFault
        a 1 0x03 (c.rd (Reg.CTime.PHASE_ERR a)) false false).listenToWake a).retarget a false
    else c

/-! ### What the channels do at a frame start (R54 to R57) -/

/-- A grid channel's frame: `meas` is the tracker's phase error (short-angle units) and the measured grid angle (ac), none
where the positive-sequence magnitude lies below GRID_MIN (R55). A channel that is gated is undefined. `span` is how many ns the
frame before lasted. The tracker moves RATE alone, so the angle departs from its prediction only on a return from gating (R92).
(notes/assumptions: 2 DESIGN CHOICE, 26 DEDUCED) -/
def Chip.stepGrid (c : Chip) (span n : Nat) (meas : Option (Int × Nat)) : Chip :=
  let cfg := c.angleCfg n
  let rate := c.rdI (Reg.Angle.RATE n)
  let run := (((c.angle48 n : Int) + rate * span) % (2 ^ 48 : Int)).toNat
  let win := shortOfCentiDeg cfg.lockWin
  let out := shortOfCentiDeg cfg.unlockWin
  let l := lockCycle (c.gridLock n) win out (meas.map (fun m => m.1.natAbs))
  let c1 := c.setGridLock n l
  match meas with
  | none =>
    if c.on (Reg.Angle.GATED n) then
      let (v, c2) := c1.drawFree
      c2.setAngle48 n v
    else c1.setAngle48 n run
  | some (err, ang) =>
    let nom : Int := (cfg.nominalHz * 2 ^ 48 / 1000000000 : Nat)
    let r := clampInt (nom * 9 / 10) (nom * 11 / 10)
      (rate + Config.gridRateStep cfg.bandwidth (c.rdI (Reg.Angle.PHASE_ERR n)) err)
    let a := if c.on (Reg.Angle.GATED n) then ang % 2 ^ 32 * 65536 else run
    (((((c1.setAngle48 n a).wrI (Reg.Angle.RATE n) r).wrI (Reg.Angle.PHASE_ERR n)
      (satSigned 16 err)).clr (Reg.Angle.COASTING n)).clr (Reg.Angle.GATED n))

/-- A profile channel's frame: RATE moves linearly to RATE_END over the segment (R56). (notes/assumptions: 43 DEDUCED) -/
def Chip.stepProfile (c : Chip) (span n : Nat) : Chip :=
  let rate := c.rdI (Reg.Angle.RATE n)
  let c1 := c.setAngle48 n ((((c.angle48 n : Int) + rate * span) % (2 ^ 48 : Int)).toNat)
  let x := c.chan n
  let c2 := if x.pendingStart then
      ((c1.setChan n { x with pendingStart := false, segFrames := 0, segRate0 := rate }).clr (Reg.Angle.SEGMENT n)).set
        (Reg.Angle.RAMPING n)
    else c1
  if c2.on (Reg.Angle.RAMPING n) then
    match (c.angleCfg n).segs[c2.rd (Reg.Angle.SEGMENT n)]? with
    | none => c2
    | some sg =>
      let y := c2.chan n
      let k := min (y.segFrames + 1) sg.duration
      (c2.setChan n { y with segFrames := y.segFrames + 1 }).wrI (Reg.Angle.RATE n)
        (y.segRate0 + divRound ((sg.rateEnd - y.segRate0) * k) sg.duration)
  else c2

/-- ANGLE_RESET of channels 0 to 3 (R92): set in a frame whose start angle departs from the prediction, whose RATE changed by
more than 3,277 units or in which VALID rose, and in the seven frames after it. -/
def Chip.markReset (c : Chip) (n : Nat) : Chip :=
  let x := c.chan n
  let a := c.angle48 n
  let r := c.rdI (Reg.Angle.RATE n)
  let pred := (((x.prevAngle : Int) + x.prevRate * c.period) % (2 ^ 48 : Int)).toNat
  let jump := decide (a / 65536 ≠ pred / 65536) || decide (3277 < (r - x.prevRate).natAbs)
    || (c.on (Reg.Angle.VALID n) && !x.prevValid)
  c.setChan n { x with
    resetLeft := if jump then 8 else x.resetLeft - 1, prevAngle := a, prevRate := r, prevValid := c.on (Reg.Angle.VALID n) }

/-- The sweep has been stopped: channel 3 takes END_ACTION STOP at this frame (R248). -/
def Chip.stopSweepChannel (c : Chip) : Chip :=
  if c.sweep.stopping then ((c.clr (Reg.Angle.RAMPING 3)).clr (Reg.Angle.RATE 3)).set (Reg.Angle.RAMP_DONE 3) else c

/-- All sixteen channels at a frame start, the order of R58 included. -/
def Chip.stepAngles (c : Chip) (span : Nat) (m0 m1 : Option (Int × Nat)) : Chip :=
  let stamp (c : Chip) (n : Nat) := c.wr (Reg.Angle.STAMP n) c.stamp
  let c1 := (List.range 16).foldl (fun c n =>
    match c.rd (Reg.Angle.KIND n) with
    | 1 => c.stepGrid span n (if n = 0 then m0 else m1)
    | 2 => c.stepProfile span n
    | _ => c) c |>.stopSweepChannel
  let c2 := match c1.time.pendingSync with
    | none => c1
    | some (p, mask, fr) =>
      let l := c1.syncSet mask
      let c3 := (((c1.syncChannels l 0).wr Reg.Time.SYNC_APPLIED (maskOf l)).clr Reg.Time.SYNC_SOURCE).wr
        (Reg.Time.SYNC_RESULT p) 1
      let c4 := { c3.clr (Reg.Time.SYNC_GO p) with time := { c3.time with pendingSync := none } }
      if fr then { c4.set Reg.Time.FRAME_RESYNC with time := { c4.time with
          epoch := c4.time.frameStart, nextStart := c4.time.frameStart + c4.period, nextNum := 1, epochResetLeft := 16 } }.wr
          Reg.Time.FRAME_NUM 0
      else c4
  let c6 := (List.range 16).foldl (fun c n => stamp c n) c2.followLocked
  [0, 1, 2, 3].foldl (fun c n => c.markReset n) c6

end Sys2Proof.Machine
end

