-- ==== Sys2Proof/Machine/Loop.lean ====
section
/-! DEFINITION. The loop engine of the active control plane (chapter 07): orders at the step (R383), sources and signals
(R169), the slot update (R171), modes (R175 to R177), missed, lost, frozen and disagreeing feedback (R178 to R181) and the arm
assembly (R183 to R186). Reals are binary32 patterns unless a definition says otherwise. -/

namespace Sys2Proof.Machine

/-! ### Orders at a loop step (R382 to R384) -/

/-- The range of order `i` in its unit: MIN and MAX of the card, with P, Q and P_BATT multiplied by SCALE (R383). -/
def Chip.orderRange (c : Chip) (i : Nat) : Int × Int :=
  let sc : Int := if i = 2 ∨ i = 3 then 100 else c.rd Reg.Ord.SCALE
  ((c.rdI (Reg.Env.ENV_MIN i) * sc).tdiv 100, (c.rdI (Reg.Env.ENV_MAX i) * sc).tdiv 100)

/-- A target held inside its scaled range, in units of 10^-9 of the order's unit. -/
def Chip.clampOrder (c : Chip) (i : Nat) (v : Int) : Int :=
  let (lo, hi) := c.orderRange i
  clampInt (lo * 1000000000) (hi * 1000000000) v

/-- The applied registers follow the applied values, towards zero, with RAMPING. -/
def Chip.showOrders (c : Chip) : Chip :=
  let o := c.orders
  let ap (k : Nat) : Int := (o.applied.getD k 0).tdiv 1000000000
  (((((c.wrI Reg.Ord.P_APPLIED (ap 0)).wrI Reg.Ord.Q_APPLIED (ap 1)).wrI Reg.Ord.UDC_APPLIED (ap 2)).wrI
    Reg.Ord.VAC_APPLIED (ap 3)).wrI Reg.Ord.P_BATT_APPLIED (ap 4)).wrB Reg.Ord.RAMPING (decide (o.applied ≠ o.targets))

/-- SCALE has changed: the targets of P, Q and P_BATT are clamped again (R383). -/
def Chip.rescaled (c : Chip) : Chip :=
  let t := c.orders.targets
  let t' := (List.range 5).map (fun i => if i = 2 ∨ i = 3 then t.getD i 0 else c.clampOrder i (t.getD i 0))
  { c with orders := { c.orders with targets := t' } }.showOrders

/-- A mode of the orders changes: for its slot it counts as an entry to AUTO (R384). -/
def Chip.orderMode (c : Chip) (f : Fld) (slot v : Nat) : Chip :=
  if c.rd f = v then c
  else
    let x := c.slot slot
    (c.wr f v).setSlot slot (if x.mode = 1 then { x with wantAuto := true } else x)

/-- The orders' part of a loop step: a committed set becomes the targets, and every applied value moves towards its target
by no more than RATE × P. In the hold of R385 the targets are frozen at the applied values (R393). -/
def Chip.stepOrders (c : Chip) : Chip :=
  let c1 : Chip := match c.orders.commit with
    | none => c
    | some (t, mp, mq) =>
      (({ c with orders := { c.orders with targets := t, commit := none } }.clr Reg.Ord.AT_FALLBACK).orderMode
        Reg.Ord.MODE_P 0 mp).orderMode Reg.Ord.MODE_Q 1 mq
  let c1 : Chip := if c1.on Reg.Ord.HOLDING then
      { c1 with orders := { c1.orders with targets := c1.orders.applied } }.wr Reg.Ord.HOLD_LEFT_MS
        (c1.rd Reg.Ord.ORDER_HOLD_MS - (c1.runNs - c1.orders.holdFrom) / 1000000)
    else c1
  let o := c1.orders
  let ap : List Int := (List.range 5).map (fun i =>
    let a := o.applied.getD i 0
    let d : Int := (c.rd (Reg.Env.ENV_RATE i) * c.period : Nat)
    a + clampInt (-d) d (o.targets.getD i 0 - a))
  let c2 := { c1 with orders := { o with applied := ap } }
  let c3 := if c2.on Reg.Ord.FALLBACK_RAMP ∧ ap = o.targets then (c2.clr Reg.Ord.FALLBACK_RAMP).set Reg.Ord.AT_FALLBACK else c2
  c3.showOrders

/-! ### Sources, terms and signals (R169, R172 to R174) -/

/-- SENS channel `ch` of a sensor cell's last report. -/
def PosSt.sens (p : PosSt) (ch : Nat) : Nat := [p.vCap, p.iCell, p.vPack, p.iPack, p.iDcdc].getD ch 0

/-- The value of a source in this step, where it is fresh. -/
def Chip.srcNow (c : Chip) : LoopSrc → Option Nat
  | .sensor a ch =>
    let p := c.posn a
    if p.freshFrame = some c.frame then some (fInt (toSigned 16 (p.sens ch))) else none
  | .region r k =>
    let x := c.rreg r
    if x.done = some c.frame then
      some (if k = 0 then x.eArm else if k = 1 then fRat x.vAvail (2 ^ 24) else fInt (c.rd (Reg.RegionRed.N_INSERTABLE r)))
    else none
  | .order k => some (fRat (c.orders.applied.getD k 0) 1000000000)
  | .slot j => some (c.slot j).out
  | .rate n => if c.on (Reg.Angle.VALID n) then some (fRat (c.rdI (Reg.Angle.RATE n) * 1000000000) (2 ^ 48)) else none
  | .const v => some v

/-- One step of a source: its value where it is fresh and not frozen, else one frame older. -/
def Chip.stepSrc (c : Chip) (src : LoopSrc) (x : SrcSt) : SrcSt :=
  match c.srcNow src with
  | some v => if x.frozen then { x with age := x.age + 1 } else { x with value := v, age := 0 }
  | none => { x with age := x.age + 1 }

/-- Is the source a channel of a sensor cell? -/
def LoopSrc.isSensor : LoopSrc → Bool
  | .sensor _ _ => true
  | _ => false

/-- One step of a term, with the cross-check of R181 between fresh sensors. -/
def Chip.stepTerm (c : Chip) (tol : Nat) (t : LoopTerm) (x : TermSt) : TermSt :=
  let p := c.stepSrc t.src x.prim
  match t.alt with
  | none => { x with prim := p }
  | some alt =>
    let q := c.stepSrc alt x.alt
    let x1 := { x with prim := p, alt := q }
    if fLt 0 tol && t.src.isSensor && decide (p.age = 0 ∧ q.age = 0) then
      if fLt tol (fAbs (fSub p.value q.value)) then { x1 with apart := x.apart + 1, agree := 0 }
      else { x1 with apart := 0, agree := x.agree + 1 }
    else x1

/-- Does the term use its alternate? It does where only the alternate is fresh (R169). -/
def TermSt.onAlt (t : LoopTerm) (x : TermSt) : Bool := t.alt.isSome && decide (x.prim.age ≠ 0 ∧ x.alt.age = 0)

/-- The age of a term: the smaller of its two sources' ages. (notes/assumptions: 38 DESIGN CHOICE) -/
def TermSt.age (t : LoopTerm) (x : TermSt) : Nat := if t.alt.isSome then min x.prim.age x.alt.age else x.prim.age

/-- The value of a term's source: the fresh one, else the younger last value, the primary before the alternate.
(notes/assumptions: 38 DESIGN CHOICE) -/
def TermSt.val (t : LoopTerm) (x : TermSt) : Nat :=
  if t.alt.isSome && decide (x.alt.age < x.prim.age) then x.alt.value else x.prim.value

/-- The value of angle table `t` at angle `a`, exact (R172). -/
def Chip.angleTab (c : Chip) (t a : Nat) : Fp :=
  let l := mapGet [] c.card.loop.angleTabs t
  let i := a / 2 ^ 22 % 1024
  let fr : Int := (a / 64 % 65536 : Nat)
  Fp.ofRat (l.getD i 0 * (65536 - fr) + l.getD ((i + 1) % 1024) 0 * fr) (2 ^ 31)

/-- The value of conduction-drop table `t` at current |i|, exact in volts, and whether it was read beyond entry 255 (R174).
(notes/assumptions: 38 DESIGN CHOICE) -/
def Chip.dropTab (c : Chip) (t : Nat) (i : Fp) : Fp × Bool :=
  let (step, l) := mapGet (100, []) c.card.loop.dropTabs t
  match i with
  | .fin _ n d =>
    -- x = |i| × 10 / I_STEP
    let num := n * 10
    let den := d * step
    if den = 0 then (Fp.ofInt 0, false)
    else if 255 * den ≤ num then (Fp.ofRat (l.getD 255 0 : Nat) 1000, true)
    else
      let k := num / den
      let r := num % den
      (Fp.ofRat ((l.getD k 0 * (den - r) + l.getD (k + 1) 0 * r : Nat)) (den * 1000), false)
  | _ => (Fp.ofRat (l.getD 255 0 : Nat) 1000, true)

/-- The angle and RATE of each channel at the start of the frame in progress are latched for the loop step (R168, R173). -/
def Chip.latchAngles (c : Chip) : Chip :=
  { c with loop := { c.loop with latch := (List.range 16).map (fun n => (c.angle48 n, c.rdI (Reg.Angle.RATE n))) } }

/-- The angle of channel `n`, `quarters` quarter periods after the start of the step's frame n, in ac (R173). -/
def Chip.loopAngle (c : Chip) (n quarters : Nat) : Nat :=
  let x := c.loop.latch.getD n (0, 0)
  (((x.1 : Int) + x.2 * (quarters * c.period / 4 : Nat)) % (2 ^ 48 : Int)).toNat / 65536

/-- The table factor of a term, binary32, at a channel angle that lies `quarters` quarter periods after the frame start. -/
def Chip.tabFactor (c : Chip) (quarters : Nat) : LoopTab → Nat
  | .one => fInt 1
  | .angle t ch ofs => f32.enc (c.angleTab t ((c.loopAngle ch quarters + ofs) % 2 ^ 32))
  | .drop t idx => f32.enc (c.dropTab t (f32.dec ((c.srcNow idx).getD 0))).1

/-- Does a term read its conduction-drop table beyond its last entry? -/
def Chip.dropBeyond (c : Chip) (t : LoopTerm) : Bool :=
  match t.tab with
  | .drop k idx => (c.dropTab k (f32.dec ((c.srcNow idx).getD 0))).2
  | _ => false

/-- The value of a term: GAIN × value × table factor (R169). -/
def Chip.termValue (c : Chip) (quarters : Nat) (t : LoopTerm) (x : TermSt) : Nat :=
  fMul (fMul t.gain (x.val t)) (c.tabFactor quarters t.tab)

/-- The terms of a slot with their places. -/
def SlotDef.places (d : SlotDef) : List (Nat × LoopTerm) :=
  let put (b : Nat) (l : List LoopTerm) := (List.range l.length).map (fun k => (b + k, l.getD k ⟨0, .const 0, none, .one⟩))
  put 0 d.fb ++ put 4 d.ref ++ put 8 d.ff ++ put 12 d.term ++ put 16 d.track

/-- The term of slot state `x` at a place. -/
def SlotSt.term (x : SlotSt) (k : Nat) : TermSt := mapGet TermSt.idle x.terms k

/-- A signal of a slot: the sum of its terms, from place `b`. -/
def Chip.signal (c : Chip) (quarters b : Nat) (l : List LoopTerm) (x : SlotSt) : Nat :=
  match (List.range l.length).map (fun k =>
      c.termValue quarters (l.getD k ⟨0, .const 0, none, .one⟩) (x.term (b + k))) with
  | [] => 0
  | v :: vs => vs.foldl fAdd v

/-- The age of a slot's FB: that of its oldest term. -/
def SlotSt.ageOf (x : SlotSt) (d : SlotDef) : Nat :=
  ((d.places.filter (fun e => decide (e.1 < 4))).map (fun e => (x.term e.1).age e.2)).foldl max 0

/-! ### The update law (R171) and bumpless transfer (R175) -/

/-- What a run of a slot works on: h in s, its four signals (TERM summed into FF), TRACK_SIG and the age of FB. -/
structure SlotIn where
  h : Nat
  fb : Nat
  ref : Nat
  ff : Nat
  track : Nat
  age : Nat
  deriving DecidableEq, Repr

/-- BUMPLESS_PRESET: entry to AUTO (R175). -/
def SlotSt.enterAuto (x : SlotSt) (d : SlotDef) (i : SlotIn) : SlotSt :=
  let e0 := if i.age = 0 then fSub i.ref i.fb else x.eLast
  let want := fSub (fSub x.out (fMul d.kp e0)) i.ff
  let v := fClamp d.iMin d.iMax want
  { x with mode := 1, integ := v, presetClamped := decide (v ≠ want), lost := false, wantAuto := false, freshRun := 0 }

/-- The output of a run: clamped, then slewed from the previous one (R171). -/
def SlotSt.give (x : SlotSt) (d : SlotDef) (h u : Nat) : SlotSt :=
  let v := fClamp d.outMin d.outMax u
  let step := fMul d.outSlew h
  let o := if fLt 0 d.outSlew then fAdd x.out (fClamp (step + 2 ^ 31) step (fSub v x.out)) else v
  { x with out := o, sat := decide (v ≠ u) }

/-- The update of R171 in the mode the slot is in. In AUTO beyond LOST_LIMIT the run ends without an effect of its own
(FEEDBACK_LOST acts on it). -/
def SlotSt.update (x : SlotSt) (d : SlotDef) (i : SlotIn) : SlotSt :=
  match x.mode with
  | 1 =>
    if i.age = 0 then
      let e := fSub i.ref i.fb
      let p := fMul d.kp e
      let di := fMul (fMul d.ki i.h) e
      let u0 := fAdd (fAdd (fAdd p x.integ) di) i.ff
      let di := if (fLt d.outMax u0 && fLt 0 di) || (fLt u0 d.outMin && fLt di 0) then 0 else di
      let s := fAdd x.integ di
      let v := fClamp d.iMin d.iMax s
      { x with integ := v, iClamp := decide (v ≠ s), eLast := e, aged := false }.give d i.h (fAdd (fAdd p v) i.ff)
    else if i.age ≤ d.lostLimit then
      { x with aged := true }.give d i.h (fAdd (fAdd (fMul d.kp x.eLast) x.integ) i.ff)
    else x
  | 2 => x.give d i.h x.man
  | 3 => x.give d i.h i.track
  | _ => { x with out := 0 }

/-- Is a pattern not a number? -/
def isNan (v : Nat) : Bool := decide (f32.infCode < v % 2 ^ 31)

/-- A missed run (R178): output and integrator keep their values. -/
def SlotSt.miss (x : SlotSt) : SlotSt := { x with missed := true, misses := x.misses + 1 }

/-- The mode that acts in this run (R175, R176, R177), with the answer to a pending request: port and result. -/
def SlotSt.modeChange (x : SlotSt) (d : SlotDef) (i : SlotIn) (blocked : Bool) : SlotSt × Option (Nat × Nat) :=
  let x1 :=
    if blocked then { x with mode := 3, lost := false, wantAuto := false, freshRun := 0 }
    else if x.mode = 3 then x.enterAuto d i
    else if x.wantAuto then x.enterAuto d i
    else x
  match x1.req with
  | none => (x1, none)
  | some (p, m, _) =>
    let y := { x1 with req := none }
    if x1.mode = 3 ∨ x1.mode = 0 then (y, some (p, 2))
    else if m = 1 ∧ x1.lost = true then (y, some (p, 2))
    else if m = 1 then (if x1.mode = 2 then y.enterAuto d i else y, some (p, 1))
    else if m = 2 ∧ x1.mode = 1 then ({ y with mode := 2, man := x1.out, lost := false }, some (p, 1))
    else if x1.mode = 2 then ({ y with lost := false, man := (x.req.map (fun r => r.2.2)).getD x1.man }, some (p, 1))
    else (y, some (p, 1))

/-- Feedback of slot `j` is lost (R179): MANUAL at the last output, counted, flagged and raised; BLOCK at severity 6. The
coding of the primary source in the fault's detail is not stated: a free value. (notes/assumptions: 2 DESIGN CHOICE) -/
def Chip.loseFeedback (c : Chip) (j : Nat) (d : SlotDef) : Chip :=
  let x := c.slot j
  let c1 := c.setSlot j { x with mode := 2, man := x.out, lost := true, freshRun := 0, aged := false }
  let (v, c2) := ((c1.set Reg.Loop.FB_LOST_SEEN).inc Reg.Loop.FB_LOST_COUNT).drawFree
  let detail := j + v % 2 ^ 24 * 256
  if d.fbBlock then c2.raiseAt 4 c2.planeIx 0x77 detail 6 else c2.raise 4 c2.planeIx 0x77 detail

/-- The slots of a card in index order. -/
def CardLoop.inOrder (l : CardLoop) : List (Nat × SlotDef) :=
  (List.range 128).filterMap (fun j => (findKey j l.slots).map (fun d => (j, d)))

/-- One slot in one step: its sources age or refresh, and, in a step that it runs in, its mode and update act; `late` slots
are not complete at LOOP_DEADLINE (R178). (notes/assumptions: 38 DESIGN CHOICE) -/
def Chip.runSlot (c : Chip) (late : List Nat) (j : Nat) (d : SlotDef) : Chip :=
  let x0 := c.slot j
  let terms := d.places.foldl (fun m e => mapSet TermSt.idle m e.1 (c.stepTerm d.xchkTol e.2 (x0.term e.1))) x0.terms
  let x1 := { x0 with terms := terms }
  let age := x1.ageOf d
  let x2 := { x1 with
    fbAge := age, freshRun := if x1.lost && decide (age = 0) then x1.freshRun + 1 else 0
    onAlt := d.places.any (fun e => TermSt.onAlt e.2 (x1.term e.1)) }
  if (c.frame + d.div - d.phase) % d.div ≠ 0 then c.setSlot j x2
  else
    let i : SlotIn := {
      h := fRat (d.div * c.period : Nat) 1000000000, fb := c.signal 0 0 d.fb x2, ref := c.signal 0 4 d.ref x2
      ff := fAdd (c.signal 0 8 d.ff x2) (c.signal 14 12 d.term x2), track := c.signal 0 16 d.track x2, age := age }
    let missedRun (c : Chip) := ((c.setSlot j x2.miss).inc Reg.Loop.MISSED_COUNT).set Reg.Loop.MISSED_SEEN
    if j ∈ late then missedRun c
    else
      let c := if d.places.any (fun e => c.dropBeyond e.2) then c.set Reg.Loop.DROP_RANGE else c
      let blocked := (List.range 8).all (fun r => decide (bits d.serves r 1 = 0) || c.blocked r)
      -- a request for MANUAL that meets the loss of feedback: R179 acts first (R182)
      let c1 := c.setSlot j x2
      let c1 := if x2.mode = 1 ∧ d.lostLimit < age ∧ x2.req.isSome ∧ blocked = false then c1.loseFeedback j d else c1
      let (x3, ans) := (c1.slot j).modeChange d i blocked
      let x4 := x3.update d i
      if isNan x4.out || isNan x4.integ then missedRun c
      else
        let x5 := { x4 with missed := false, misses := 0, missRaised := false, refNow := i.ref, fbNow := i.fb
                            man := match ans, (c1.slot j).req with
                              | some (_, 1), some (_, 2, v) => if x4.mode = 2 then v else x4.man
                              | _, _ => x4.man }
        let c2 := c1.setSlot j x5
        -- a preset made in this run writes presetClamped, whatever it held before
        let again := ({ c1.slot j with presetClamped := false }.modeChange d i blocked).1
        let c3 := if again.presetClamped then c2.set Reg.Loop.PRESET_CLAMPED else c2
        match ans with
        | some (p, r) => c3.wr (Reg.LoopCtl.SLOT_RESULT p) r
        | none => c3

/-- The arm-current signal of a region is measured (R183, R185). -/
def Chip.measureArm (c : Chip) (r : Nat) : Chip :=
  let l := mapGet [] c.card.loop.armSig r
  let step := (List.range l.length).foldl (fun (m : List (Nat × TermSt)) k =>
    let t := l.getD k ⟨0, .const 0, none, .one⟩
    mapSet TermSt.idle m (8 * r + k) (c.stepTerm 0 t (mapGet TermSt.idle m (8 * r + k)))) c.loop.armTerms
  let v := (List.range l.length).foldl (fun acc k =>
    let t := l.getD k ⟨0, .const 0, none, .one⟩
    fAdd acc (c.termValue 0 t (mapGet TermSt.idle step (8 * r + k)))) 0
  { c with loop := { c.loop with armTerms := step, armMeas := mapSet 0 c.loop.armMeas r v } }

/-- LOOP_START (R167): the orders move, the arm currents are measured and every slot in use is evaluated in index order.
(notes/assumptions: 38 DESIGN CHOICE) -/
def execLoopStart (dt : Nat) (late : List (Fin 128)) (s : State) : Host.Outcome State Fault Refusal :=
  s.run fun c =>
    let c1 := (c.advance dt).latchAngles.stepOrders
    let c2 := (List.range 8).foldl (fun c r => c.measureArm r) c1
    c2.card.loop.inOrder.foldl (fun c e => c.runSlot (late.map Fin.val) e.1 e.2) c2

/-! ### The arm assembly (R183 to R186) -/

/-- The output of slot `j`, exact. -/
def Chip.slotFp (c : Chip) (j : Nat) : Fp := f32.dec (c.slot j).out

/-- cos and sin of an angle from table 0 (R172). (notes/assumptions: 38 DESIGN CHOICE) -/
def Chip.cosTab (c : Chip) (a : Nat) : Fp := c.angleTab 0 ((a + 2 ^ 30) % 2 ^ 32)
@[inherit_doc Chip.cosTab] def Chip.sinTab (c : Chip) (a : Nat) : Fp := c.angleTab 0 (a % 2 ^ 32)

/-- Leg phase PH of leg `d`, in ac. -/
def Chip.legPhase (c : Chip) (d : Nat) : Nat := c.card.loop.phases.getD d 0 % 2 ^ 32

/-- vc and vcc of leg `d`, `q` quarter periods after the start of frame n (R184). -/
def Chip.legVolts (c : Chip) (d q : Nat) : Fp × Fp :=
  let ph := c.legPhase d
  let x := (c.loopAngle 0 q + ph) % 2 ^ 32
  let nx := (2 ^ 32 - x) % 2 ^ 32
  let x2 := (c.loopAngle 2 q + 2 * (2 ^ 32 - ph)) % 2 ^ 32
  let b := 16 + 16 * d
  let vc :=
    if d = 3 then c.slotFp 6
    else
      ((((c.slotFp 2).mul (c.cosTab x)).add ((c.slotFp 3).mul (c.sinTab x)).neg).add ((c.slotFp 4).mul (c.cosTab nx))).add
        ((c.slotFp 5).mul (c.sinTab nx)).neg
  let vcc := ((c.slotFp b).add ((c.slotFp (b + 1)).mul (c.cosTab x2))).add ((c.slotFp (b + 2)).mul (c.sinTab x2)).neg
  (vc, vcc)

/-- The arm voltage reference of region `r` at an instant, in 1/256 V (R184). -/
def Chip.armVolts (c : Chip) (r q : Nat) : Int :=
  let (vc, vcc) := c.legVolts (r / 2) q
  let half := Fp.ofRat (c.orders.applied.getD 2 0) 2000000000
  let v := (half.add (if r % 2 = 0 then vc.neg else vc)).add vcc.neg
  v.toInt 256 (-(2 ^ 40)) (2 ^ 40)

/-- The predicted arm current of region `r` at an instant, binary32 (R185). -/
def Chip.armAmps (c : Chip) (r q : Nat) : Nat :=
  let d := r / 2
  let x := (c.loopAngle 0 q + c.legPhase d) % 2 ^ 32
  let iac := ((c.slotFp 0).mul (c.cosTab x)).add ((c.slotFp 1).mul (c.sinTab x)).neg
  let half := iac.mul (Fp.ofRat 1 2)
  let circ := f32.dec (c.slot (16 + 16 * d)).refNow
  f32.enc (circ.add (if r % 2 = 0 then half else half.neg))

/-- A finite value as a whole number of 2^-64 parts, for the phase of the belay reference. -/
def Fp.scaled : Fp → Int
  | .fin neg n d => (if neg then -1 else 1 : Int) * (n * 2 ^ 64 / d : Nat)
  | _ => 0

/-- A of R186: hypot(VD, VQ), binary32. (notes/assumptions: 38 DESIGN CHOICE) -/
def Chip.belayAmp (c : Chip) : Nat :=
  let x := (c.slotFp 2).scaled
  let y := (c.slotFp 3).scaled
  let (n, d) := ratSqrt (x * x + y * y).toNat (2 ^ 128)
  fRat n d

/-- The arm assembly of region `r`: its outputs for frame m are handed over and shown. -/
def Chip.assembleArm (c : Chip) (r : Nat) : Chip :=
  let d := r / 2
  let im := c.armAmps r 14
  let tab := c.rd (Reg.Modp.COND_TABLE r)
  let (dr, beyond) := if tab < 8 then c.dropTab tab (f32.dec im) else (Fp.ofInt 0, false)
  let del := phaseAc (c.slotFp 2).scaled (c.slotFp 3).scaled
  let turn := if r % 2 = 0 then 2 ^ 30 else 3 * 2 ^ 30
  let ph := ((2 ^ 32 - c.legPhase d) + (2 ^ 32 - del) + turn) % 2 ^ 32
  let dc := f32.enc ((Fp.ofRat (c.orders.applied.getD 2 0) 2000000000).add (c.slotFp (16 + 16 * d)).neg)
  let o : ArmOut := {
    v0 := c.armVolts r 12, vH := c.armVolts r 14, v1 := c.armVolts r 16, meas := mapGet 0 c.loop.armMeas r
    i1 := c.armAmps r 6, i2 := c.armAmps r 10, im := im, drop := f32.enc dr, phase := ph }
  let c1 := { c with loop := { c.loop with arms := mapSet ArmOut.idle c.loop.arms r o } }
  let c2 := if beyond then c1.set Reg.Loop.DROP_RANGE else c1
  ((((((((c2.wr (Reg.RegLoop.REF_V0 r) (fRat o.v0 256)).wr (Reg.RegLoop.REF_VH r) (fRat o.vH 256)).wr (Reg.RegLoop.REF_V1 r)
    (fRat o.v1 256)).wr (Reg.RegLoop.I_ARM_PRED r) im).wr (Reg.RegLoop.BELAY_DC r) dc).wr (Reg.RegLoop.BELAY_AC r)
    c.belayAmp).wr (Reg.RegLoop.BELAY_PHASE r) (ph / 65536)).wr (Reg.RegLoop.BELAY_CH r) 0).wr (Reg.RegLoop.DROP_PRED r) o.drop

/-- The status registers of a slot. (notes/assumptions: 45 DEDUCED) -/
def Chip.showSlot (c : Chip) (j : Nat) (d : SlotDef) : Chip :=
  let x := c.slot j
  let anyFrozen := d.places.any (fun e => decide (e.1 < 4) && ((x.term e.1).prim.frozen || (x.term e.1).alt.frozen))
  let anyXchk := d.places.any (fun e => (x.term e.1).xchk)
  (((((((((((((c.wr (Reg.Slot.OUT j) x.out).wr (Reg.Slot.INTEG j) x.integ).wr (Reg.Slot.ERR j) x.eLast).wr (Reg.Slot.MODE j)
    x.mode).wrB (Reg.Slot.SAT j) x.sat).wrB (Reg.Slot.I_CLAMP j) x.iClamp).wrB (Reg.Slot.MISSED j) x.missed).wrB
    (Reg.Slot.FB_AGED j) x.aged).wrB (Reg.Slot.FB_LOST j) x.lost).wrB (Reg.Slot.FB_FROZEN j) anyFrozen).wrB
    (Reg.Slot.ON_ALT j) x.onAlt).wrB (Reg.Slot.XCHK j) anyXchk).wrB (Reg.Slot.PRESET_CLAMPED j) x.presetClamped).wr
    (Reg.Slot.FB_AGE j) (satNat 8 x.fbAge)

/-- LOOP_DEADLINE (R178): the arm assembly hands over, and all slot status is shown together.
(notes/assumptions: 38 DESIGN CHOICE) -/
def execLoopDeadline (dt took : Nat) (s : State) : Host.Outcome State Fault Refusal :=
  s.run fun c =>
    let l := c.card.loop.inOrder
    let c1 := l.foldl (fun c e => c.showSlot e.1 e.2) (c.advance dt)
    let n (f : SlotSt → Bool) := (l.filter (fun e => f (c.slot e.1))).length
    let c2 := ((((c1.wr Reg.Loop.SLOTS_USED l.length).wr Reg.Loop.SLOTS_AUTO (n (fun x => decide (x.mode = 1)))).wr
      Reg.Loop.SLOTS_FB_LOST (n (fun x => x.lost))).inc Reg.Loop.LOOP_STEP_COUNT).wr Reg.Loop.LOOP_TIME took
    ((List.range 8).foldl (fun c r => c.assembleArm r) c2).hwEvent 0x40

/-! ### Events of a slot -/

/-- What the card says of slot `j`. -/
def Chip.slotDef (c : Chip) (j : Nat) : Option SlotDef := findKey j c.card.loop.slots

/-- LOOP_MISS_LIMIT (R178): MISS_LIMIT consecutive missed runs raise the fault once. -/
def execLoopMissLimit (j : Fin 128) (s : State) : Host.Outcome State Fault Refusal :=
  s.run fun c =>
    let x := c.slot j
    match c.slotDef j with
    | some d =>
      if d.missLimit ≤ x.misses ∧ 0 < x.misses ∧ x.missRaised = false then
        (c.setSlot j { x with missRaised := true }).raise 4 c.planeIx 0x76 j.val
      else c
    | none => c

/-- FEEDBACK_LOST (R179). -/
def execFeedbackLost (j : Fin 128) (s : State) : Host.Outcome State Fault Refusal :=
  s.run fun c =>
    match c.slotDef j with
    | some d => if (c.slot j).mode = 1 ∧ d.lostLimit < (c.slot j).fbAge then c.loseFeedback j d else c
    | none => c

/-- FEEDBACK_RECOVER (R179): FB fresh for RECOVER frames in the MANUAL that R179 entered; AUTO at the next run. -/
def execFeedbackRecover (j : Fin 128) (s : State) : Host.Outcome State Fault Refusal :=
  s.run fun c =>
    let x := c.slot j
    match c.slotDef j with
    | some d => if x.lost = true ∧ x.mode = 2 ∧ d.recover ≤ x.freshRun then c.setSlot j { x with wantAuto := true } else c
    | none => c

/-- The source of a term that an event names, if it is a sensor channel. -/
def LoopTerm.sensorOf (t : LoopTerm) (alt : Bool) : Option (Nat × Nat) :=
  match (if alt then t.alt else some t.src) with
  | some (.sensor a ch) => some (a, ch)
  | _ => none

/-- A source of term `k` of slot `j` is changed. -/
def Chip.setSrc (c : Chip) (j k : Nat) (alt : Bool) (f : SrcSt → SrcSt) : Chip :=
  let x := c.slot j
  let t := x.term k
  let t' := if alt then { t with alt := f t.alt } else { t with prim := f t.prim }
  c.setSlot j { x with terms := mapSet TermSt.idle x.terms k t' }

/-- A fresh report of sensor cell `a` has arrived: every term that reads it counts identical and differing values (R180). -/
def Chip.countSensor (c : Chip) (a : Nat) : Chip :=
  c.card.loop.inOrder.foldl (fun c e =>
    e.2.places.foldl (fun c t =>
      [false, true].foldl (fun c alt =>
        match t.2.sensorOf alt with
        | some (a', ch) =>
          if a' = a then
            let v := (c.posn a).sens ch
            c.setSrc e.1 t.1 alt (fun x =>
              if v = x.raw then { x with same := x.same + 1, differ := 0 }
              else { x with raw := v, same := 1, differ := x.differ + 1 })
          else c
        | none => c) c) c) c

/-- The term at place `k` of slot `j`. -/
def Chip.termAt (c : Chip) (j k : Nat) : Option (SlotDef × LoopTerm) :=
  match c.slotDef j with
  | some d => (d.places.find? (fun e => decide (e.1 = k))).map (fun e => (d, e.2))
  | none => none

/-- SENSOR_FROZEN (R180): FROZEN_LIMIT identical reports; the source is no longer fresh. -/
def execSensorFrozen (j : Fin 128) (k : Fin 20) (alt : Bool) (s : State) : Host.Outcome State Fault Refusal :=
  s.run fun c =>
    let x := if alt then ((c.slot j).term k).alt else ((c.slot j).term k).prim
    match c.termAt j k with
    | some (d, t) =>
      match t.sensorOf alt with
      | some (a, ch) =>
        if 0 < d.frozen ∧ d.frozen ≤ x.same ∧ x.frozen = false then
          ((c.setSrc j k alt (fun y => { y with frozen := true, differ := 0 })).set Reg.Loop.FB_FROZEN_SEEN).raise 1 a 0x0B ch
        else c
      | none => c
    | none => c

/-- SENSOR_UNFROZEN (R180): 16 consecutive reports that differ. -/
def execSensorUnfrozen (j : Fin 128) (k : Fin 20) (alt : Bool) (s : State) : Host.Outcome State Fault Refusal :=
  s.run fun c =>
    let x := if alt then ((c.slot j).term k).alt else ((c.slot j).term k).prim
    if x.frozen = true ∧ 16 ≤ x.differ then c.setSrc j k alt (fun y => { y with frozen := false }) else c

/-- SENSOR_DISAGREEMENT (R181): XCHK_FRAMES frames apart set XCHK and raise the fault. -/
def execSensorDisagreement (j : Fin 128) (k : Fin 20) (s : State) : Host.Outcome State Fault Refusal :=
  s.run fun c =>
    let x := c.slot j
    let t := x.term k
    match c.slotDef j with
    | some d =>
      if t.xchk = false ∧ d.xchkFrames ≤ t.apart ∧ 0 < t.apart then
        ((c.setSlot j { x with terms := mapSet TermSt.idle x.terms k { t with xchk := true } }).set Reg.Loop.XCHK_SEEN).raise 4
          c.planeIx 0x78 j.val
      else c
    | none => c

/-- XCHK_CLEAR (R181): XCHK_FRAMES agreeing frames clear XCHK. -/
def execXchkClear (j : Fin 128) (k : Fin 20) (s : State) : Host.Outcome State Fault Refusal :=
  s.run fun c =>
    let x := c.slot j
    let t := x.term k
    match c.slotDef j with
    | some d =>
      if t.xchk = true ∧ d.xchkFrames ≤ t.agree then
        c.setSlot j { x with terms := mapSet TermSt.idle x.terms k { t with xchk := false } }
      else c
    | none => c

/-- SLOT_GO (R177): a host's request waits for the slot's next run, or is refused. -/
def execSlotGo (p : PortIx) (s : State) : Host.Outcome State Fault Refusal :=
  s.run fun c =>
    let res := Reg.LoopCtl.SLOT_RESULT p
    let j := c.rd (Reg.LoopCtl.SLOT_SEL p)
    let m := c.rd (Reg.LoopCtl.MODE_REQ p)
    let x := c.slot j
    if c.has p .order = false then c.refuseTo p res 3
    else
      match c.slotDef j with
      | none => c.wr res 2
      | some d =>
        if x.mode = 3 ∨ x.mode = 0 ∨ d.manAllowed = false ∨ m = 3 then c.wr res 2
        else if m = 1 ∧ (x.lost = true ∨ (x.mode = 1 ∧ d.lostLimit < x.fbAge)) then c.wr res 2
        else
          match x.req with
          | some (q, _, _) =>
            if q ≠ p.val then c.wr res 4
            else (c.wr res 0).setSlot j { x with req := some (p.val, m, c.rd (Reg.LoopCtl.MAN_VALUE p)) }
          | none => (c.wr res 0).setSlot j { x with req := some (p.val, m, c.rd (Reg.LoopCtl.MAN_VALUE p)) }

end Sys2Proof.Machine
end

