-- ==== Sys2Proof/Machine/Rank.lean ====
section
/-! DEFINITION. The rank engines and edge computers (chapter 05): predicted voltages (R122), keys (R125), the order (R127,
R128), redundancy (R22), duty and polarity (R130, R131), swaps and the walk (R132 to R136), belay windows (R139, R140), and the
hand-over of commands (R111, R137, R138). Voltages are held in 2^-24 V, currents in 2^-16 A; notes/assumptions/18.md. -/

namespace Sys2Proof.Machine

/-- One volt. (notes/assumptions: 18 DESIGN CHOICE) -/
def volt : Int := 2 ^ 24

/-- Ticks of 0.8 ns in a frame (R132). -/
def Chip.pTicks (c : Chip) : Nat := if c.on Reg.Time.FRAME_20US then 25000 else 12500

/-- The number of the frame `k` frames after the one in progress. -/
def Chip.frameAfter (c : Chip) (k : Int) : Nat := (((c.frame : Int) + k) % (2 ^ 32 : Int)).toNat

/-- Frames from `x` to `y`, wrapping. -/
def frameDiff (y x : Nat) : Int := signedDiff 32 y x

/-! ### Predicted voltages -/

/-- +1 for an inserted POS, −1 for NEG, 0 else (R122). -/
def polSign (target : Nat) : Int := if target = 1 then 1 else if target = 2 then -1 else 0

/-- Signed inserted ticks of a frame that starts at a target and changes as listed. -/
def insertedTicks (start : Nat) (ev : List (Nat × Nat)) (ticks : Nat) : Int × Nat :=
  let r := ev.foldl (fun (acc : Int × Nat × Nat) e => (acc.1 + polSign acc.2.2 * ((e.1 : Int) - acc.2.1), e.1, e.2)) (0, 0, start)
  (r.1 + polSign r.2.2 * ((ticks : Int) - r.2.1), r.2.2)

/-- Changes closer than MIN_DWELL to the one before are deferred to it (R216). -/
def deferEvents (dwell : Nat) : Option Int → List (Nat × Nat) → List (Nat × Nat)
  | _, [] => []
  | none, e :: l => e :: deferEvents dwell (some (e.1 : Int)) l
  | some t, e :: l =>
    let k := (max (e.1 : Int) (t + dwell)).toNat
    (k, e.2) :: deferEvents dwell (some (k : Int)) l

/-- The frame of a cell that runs its belay plan in it (R122, R217): from the row before, at a channel angle and RATE.
(notes/assumptions: 18 DESIGN CHOICE) -/
def Chip.belayRow (c : Chip) (r f : Nat) (x0 : Nat) (rate : Int) (valid : Bool) (last : Option Int) (before : HistRow) : HistRow :=
  if before.kind ≠ 1 then { before with frame := f, ticks := polSign before.finish * c.pTicks }
  else
    let (start, ev) := if valid then
        belaySchedule x0 rate before.lo before.hi before.pol (c.rd (Reg.Modp.MIN_PULSE r)) c.pTicks
      else (0, [])
    let dwell := c.rd (Reg.Modp.DEAD_TIME r) + c.rd (Reg.Modp.MIN_PULSE r)
    let ev := if start = before.finish then ev else (0, start) :: ev
    let ev := (deferEvents dwell last ev).filter (fun e => decide (e.1 < c.pTicks))
    let (t, fin) := insertedTicks before.finish ev c.pTicks
    { before with frame := f, ticks := t, finish := fin }

/-- The rows of a cell with frame `f` replaced by the belay run from the row before it. -/
def Chip.rowsWithBelay (c : Chip) (r f : Nat) (x0 : Nat → Nat) (rate : Nat → Int) (ok : Nat → Bool) (l : List HistRow) :
    List HistRow :=
  match l.find? (fun h => decide (h.frame = (f + (2 ^ 32 - 1)) % 2 ^ 32)) with
  | none => l
  | some b =>
    let row := c.belayRow r f (x0 b.ch) (rate b.ch) (ok b.ch) none b
    l.map (fun h => if h.frame = f then row else h)

/-- A report of the frame before shows that the cell held no command in it: its row becomes its belay run (R122). -/
def Chip.cellMissed (c : Chip) (a : Nat) : Chip :=
  let x := c.rcell a
  let at0 (n : Nat) : Nat := (c.chan n).prevAngle * 65536
  let rows := c.rowsWithBelay (regionOf a) (c.frameAfter (-1)) at0 (fun n => (c.chan n).prevRate)
    (fun n => c.on (Reg.Angle.VALID n)) x.hist
  c.setRcell a { x with hist := rows }

/-- C_CELL of a region's power stage, in 0.01 mF (R122, R453). -/
def Chip.cCell (c : Chip) (r : Nat) : Nat :=
  match c.card.pack.stages.find? (fun d => decide (d.stageType = mapGet 0 c.card.pack.regionStage r)) with
  | some d => d.cCell
  | none => 0

/-- The arm current of region `r` in frame `f`, 2^-16 A (R122). -/
def RegRank.amps (x : RegRank) (f : Nat) : Int := ((x.arm.find? (fun e => decide (e.1 = f))).map (fun e => e.2)).getD 0

/-- V̂ of the cell at `a` for the start of frame m, from its last fresh report (R122, R123).
(notes/assumptions: 18 DESIGN CHOICE) -/
def Chip.predict (c : Chip) (a m : Nat) : Int :=
  let r := regionOf a
  let p := c.posn a
  let x := c.rcell a
  match p.freshFrame with
  | none => x.vHat
  | some n0 =>
    let k := frameDiff m n0
    let rows := x.hist.filter (fun h => decide (0 ≤ frameDiff h.frame n0 ∧ 0 < frameDiff m h.frame))
    let q := (rows.map (fun h => h.ticks * (c.rreg r).amps h.frame)).sum
    let pt : Int := c.pTicks
    let idc := toSigned 16 p.iDcdc
    let num := (c.period : Int) * volt * (q * 20 - k * idc * pt * 65536)
    let den := c.cCell r * 10000 * c.pTicks * 65536 * 20
    divRound ((p.vCap : Int) * volt) 20 + divRound num den

/-- E_DEV (R125): the energy deviation from V_SET (0.05 V), in 0.05 V, saturated to 16 bits; 0 without a V_SET.
(notes/assumptions: 18 DESIGN CHOICE) -/
def energyDev (v : Int) (vset : Nat) : Int :=
  if vset = 0 then 0
  else satSigned 16 (divRound (400 * v * v - (vset : Int) * vset * volt * volt) (2 * vset * 2 ^ 48))

/-! ### The order (R127, R128) -/

/-- The tie rule's value of a cell in the frame of the rank (R127). -/
def tieOf (a frame : Nat) : Nat := (a % 2048 + 2048 - frame % 2048) % 2048

/-- Does cell `a` sort before cell `b`? -/
def Chip.ranksBefore (c : Chip) (frame a b : Nat) : Bool :=
  let ka := (c.rcell a).key
  let kb := (c.rcell b).key
  decide (ka < kb) || (decide (ka = kb) && decide (tieOf a frame < tieOf b frame))

/-- Insert into an ordered list. -/
def insertBy (lt : Nat → Nat → Bool) (a : Nat) : List Nat → List Nat
  | [] => [a]
  | b :: l => if lt a b then a :: b :: l else b :: insertBy lt a l

/-- The cells in ascending order. -/
def sortBy (lt : Nat → Nat → Bool) (l : List Nat) : List Nat := l.foldr (insertBy lt) []

/-- Entries of the previous order that are out of place under the new keys: those that sort before the greatest kept so far. -/
def outOfPlace (lt : Nat → Nat → Bool) : Option Nat → List Nat → Nat
  | _, [] => 0
  | none, a :: l => outOfPlace lt (some a) l
  | some g, a :: l => if lt a g then outOfPlace lt (some g) l + 1 else outOfPlace lt (some a) l

/-! ### Insertable cells and redundancy (R21, R22, R124) -/

/-- Is the cell at `a` insertable? -/
def Chip.isInsertable (c : Chip) (a : Nat) : Bool :=
  let p := c.posn a
  let r := regionOf a
  !c.isSensor a && decide (p.admState = 6) && decide (4 ≤ p.state ∧ p.state ≤ 6) && decide (a ∉ c.faults.fencedCells) &&
    decide (c.mode (a / 64) ≠ 3) && decide (bits p.status 10 1 = 1) && decide (bits p.status 8 1 = 1) &&
    decide (bits p.status 15 1 = 0) && decide (c.rd (Reg.Modp.V_INS_MIN r) ≤ p.vCap) && decide (p.vCap ≤ c.rd (Reg.Modp.V_INS_MAX r))

/-- The redundancy registers of region `r`, and its two faults once on entry to their condition while deblocked (R22). -/
def Chip.setRedundancy (c : Chip) (r n : Nat) : Chip :=
  let (red, low, below) := redundancyFlags n (c.rd (Reg.RegionRed.N_MIN r)) (c.rd (Reg.RegionRed.REDUNDANCY_WARN r))
  let c1 := (((c.wr (Reg.RegionRed.N_INSERTABLE r) n).wrI (Reg.RegionRed.REDUNDANCY r) red).wrB (Reg.RegionRed.LOW r)
    (low && !below)).wrB (Reg.RegionRed.BELOW_MIN r) below
  let on := !c.blocked r
  let x := c.rreg r
  let lowNow := on && low && !below
  let belowNow := on && below
  let c2 := c1.setRreg r { x with lowHeld := lowNow, belowHeld := belowNow }
  let c3 := if lowNow && !x.lowHeld then c2.raise 3 r 0x60 n else c2
  if belowNow && !x.belowHeld then c3.raiseAt 3 r 0x61 n 6 else c3

/-! ### The rank -/

/-- W_APPLIED moves towards W_TARGET (R126). (notes/assumptions: 18 DESIGN CHOICE) -/
def slewWeight (w target : Int) (slew wmax : Nat) : Int :=
  clampInt (-(wmax : Int)) wmax (w + clampInt (-(slew : Int)) slew (target - w))

/-- The weight target and the current reference in force for a cell: those of the last completed tick once its outputs are
effective (R145). -/
def Chip.policyOut (c : Chip) (a : Nat) : Int × Int := mapGet (0, 0) c.policy.inForce a

/-- Key, V̂ and V_EFF of one cell for frame m. -/
def Chip.keyCell (c : Chip) (r m : Nat) (takeover : Bool) (a : Nat) : Chip :=
  let x := c.rcell a
  let ins := c.isInsertable a
  let stale := decide (c.rd (Reg.Modp.STALE_LIMIT r) < (c.posn a).age)
  let wt := (c.policyOut a).2
  let enrolled := decide ((c.posn a).admState = 6)
  let w := if !enrolled then 0 else if !x.entered then 0 else if takeover then wt
    else slewWeight x.w wt (c.rd (Reg.Modp.W_SLEW r)) (c.rd (Reg.Modp.W_MAX r))
  let v := if stale then x.vHat else c.predict a m
  let e := energyDev v (mapGet 0 c.card.vSet r)
  let dr := fToInt (mapGet ArmOut.idle c.loop.arms r).drop (2 ^ 24) (-(2 ^ 40)) (2 ^ 40)
  c.setRcell a { x with
    ranked := ins, insertable := ins, stale := stale, w := w, entered := enrolled && (x.entered || ins), vHat := v, vEff := v - dr
    eDev := e, key := satSigned 24 (e + w) }

/-- The cell table entry of the position at `a` (chapter 20). (notes/assumptions: 45 DEDUCED) -/
def Chip.showCell (c : Chip) (a : Nat) : Chip :=
  let p := c.posn a
  let x := c.rcell a
  let y := c.pol a
  let c1 := (((((((c.wr (Reg.Ct.CT_STATE a) p.state).wr (Reg.Ct.CT_ADM_STATE a) p.admState).wrB (Reg.Ct.CT_INSERTABLE a)
    x.insertable).wrB (Reg.Ct.CT_INSERTED a) (decide (x.target = 1 ∨ x.target = 2))).wrB (Reg.Ct.CT_STALE a) x.stale).wrB
    (Reg.Ct.CT_FENCED a) (decide (p.state = 8 ∨ a ∈ c.faults.fencedCells))).wrB (Reg.Ct.CT_LOCAL_HOLD a)
    (decide (bits p.status 15 1 = 1))).wrB (Reg.Ct.CT_SENSOR a) (c.isSensor a)
  let c2 := ((((c1.wr (Reg.Ct.CT_EPOCH a) p.epochRec).wr (Reg.Ct.CT_V_CAP a) p.vCap).wr (Reg.Ct.CT_V_PACK a) p.vPack).wr
    (Reg.Ct.CT_I_PACK a) p.iPack).wr (Reg.Ct.CT_T_STAGE a) p.tStage
  (((c2.wr (Reg.Ct.CT_PACK_STATE a) (c.rd (Reg.Idb.PACK_STATE a))).wr (Reg.Ct.CT_AGE a) p.age).wr (Reg.Ct.CT_DERATE a)
    y.derate).wr (Reg.Ct.CT_SOC a) (if y.admitted then (divRound (y.soc * 10000) (2 ^ 48)).toNat else 0xFFFF)

/-- The rank probes of region `r` show the cells that the ports name (R143). -/
def Chip.showProbe (c : Chip) (r p : Nat) : Chip :=
  let a := 2048 * r + c.rd (Reg.RankProbe.PROBE_CELL p r)
  let x := c.rcell a
  (((((((c.wrI (Reg.RankProbe.PROBE_KEY p r) x.key).wrI (Reg.RankProbe.PROBE_E_DEV p r) x.eDev).wrI
    (Reg.RankProbe.PROBE_W p r) x.w).wr (Reg.RankProbe.PROBE_PLACE p r) x.place).wrB (Reg.RankProbe.PROBE_RANKED p r)
    x.ranked).wrB (Reg.RankProbe.PROBE_INSERTED p r) (decide (x.target = 1 ∨ x.target = 2))).wrB
    (Reg.RankProbe.PROBE_STALE p r) x.stale).wr (Reg.RankProbe.PROBE_AGE p r) (min (c.posn a).age 15)

/-- RANK_COMPLETE (R128): region `r` is ranked for the execution frame two frames on. (notes/assumptions: 18 DESIGN CHOICE) -/
def Chip.rankRegion (c : Chip) (r cycles : Nat) : Chip :=
  let f := c.frame
  let m := c.frameAfter 2
  let x := c.rreg r
  let o := mapGet ArmOut.idle c.loop.arms r
  let amps (v : Nat) := fToInt v 65536 (-(2 ^ 40)) (2 ^ 40)
  let old := x.arm.filter (fun e => decide (0 < frameDiff (c.frameAfter (-1)) e.1))
  let arm := (c.frameAfter 1, amps o.i2) :: (f, amps o.i1) :: (c.frameAfter (-1), amps o.meas) :: old.take 13
  let c1 := c.setRreg r { x with arm := arm }
  let cells := (c1.regionCells r).filter (fun a => !c1.isSensor a)
  let c2 := cells.foldl (fun c a => c.keyCell r m x.takeover a) c1
  let ins := cells.filter (fun a => (c2.rcell a).insertable)
  let lt := c2.ranksBefore f
  let order := sortBy lt ins
  let kept := x.order.filter (fun a => decide (a ∈ ins))
  let moved := outOfPlace lt none kept + (ins.filter (fun a => decide (a ∉ x.order))).length
  let full := x.takeover || decide (64 < moved)
  let c3 := (List.range order.length).foldl (fun c k =>
    let a := order.getD k 0
    c.setRcell a { c.rcell a with place := k }) c2
  let e := (ins.map (fun a => ((c3.rcell a).vHat * (c3.rcell a).vHat) * (c.cCell r : Int))).sum
  let avail := (ins.map (fun a => (c3.rcell a).vEff)).sum
  let c4 := c3.setRreg r { c3.rreg r with
    phase := 2, done := some f, order := order, takeover := false, eArm := fRat e (2 ^ 49 * 100000), vAvail := avail }
  let n (g : RankCell → Bool) (l : List Nat) := (l.filter (fun a => g (c4.rcell a))).length
  let c5 := ((((c4.wrB (Reg.Mods.RANK_PATH r) full).wr (Reg.Mods.RANK_TIME r) cycles).wr (Reg.Mods.V_SET r)
    (mapGet 0 c.card.vSet r)).wr (Reg.Mods.MISSING_RANKED r)
      ((ins.filter (fun a => decide (0 < (c.posn a).age) && !(c4.rcell a).stale)).length)).wr (Reg.Mods.STALE_CELLS r)
    (n (fun y => y.stale) ins)
  let c6 := c5.setRedundancy r ins.length
  let c7 := (c6.regionCells r).foldl (fun c a => c.showCell a) c6
  [0, 1, 2, 3].foldl (fun c p => c.showProbe r p) c7

/-- RANK_COMPLETE (R128): the rank that REPORT_CUTOFF started is done; REDUNDANCY_LOW and BELOW_MINIMUM with it. -/
def execRankComplete (dt : Nat) (r : RegionIx) (cycles : Nat) (s : State) : Host.Outcome State Fault Refusal :=
  s.run fun c =>
    let c1 := c.advance dt
    if (c1.rreg r).phase = 1 then (c1.rankRegion r cycles).hwEvent (0x10 + r.val) else c1

/-- RANK_LATE (R128): the rank passes its bound; that frame's commands go out EMPTY. -/
def execRankLate (dt : Nat) (r : RegionIx) (s : State) : Host.Outcome State Fault Refusal :=
  s.run fun c =>
    let c1 := c.advance dt
    if (c1.rreg r).phase = 1 then
      ((c1.setRreg r { c1.rreg r with phase := 5 }).set (Reg.Mods.RANK_LATE r)).raise 4 (r.val / 2) 0x74 r
    else c1

/-! ### The edge computer (R130 to R136) -/

/-- A cell in the walk: place in the ascending order, state, INITIAL, edges (newest first), and the tick of its last commanded
change counted from the start of frame m. -/
structure WCell where
  addr : Nat
  key : Int
  vEff : Int
  stale : Bool
  cur : Nat
  init : Nat
  edges : List (Nat × Nat)
  last : Option Int
  used : Bool
  deriving DecidableEq, Repr

/-- What the walk holds: cells in ascending order, polarity (1 POS, 2 NEG), duty (0 CHARGE), the sum V_S, the next tick, level
changes placed up and down, deferrals and whether the polarity reversed. -/
structure Walk where
  cells : List WCell
  pol : Nat
  duty : Nat
  vs : Int
  k : Nat
  ups : Nat
  downs : Nat
  deferred : Nat
  reversed : Bool
  deriving DecidableEq, Repr

/-- The fixed quantities of a walk: ticks of the frame, T_COMP, MIN_DWELL, three samples in 1/256 V, the clip range in 2^-24 V,
current (2^-16 A) and hysteresis (0.1 A), POL_MODE and POL_HYST (V). -/
structure WalkIn where
  pt : Nat
  tComp : Int
  dwell : Nat
  v0 : Int
  vH : Int
  v1 : Int
  vLow : Int
  vAvail : Int
  iArm : Int
  iHyst : Nat
  bipolar : Bool
  polHyst : Nat
  deriving DecidableEq, Repr

/-- vref at tick j times P_TICKS², in 2^-24 V, before clipping (R121). -/
def WalkIn.raw (w : WalkIn) (j : Int) : Int :=
  let p : Int := w.pt
  65536 * (w.v0 * p * p + (4 * w.vH - 3 * w.v0 - w.v1) * j * p + 2 * (w.v0 + w.v1 - 2 * w.vH) * j * j)

/-- The clipped reference (R136). -/
def WalkIn.vref (w : WalkIn) (j : Int) : Int :=
  let p : Int := w.pt
  clampInt (w.vLow * p * p) (w.vAvail * p * p) (w.raw j)

/-- The reference in the sense of polarity `pol`: mirrored for NEG. -/
def WalkIn.mirrored (w : WalkIn) (pol : Nat) (j : Int) : Int := if pol = 2 then -w.vref j else w.vref j

/-- The duty under R130 at a polarity, from the duty before. -/
def WalkIn.duty (w : WalkIn) (pol before : Nat) : Nat :=
  let x := (if pol = 2 then -w.iArm else w.iArm) * 10
  if (w.iHyst : Int) * 65536 < x then 0 else if x < -((w.iHyst : Int) * 65536) then 1 else before

/-- The insertion order under a duty: bypassed cells, the stale ones last, the 64 of the head (R123, R129, R130). -/
def Walk.insertOrder (w : Walk) (duty : Nat) : List WCell :=
  let l := if duty = 0 then w.cells else w.cells.reverse
  let b := l.filter (fun x => decide (x.cur = 0) && !x.used)
  (b.filter (fun x => !x.stale) ++ b.filter (fun x => x.stale)).take 64

/-- The removal order: inserted cells, the stale ones first (R123); R133 makes one of them eligible only when no other cell of
the head is. -/
def Walk.removeOrder (w : Walk) (duty : Nat) : List WCell :=
  let l := if duty = 0 then w.cells.reverse else w.cells
  let b := l.filter (fun x => decide (x.cur = 1 ∨ x.cur = 2) && !x.used)
  (b.filter (fun x => x.stale) ++ b.filter (fun x => !x.stale)).take 64

/-- The command instant of a step wanted at tick k (R132). -/
def WalkIn.cmdTick (w : WalkIn) (k : Nat) : Nat := ((k : Int) - w.tComp).toNat

/-- The first wanted tick from `k` on at which a cell is eligible (R133); its last change is weighed at the command instant.
(notes/assumptions: 18 DESIGN CHOICE) -/
def WalkIn.eligibleAt (w : WalkIn) (x : WCell) (k : Nat) : Option Nat :=
  if 4 ≤ x.edges.length then none
  else
    match x.last with
    | none => some k
    | some l => if l + w.dwell ≤ w.cmdTick k then some k else some (max (k : Int) (l + w.dwell + w.tComp)).toNat

/-- The first tick from `k`, within `n` ticks, at which a condition holds. -/
def firstTick (p : Nat → Bool) (k : Nat) : Nat → Option Nat
  | 0 => none
  | n + 1 => if p k then some k else firstTick p (k + 1) n

/-- Wanted ticks from `k` that are searched (R132). -/
def WalkIn.span (w : WalkIn) (k : Nat) : Nat := ((w.pt : Int) + w.tComp - k).toNat

/-- The first eligible cell of a head at wanted tick `k`: a stale one only when no other cell of it is eligible (R133). -/
def WalkIn.pick (w : WalkIn) (l : List WCell) (k : Nat) : Option WCell :=
  let ok := l.filter (fun x => decide (w.eligibleAt x k = some k))
  match ok.find? (fun x => !x.stale) with
  | some x => some x
  | none => ok.head?

/-- The step that an order offers from tick `k`: the first eligible cell at its crossing, or, when none of the head is
eligible, the head cell that becomes eligible first, deferred to that tick (R133, R134): tick, cell, deferred.
(notes/assumptions: 18 DESIGN CHOICE) -/
def WalkIn.offer (w : WalkIn) (l : List WCell) (k : Nat) (cross : WCell → Nat → Bool) : Option (Nat × WCell × Bool) :=
  match w.pick l k with
  | some x => (firstTick (cross x) k (w.span k)).map (fun j => (j, x, false))
  | none =>
    match (l.filterMap (fun x => w.eligibleAt x k)).min? with
    | none => none
    | some e => (w.pick l e).bind (fun x => (firstTick (cross x) k (w.span k)).bind (fun j =>
        let t := max e j
        if t < k + w.span k then some (t, x, decide (j < e)) else none))

/-- A cell of the walk takes a target at a wanted tick: an edge, or INITIAL where its command instant lies before tick 0. -/
def WalkIn.place (w : WalkIn) (x : WCell) (kw target : Nat) : WCell :=
  let t := (kw : Int) - w.tComp
  if t < 0 then { x with cur := target, init := target, last := some 0 }
  else { x with cur := target, edges := (t.toNat, target) :: x.edges, last := some t }

/-- The walk with one cell replaced. -/
def Walk.put (w : Walk) (x : WCell) : Walk := { w with cells := w.cells.map (fun y => if y.addr = x.addr then x else y) }

/-- The target of an insertion at a polarity. -/
def insertTarget (pol : Nat) : Nat := if pol = 2 then 2 else 1

/-- One step of the walk (R132, R131), or none where it ends. (notes/assumptions: 18 DESIGN CHOICE) -/
def WalkIn.step (w : WalkIn) (x : Walk) : Option Walk :=
  let p : Int := w.pt
  let two (v : Int) := 2 * v
  let up := w.offer (x.insertOrder x.duty) x.k (fun u j => decide ((2 * x.vs + u.vEff) * p * p ≤ two (w.mirrored x.pol j)))
  let dn := w.offer (x.removeOrder x.duty) x.k (fun d j => decide (two (w.mirrored x.pol j) ≤ (2 * x.vs - d.vEff) * p * p))
  let other := if x.pol = 2 then 1 else 2
  let duty2 := w.duty other x.duty
  let rev := if w.bipolar && x.cells.all (fun y => decide (y.cur = 0)) then
      w.offer (x.insertOrder duty2) x.k (fun u j =>
        decide (max u.vEff (2 * (w.polHyst : Int) * volt) * p * p ≤ two (w.mirrored other j)))
    else none
  let t (o : Option (Nat × WCell × Bool)) : Nat := (o.map (fun e => e.1)).getD (2 ^ 40)
  if x.ups ≥ 64 ∨ x.downs ≥ 64 then none
  else
    let kw := min (t up) (min (t dn) (t rev))
    if w.span 0 ≤ kw ∨ w.pt ≤ w.cmdTick kw then none
    else
      let go (o : Option (Nat × WCell × Bool)) (f : WCell → Bool → Walk) : Option Walk := o.map (fun e => f e.2.1 e.2.2)
      if t up = kw then
        go up (fun u d => { x.put (w.place u kw (insertTarget x.pol)) with
          vs := x.vs + u.vEff, k := kw + 1, ups := x.ups + 1, deferred := x.deferred + bit d })
      else if t dn = kw then
        go dn (fun u d => { x.put (w.place u kw 0) with
          vs := x.vs - u.vEff, k := kw + 1, downs := x.downs + 1, deferred := x.deferred + bit d })
      else
        go rev (fun u d => { x.put (w.place u kw (insertTarget other)) with
          vs := x.vs + u.vEff, k := kw + 1, ups := x.ups + 1, deferred := x.deferred + bit d, pol := other, duty := duty2
          reversed := true })

/-- The walk, to its end. -/
def WalkIn.walk (w : WalkIn) (x : Walk) : Nat → Walk
  | 0 => x
  | n + 1 =>
    match w.step x with
    | none => x
    | some y => w.walk y n

/-- Swaps at tick 0 (R135): up to `n` pairs whose keys differ by more than SWAP_HYST; used cells leave the heads. -/
def WalkIn.swaps (w : WalkIn) (hyst : Nat) (x : Walk) : Nat → Walk × Nat
  | 0 => (x, 0)
  | n + 1 =>
    let ok (y : WCell) := !y.stale && decide (w.eligibleAt y 0 = some 0) && decide ((y.last.getD (-(2 ^ 40))) + w.dwell ≤ 0)
    match (x.insertOrder x.duty).find? ok, (x.removeOrder x.duty).find? ok with
    | some u, some d =>
      let diff := if x.duty = 0 then d.key - u.key else u.key - d.key
      if (hyst : Int) < diff then
        let t := insertTarget x.pol
        let y := (x.put { u with cur := t, init := t, last := some 0, used := true }).put
          { d with cur := 0, init := 0, last := some 0, used := true }
        let (z, k) := w.swaps hyst { y with vs := x.vs + u.vEff - d.vEff } n
        (z, k + 1)
      else (x, 0)
    | _, _ => (x, 0)

/-- The inputs of the edge computer of region `r`. -/
def Chip.walkIn (c : Chip) (r : Nat) : WalkIn :=
  let o := mapGet ArmOut.idle c.loop.arms r
  let bip := c.on (Reg.Modp.POL_MODE r)
  let avail := (c.rreg r).vAvail
  { pt := c.pTicks, tComp := c.rdI (Reg.Modp.T_COMP r)
    dwell := c.rd (Reg.Modp.DEAD_TIME r) + c.rd (Reg.Modp.MIN_PULSE r), v0 := o.v0, vH := o.vH, v1 := o.v1
    vLow := if bip then -avail else 0, vAvail := avail, iArm := fToInt o.im 65536 (-(2 ^ 40)) (2 ^ 40)
    iHyst := c.rd (Reg.Modp.I_DIR_HYST r), bipolar := bip, polHyst := c.rd (Reg.Modp.POL_HYST r) }

/-- The walk of region `r` before its swaps: every cell in its state at the end of frame m − 1; a cell that leaves BLOCK takes
INITIAL BYPASS, a change at tick 0 (R137). -/
def Chip.walkStart (c : Chip) (r m : Nat) (w : WalkIn) : Walk :=
  let x := c.rreg r
  let cells := x.order.map (fun a =>
    let y := c.rcell a
    let cur := if y.target = 3 then 0 else y.target
    let last : Option Int := if y.target = 3 then some 0 else y.last.map (fun e => -(frameDiff m e.1) * w.pt + e.2)
    (⟨a, y.key, y.vEff, y.stale, cur, cur, [], last, false⟩ : WCell))
  let held := cells.find? (fun y => decide (y.cur ≠ 0))
  let pol := if w.bipolar then (match held with | some y => y.cur | none => x.pol) else 1
  { cells := cells, pol := pol, duty := w.duty pol x.duty
    vs := ((cells.filter (fun y => decide (y.cur ≠ 0))).map (fun y => y.vEff)).sum
    k := 0, ups := 0, downs := 0, deferred := 0, reversed := false }

/-- A dated block inside the frame cuts a cell's edges at its tick and is the last of them (R138). -/
def cutAtBlock (block : Option Nat) (x : WCell) : WCell :=
  match block with
  | none => x
  | some t => { x with edges := (t, 3) :: ((x.edges.filter (fun e => decide (e.1 < t))).reverse.take 3).reverse, cur := 3 }

/-- The command of a cell of the walk and its row for frame m. -/
def Chip.keepWalk (c : Chip) (m : Nat) (x : WCell) : Chip :=
  let y := c.rcell x.addr
  let ev := x.edges.reverse
  let (t, fin) := insertedTicks x.init ev c.pTicks
  let row : HistRow := ⟨m, t, fin, 0, 0, 0, 0, 1⟩
  let lastTick := x.last.bind (fun l => if 0 ≤ l then some (m, l.toNat) else none)
  c.setRcell x.addr { y with
    initial := x.init, edges := ev, target := fin, hist := (row :: y.hist).take 16
    last := match lastTick with | some e => some e | none => y.last }

/-- EDGE_COMPUTE_DONE (R132): swaps and walk of region `r` for execution frame m. -/
def Chip.computeEdges (c : Chip) (r : Nat) (block : Option Nat) : Chip :=
  let m := c.frameAfter 2
  let w := c.walkIn r
  let x0 := c.walkStart r m w
  let (x1, swaps) := w.swaps (c.rd (Reg.Modp.SWAP_HYST r)) x0 (c.rd (Reg.Modp.SWAP_MAX r))
  let x2 := w.walk x1 129
  let cells := x2.cells.map (cutAtBlock block)
  let c1 := cells.foldl (fun c x => c.keepWalk m x) c
  let clipped := (List.range (w.pt + 1)).any (fun j => decide (w.vref j ≠ w.raw j))
  let n := (cells.filter (fun x => decide (x.cur = 1 ∨ x.cur = 2))).length
  let c2 := c1.setRreg r { c1.rreg r with phase := 3, pol := x2.pol, duty := x2.duty }
  let c3 := (((((c2.wr (Reg.Mods.DUTY r) x2.duty).wr (Reg.Mods.POLARITY r) (x2.pol - 1)).wrB (Reg.Mods.CLIPPED r) clipped).wr
    (Reg.Mods.N_INSERTED r) n).wr (Reg.Mods.EDGES_LAST r) (x2.ups + x2.downs)).wr (Reg.Mods.SWAPS_LAST r) swaps
  let c4 := if clipped then (c3.inc (Reg.Mods.OVERMOD_COUNT r)).set (Reg.Mods.OVERMOD_SEEN r) else c3
  let c5 := if 0 < x2.deferred then (c4.add (Reg.Mods.DEFERRED_COUNT r) x2.deferred).set (Reg.Mods.DEFER_SEEN r) else c4
  let c6 := if 64 ≤ x2.ups ∨ 64 ≤ x2.downs then c5.set (Reg.Mods.BUDGET_HIT r) else c5
  if x2.reversed then c6.set (Reg.Mods.POL_REVERSED r) else c6

/-- EDGE_COMPUTE_DONE (R132): `block` is the tick of a block that a task has dated into the frame. A blocked region places no
edges (R138). -/
def execEdgeComputeDone (dt : Nat) (r : RegionIx) (block : Option (Fin 25000)) (s : State) : Host.Outcome State Fault Refusal :=
  s.run fun c =>
    let c1 := c.advance dt
    if (c1.rreg r).phase = 2 then
      (if c1.blocked r then c1.setRreg r { c1.rreg r with phase := 3 } else c1.computeEdges r (block.map Fin.val)).hwEvent
        (0x20 + r.val)
    else c1

/-! ### Belay plans (R139, R140) -/

/-- The short angle nearest to an angle in ac, moved earlier by T_COMP × RATE. -/
def shortBound (ac : Int) (tComp rate : Int) : Nat :=
  ((divRound (ac * 327680 - tComp * 4 * rate) (327680 * 65536)) % (65536 : Int)).toNat

/-- The belay window of a threshold L (2^-24 V) on a reference DC and AC (2^-24 V) and PHASE (ac), for a polarity: LO, HI, POL. -/
def belayWindow (l dc ac : Int) (ph : Nat) (tComp rate : Int) (pol : Nat) : Nat × Nat × Nat :=
  let num := l - dc
  if num ≤ -ac then
    let mx := (ph / 65536 + 0x4000) % 65536
    ((mx + 1) % 65536, mx, pol)
  else if ac ≤ num then (0, 0, 0)
  else
    let k := asinAc num ac.toNat
    (shortBound ((ph : Int) + k) tComp rate, shortBound ((ph : Int) + 2 ^ 31 - k) tComp rate, pol)

/-- The belay order after the walk (R139): inserted cells in ascending key under CHARGE, descending under DISCHARGE, then the
insertion order, the stale ones last in each part. -/
def Chip.belayOrder (c : Chip) (r : Nat) : List Nat :=
  let x := c.rreg r
  let l := if x.duty = 0 then x.order else x.order.reverse
  let part (p : Nat → Bool) := l.filter (fun a => p (c.rcell a).target && !(c.rcell a).stale) ++
    l.filter (fun a => p (c.rcell a).target && (c.rcell a).stale)
  part (fun t => decide (t = 1 ∨ t = 2)) ++ part (fun t => decide (t = 0 ∨ t = 3))

/-- BELAY_PASS_DONE (R139, R140): threshold, window and polarity of each cell of the order. -/
def Chip.belayPass (c : Chip) (r : Nat) : Chip :=
  let x := c.rreg r
  let o := mapGet ArmOut.idle c.loop.arms r
  let fix (f : Fld) := fToInt (c.rd f) (2 ^ 24) (-(2 ^ 60)) (2 ^ 60)
  let ch := c.rd (Reg.RegLoop.BELAY_CH r)
  let dc := fix (Reg.RegLoop.BELAY_DC r)
  let ac := fix (Reg.RegLoop.BELAY_AC r)
  let neg := decide (x.pol = 2)
  let go (st : Chip × Int) (a : Nat) : Chip × Int :=
    let y := st.1.rcell a
    let l := st.2 + y.vEff / 2
    let (lo, hi, pl) := belayWindow l (if neg then -dc else dc) ac (if neg then (o.phase + 2 ^ 31) % 2 ^ 32 else o.phase)
      (c.rdI (Reg.Modp.T_COMP r)) (c.rdI (Reg.Angle.RATE ch)) x.pol
    let hist := match y.hist with
      | h :: t => { h with lo := lo, hi := hi, pol := pl, ch := ch } :: t
      | [] => []
    (st.1.setRcell a { y with planLo := lo, planHi := hi, planPol := pl, planCh := ch, hist := hist }, st.2 + y.vEff)
  let (c1, _) := (c.belayOrder r).foldl go (c, 0)
  c1.setRreg r { x with phase := 4 }

/-- BELAY_PASS_DONE. -/
def execBelayPassDone (dt : Nat) (r : RegionIx) (s : State) : Host.Outcome State Fault Refusal :=
  s.run fun c =>
    let c1 := c.advance dt
    if (c1.rreg r).phase = 3 then
      (if c1.blocked r then c1.setRreg r { c1.rreg r with phase := 4 } else c1.belayPass r).hwEvent (0x30 + r.val)
    else c1

/-! ### Hand-over (R111, R137, R138) -/

/-- The fields of a command that every MODE carries: epoch, SEQ of its execution frame, plan, reference, correlators,
acknowledgements and flags. I_BATT_REF is 0 while the region is blocked (R148). -/
def Chip.commonCmd (c : Chip) (a m : Nat) : CmdBlk :=
  let p := c.posn a
  let y := c.pol a
  let r := regionOf a
  let sweeping := decide (c.rd Reg.Sweep.SWEEP_STATE ≠ 0)
  let st := (c.xch a).state
  let live := y.admitted && !y.packFenced && decide (a ∉ c.faults.fencedCells) && decide (st ≤ 1 ∨ 7 ≤ st)
    && decide (c.rd (Reg.Idb.PACK_STATE a) = 6)
  { CmdBlk.none0 a with
    epoch := p.epochRec, seq := m % 65536, empty := false
    convPlan := if sweeping then c.card.sweepPlan else c.card.convPlan
    iBattRef := if live && !c.blocked r then (c.policyOut a).1 else 0
    corrEn := if sweeping && !c.blocked r then 3 else 0, corrRestart := if sweeping && c.sweep.restart then 3 else 0
    ackValid := p.ackToggle.isSome, ackT := p.ackToggle.getD 0, ledgerCommit := p.commitReq, dcdcEn := live
    bulkAckValid := p.bulkAck.isSome, bulkAck := p.bulkAck.getD 0
    bulkAt := (p.grant.map (fun g => g.1)).getD 0, bulkBlocks := (p.grant.map (fun g => g.2)).getD 0 }

/-- The command of the cell at `a` for frame m: BLOCK in a blocked region, RUN for an insertable cell, BYPASS for one that is
not, EMPTY where the region's steps are not done or a mismatch blocks the plane's outputs (R323). -/
def Chip.cmdFor (c : Chip) (a m : Nat) : CmdBlk :=
  let r := regionOf a
  let y := c.rcell a
  let b := c.commonCmd a m
  let g := a / 64
  if (c.posn a).admState ≠ 6 ∨ c.recov.outputsBlocked = true then CmdBlk.none0 a
  else if c.isSensor a ∨ a ∈ c.faults.fencedCells ∨ (c.rope g).goingDown ≠ 0 then { b with mode := 0 }
  else if c.blocked r then { b with mode := 2 }
  else if (c.rreg r).phase ≠ 4 then CmdBlk.none0 a
  else if y.insertable = false then { b with mode := 0 }
  else
    let e (k : Nat) := y.edges.getD k (0, 0)
    { b with
      mode := 1, initial := y.initial, nEdges := y.edges.length, edges := [e 0, e 1, e 2, e 3]
      edgeExt := ([0, 1, 2, 3].map (fun k => 2 ^ k * bits (e k).1 14 1)).sum
      belayLo := y.planLo, belayHi := y.planHi, belayPol := y.planPol, belayCh := y.planCh }

/-- What the control plane notes of a command handed over: a row for frame m where the walk made none, and the state the
cell's plan gives where its slot went out EMPTY (R122). -/
def Chip.noteCmd (c : Chip) (a m : Nat) (b : CmdBlk) : Chip :=
  let y := c.rcell a
  let before := (y.hist.filter (fun h => decide (h.frame ≠ m))).head?
  if b.empty then
    match before with
    | none => c
    | some h =>
      let row := c.belayRow (regionOf a) m (c.angleAfter h.ch (2 * c.period)) (c.rdI (Reg.Angle.RATE h.ch))
        (c.on (Reg.Angle.VALID h.ch)) (y.last.map (fun e => -(frameDiff m e.1) * c.pTicks + e.2)) h
      c.setRcell a { y with hist := (row :: y.hist.filter (fun h => decide (h.frame ≠ m))).take 16, target := row.finish }
  else if b.mode = 1 then c
  else
    let t := if b.mode = 2 then 3 else 0
    let row : HistRow := ⟨m, 0, t, 0, 0, 0, 0, b.mode⟩
    let changed := decide (y.target ≠ t)
    c.setRcell a { y with
      hist := (row :: y.hist.filter (fun h => decide (h.frame ≠ m))).take 16, target := t
      last := if changed then some (m, 0) else y.last }

/-- One cell's command is handed over: its slot bytes for the next frame. -/
def Chip.handOver (c : Chip) (a : Nat) : Chip :=
  let m := c.frameAfter 2
  let b := c.cmdFor a m
  let c1 := { c with slots := mapSet ⟨0, []⟩ c.slots a ⟨c.frameAfter 1, b.bytes⟩ }
  let c2 := c1.noteCmd a m b
  if b.empty then c2 else c2.setAt a { c2.posn a with commitReq := false }

/-- Bulk grants of a rope for the next frame: in ascending position, 63 blocks to each cell whose last report asks, while the
body of 398 blocks has room. (notes/assumptions: 37 DEDUCED) -/
def Chip.grantRope (c : Chip) (g : Nat) : Chip :=
  let asks := (c.ropeCells g).filter (fun a => decide ((c.posn a).admState = 6) && decide (bits (c.posn a).status 13 1 = 1))
  let r := (c.ropeCells g).foldl (fun (acc : Chip × Nat) a =>
    if decide (a ∈ asks) && decide (acc.2 + 63 ≤ 398) then
      (acc.1.setAt a { acc.1.posn a with grant := some (acc.2, 63) }, acc.2 + 63)
    else (acc.1.setAt a { acc.1.posn a with grant := none }, acc.2)) (c, 0)
  let x := r.1.rope g
  r.1.setRope g { x with bulkLen := if r.2 = 0 then [0, 0] else [r.2 + 2, r.2 + 2] }

/-- COMMAND_HANDOVER (R111). -/
def execCommandHandover (dt : Nat) (s : State) : Host.Outcome State Fault Refusal :=
  s.run fun c =>
    let c1 := c.populated.foldl (fun c g => c.grantRope g) (c.advance dt)
    let c2 := (c1.populated.flatMap c1.ropeCells).foldl (fun c a => c.handOver a) c1
    let c3 := { c2 with sweep := { c2.sweep with restart := false }, ropes := c2.ropes.map (fun e =>
      (e.1, if e.2.goingDown = 1 then { e.2 with goingDown := 2 } else e.2)) }
    (List.range 8).foldl (fun c r =>
      let x := c.rreg r
      c.setRreg r { x with phase := 0, wasBlocked := c.blocked r }) c3

end Sys2Proof.Machine
end

