-- ==== Sys2Proof/Machine/Policy.lean ====
section
/-! DEFINITION. The policy engine (chapter 06): state of charge (R149), health (R151 to R153), limits (R154), lease terms and
quota (R155 to R157), allocation (R158 to R160), wear weights (R161) and fences (R162 to R164). Fractions are held in 2^-48,
power in 1/400 W (0.05 V × 0.05 A), currents in 0.05 A; notes/assumptions/19.md. -/

namespace Sys2Proof.Machine

/-- One, in 2^-48. (notes/assumptions: 19 DESIGN CHOICE) -/
def one48 : Int := 2 ^ 48

/-- ramp(x, a, b) of R154, in 2^-48. -/
def ramp48 (x a b : Int) : Int :=
  if x ≤ a then 0 else if b ≤ x then one48 else divRound ((x - a) * one48) (b - a).toNat

/-- The product of two fractions. -/
def mul48 (x y : Int) : Int := divRound (x * y) (2 ^ 48)

/-! ### One pack at a tick -/

/-- Q_EST in 2^-48 of 0.1 Ah (R152): the capacity that the BMS gives, else Q_RATED scaled by health. -/
def PolSt.qEst (x : PolSt) (k : CardPolicy) : Int :=
  match x.bms.bind (fun b => b.capacity) with
  | some q => (q : Int) * one48
  | none => (x.qRated : Int) * ((k.qEolFrac : Int) * one48 + (1000 - (k.qEolFrac : Int)) * x.health) / 1000

/-- The age of the BMS data at an instant, ns, if there is any. -/
def PolSt.bmsAge (x : PolSt) (now : Nat) : Option Nat := x.bms.map (fun b => b.age + (now - b.at0))

/-- Is the BMS data fresh enough (BMS_STALE)? -/
def PolSt.bmsFresh (x : PolSt) (k : CardPolicy) (now : Nat) : Bool :=
  match x.bmsAge now with
  | some a => decide (a ≤ k.bmsStale * 1000000)
  | none => false

/-- R149 for one tick of `frames` frames of `period` ns; `socBms` is report word 11 in 0.01 %. -/
def PolSt.countCharge (x : PolSt) (k : CardPolicy) (frames period now : Nat) (socBms : Option Nat) : PolSt :=
  let q := x.charge
  let eta : Int := if 0 < q then k.etaCh else 1000
  let qe := x.qEst k
  let d := if qe ≤ 0 then 0 else divRound (eta * q * period * 10 * (one48 * one48)) (qe.toNat * 72000000000000000)
  let cc := x.soc + d
  match socBms with
  | some v =>
    if x.bmsFresh k now then
      let b := divRound ((v : Int) * one48) 10000
      let soc := cc + divRound ((k.socBmsGain : Int) * (b - cc)) 1000000
      let apart := decide ((k.socDisagree : Int) * one48 < ((b - cc).natAbs : Int) * 10000)
      { x with soc := clampInt 0 one48 soc, disagree := if apart then x.disagree + frames * period else 0, charge := 0 }
    else { x with soc := clampInt 0 one48 cc, charge := 0 }
  | none => { x with soc := clampInt 0 one48 cc, charge := 0 }

/-- RR25 of a probe result, in 2^-48 (R151). Z_BOL is in 0.01 mΩ. -/
def PolSt.rr25 (x : PolSt) (k : CardPolicy) (p : ProbeRes) : Int :=
  let factor : Int := 160000 + k.rrTcoef * (p.temp - 400)
  match f32.dec p.absZ with
  | .fin false n d =>
    if x.zBol = 0 ∨ factor ≤ 0 then Config.ratioOpen p.absZ p.temp
    else divRound ((n * 100000 * 160000 : Nat) * one48) (d * x.zBol * factor.toNat)
  | _ => Config.ratioOpen p.absZ p.temp

/-- H that fits a resistance ratio (R151). -/
def healthOf (k : CardPolicy) (rr : Int) : Int :=
  clampInt 0 one48 (one48 - divRound ((rr - one48) * 1000) (k.rrEol - 1000))

/-- One probe result is used, discarded, or weighed as an outlier (R151, R153). -/
def PolSt.useProbe (x : PolSt) (k : CardPolicy) (p : ProbeRes) : PolSt :=
  if (x.lastProbe.map (fun t => decide (p.at0 ≤ t))).getD false then x
  else
    let r := x.rr25 k p
    if x.rr + divRound ((k.rrJump : Int) * one48) 1000 < r then
      if x.outlier then { x with jumped := true, outlier := false } else { x with outlier := true }
    else
      { x with
        health := x.health + divRound ((k.healthAlpha : Int) * (healthOf k r - x.health)) 1024
        rr := x.rr + divRound ((k.healthAlpha : Int) * (r - x.rr)) 1024, outlier := false, lastProbe := some p.at0
        healthFrom := p.at0, healthStale := false }

/-- Probe results in the order of their sweep times. -/
def inSweepOrder (l : List ProbeRes) : List ProbeRes :=
  let rec put (p : ProbeRes) : List ProbeRes → List ProbeRes
    | [] => [p]
    | q :: l => if p.at0 ≤ q.at0 then p :: q :: l else q :: put p l
  l.foldr put []

/-- The limits and DERATE of a pack (R154, R157, R161): T_PACK and T_STAGE of its last fresh report, 1/16 °C.
(notes/assumptions: 19 DESIGN CHOICE) -/
def PolSt.setLimits (x : PolSt) (k : CardPolicy) (now : Nat) (tPack tStage : Int) : PolSt :=
  let stale := !x.bmsFresh k now
  -- a limit that no item sets, or that no profile decodes, is stale and counts as 0 A (R154, R258, R261)
  let lim (b : Option Nat) : Nat := if stale then 0 else b.getD 0
  let bCh := lim (x.bms.bind (fun b => b.limCh))
  let bDis := lim (x.bms.bind (fun b => b.limDis))
  let baseCh : Int := (min k.iMaxAbs (min x.recCh bCh) : Nat)
  let baseDis : Int := (min k.iMaxAbs (min x.recDis bDis) : Nat)
  let pct (n : Nat) : Int := divRound ((n : Int) * one48) 10000
  let fh := pct k.hDerateMin + mul48 (one48 - pct k.hDerateMin) x.health
  let ftc := ramp48 tPack k.tChZero k.tChFull
  let hot := one48 - ramp48 tPack k.tHiFull k.tHiZero
  let fsc := ramp48 (pct k.socMax - x.soc) 0 (pct k.socTaper)
  let fsd := ramp48 (x.soc - pct k.socMin) 0 (pct k.socTaper)
  let ch := divRound (baseCh * mul48 (mul48 fh ftc) (mul48 hot fsc)) (2 ^ 48)
  let dis := divRound (baseDis * mul48 fh (mul48 hot fsd)) (2 ^ 48)
  let bmsLow := decide (bCh < x.recCh) || decide (bDis < x.recDis) || stale
  let low := decide (x.quota ≠ 0xFFFFFFFF ∧ x.quota < k.qLow)
  let bitsOf := [decide (hot < one48), decide (ftc < one48), decide (fsc < one48 ∨ fsd < one48), decide (fh < one48), bmsLow, low,
    decide (k.tStageW0 < tStage ∧ 0 < k.kWt),
    x.healthStale]
  { x with
    limCh := ch.toNat, limDis := dis.toNat
    derate := ((List.range 8).map (fun n => if bitsOf.getD n false then 2 ^ n else 0)).sum }

/-- Throughput is taken off the quota (R155): `total` is charge plus discharge energy in Wh, if the report words have come. -/
def PolSt.meter (x : PolSt) (total : Option Nat) : PolSt :=
  match total, x.metered with
  | some t, some t0 =>
    let q := if x.quota = 0xFFFFFFFF then x.quota else x.quota - (t - t0)
    { x with metered := some t, quota := q, quotaOut := decide (q = 0) && (x.quotaOut || decide (x.quota ≠ 0)) }
  | some t, none => { x with metered := some t }
  | none, _ => x

/-- The quota factor, in 2^-48 (R157). -/
def PolSt.quotaFactor (x : PolSt) (k : CardPolicy) : Int :=
  if x.quota = 0xFFFFFFFF ∨ k.qLow ≤ x.quota then one48 else divRound ((x.quota : Int) * one48) k.qLow

/-- The merit of R159, in 2^-48, at a SOC difference. -/
def PolSt.meritOf (x : PolSt) (k : CardPolicy) (dsoc : Int) : Int :=
  let m := one48 + divRound ((k.kSoc : Int) * dsoc) 1000 -
    divRound ((k.kCost : Int) * ((x.cost : Int) - k.costRef) * one48) (1000 * k.costRef) -
    divRound ((k.kHealth : Int) * (one48 - x.health)) 1000
  mul48 (clampInt (divRound ((k.mMin : Int) * one48) 1000) (divRound ((k.mMax : Int) * one48) 1000) m) (x.quotaFactor k)

/-! ### Capped proportional filling (R158, R159) -/

/-- Insert an item by cap over weight, ascending. -/
def putByRatio (x : Int × Int) : List (Int × Int) → List (Int × Int)
  | [] => [x]
  | y :: l => if x.1 * y.2 ≤ y.1 * x.2 then x :: y :: l else y :: putByRatio x l

/-- λ as a quotient for which Σ min(cap, λ × weight) reaches a total: items in ascending cap over weight; none where every
item takes its cap. -/
def fillLambda (total wsum : Int) : List (Int × Int) → Option (Int × Int)
  | [] => none
  | (cap, w) :: l => if wsum ≤ 0 then none else if cap * wsum ≤ total * w then fillLambda (total - cap) (wsum - w) l else some (total, wsum)

/-- λ for a total over items (cap, weight); items without weight take nothing. (notes/assumptions: 19 DESIGN CHOICE) -/
def lambdaFor (total : Int) (l : List (Int × Int)) : Option (Int × Int) :=
  let p := l.filter (fun x => decide (0 < x.2))
  fillLambda total ((p.map (fun x => x.2)).sum) (p.foldr putByRatio [])

/-- min(cap, λ × weight), exact as a quotient. (notes/assumptions: 19 DESIGN CHOICE) -/
def filled (lam : Option (Int × Int)) (cap w : Int) : Int × Nat :=
  if w ≤ 0 then (0, 1)
  else
    match lam with
    | none => (cap, 1)
    | some (n, d) => if cap * d ≤ n * w then (cap, 1) else (n * w, d.toNat)

/-! ### A tick -/

/-- Is the pack at `a` admitted, unfenced and in no exchange, its cell in service with a recent report, and its region
deblocked (R148), as far as limits do not decide? -/
def Chip.packServes (c : Chip) (a : Nat) (x : PolSt) : Bool :=
  let p := c.posn a
  let st := (c.xch a).state
  x.admitted && !x.packFenced && !c.isSensor a &&
    !c.faults.held.any (fun e => decide (e.level = 1 ∧ e.source = a ∧ 3 ≤ e.counts ∧ e.kind ≠ 0xFF)) && decide (p.admState = 6) && decide (4 ≤ p.state ∧ p.state ≤ 6) &&
    decide (p.age ≤ c.rd (Reg.Modp.STALE_LIMIT (regionOf a))) && !c.blocked (regionOf a) && decide (p.tPack ≠ 0x8000) &&
    decide (st = 0 ∨ 7 ≤ st)

/-- Throughput of a pack from report words 8 to 10, Wh. -/
def PosSt.throughput (p : PosSt) : Option Nat :=
  match findKey 8 p.rots, findKey 9 p.rots, findKey 10 p.rots with
  | some x, some y, some z => some (x + z % 65536 * 2 ^ 32 + y + z / 65536 * 2 ^ 32)
  | _, _, _ => none

/-- BMS SOC of report word 11, 0.01 %; none at 0xFFFF. -/
def PosSt.socBms (p : PosSt) : Option Nat :=
  match findKey 11 p.rots with
  | some w => if w % 65536 = 0xFFFF then none else some (w % 65536)
  | none => none

/-- The estimates and limits of one pack at a tick. -/
def Chip.estimate (c : Chip) (a : Nat) (x : PolSt) : PolSt :=
  let k := c.card.policy
  let p := c.posn a
  let tp := toSigned 16 p.tPack
  let ts := toSigned 16 p.tStage
  let x1 := x.countCharge k c.policy.frames c.period c.runNs p.socBms
  let x2 := (inSweepOrder x1.probes).foldl (fun y q => y.useProbe k q) { x1 with probes := [] }
  let x3 := (x2.meter p.throughput).setLimits k c.runNs tp ts
  { x3 with
    hotPack := if p.tPack ≠ 0x8000 ∧ k.tPackFence ≤ tp then x.hotPack + 1 else 0
    hotStage := if k.tStageFence ≤ ts then x.hotStage + 1 else 0 }

/-- The result of a region's allocation: packs with merit, reference and power (numerator over denominator, 1/400 W). -/
structure Alloc where
  cell : Nat
  merit : Int
  iRef : Int
  power : Int
  deriving DecidableEq, Repr

/-- R159 and R160 in one region for share `sh` (1/400 W, signed), in the direction of the tick.
(notes/assumptions: 19 DESIGN CHOICE) -/
def Chip.allocate (c : Chip) (dis : Bool) (sh : Int) (mean : Int) (l : List (Nat × PolSt)) : List Alloc :=
  let k := c.card.policy
  let cap (e : Nat × PolSt) : Int := (c.posn e.1).vPack * (if dis then e.2.limDis else e.2.limCh : Nat)
  let mer (e : Nat × PolSt) : Int := e.2.meritOf k (if dis then e.2.soc - mean else mean - e.2.soc)
  let lam := lambdaFor sh.natAbs (l.map (fun e => (cap e, mer e * cap e)))
  l.map (fun e =>
    let (n, d) := filled lam (cap e) (mer e * cap e)
    let sg : Int := if sh < 0 then -1 else 1
    let v := (c.posn e.1).vPack
    let i := if v = 0 then Config.refAtZeroVolts e.1 else divRound (sg * n) (d * v)
    let s : Int := k.iSlew
    let i1 := clampInt (e.2.iRef - s) (e.2.iRef + s) i
    ⟨e.1, mer e, clampInt (-(e.2.limDis : Int)) e.2.limCh i1, sg * n / d⟩)

/-- The shares of the regions (R158), with what cannot be placed. (notes/assumptions: 19 DESIGN CHOICE) -/
def regionShares (order : Int) (skew : Nat) (l : List (Nat × Int)) : List Share × Int :=
  let n := l.length
  if n = 0 then ([], order.natAbs)
  else
    let nom : Int := (order.natAbs / n : Nat)
    let first := l.map (fun e => (e.1, min e.2 nom, e.2))
    let short := (order.natAbs : Int) - (first.map (fun e => e.2.1)).sum
    let spare (e : Nat × Int × Int) : Int × Int := (min (e.2.2 - e.2.1) (nom * skew / 10000), e.2.2 - e.2.1)
    let lam := lambdaFor short (first.map spare)
    let sg : Int := if order < 0 then -1 else 1
    let res := first.map (fun e =>
      let (a, d) := filled lam (spare e).1 (spare e).2
      (⟨e.1, sg * (e.2.1 + a / d), e.2.2⟩ : Share))
    (res, (order.natAbs : Int) - (res.map (fun s => (s.share.natAbs : Int))).sum)

/-- Wear weights of a region (R161): the insertable cells with their power; in 10^-9 V against the mean. -/
def Chip.weights (c : Chip) (r : Nat) (power : Nat → Int) : List (Nat × Int) :=
  let k := c.card.policy
  let l := (c.regionCells r).filter c.isInsertable
  let raw (a : Nat) : Int :=
    divRound ((k.kWt : Int) * max 0 (toSigned 16 (c.posn a).tStage - k.tStageW0) * 1000000000) 1600 - (k.kFf : Int) * power a * 25
  let sum := (l.map raw).sum
  let n := l.length
  let wm : Int := c.rd (Reg.Modp.W_MAX r)
  l.map (fun a => (a, if (c.pol a).held then wm else clampInt (-wm) wm (divRound (raw a * n - sum) (n * 50000000))))

/-- A whole tick on the latched inputs (R144 to R161). -/
def Chip.computeTick (c : Chip) : Tick :=
  let k := c.card.policy
  let cells := (List.range 8).flatMap c.regionCells
  let order := (c.orders.applied.getD 4 0 * 4).tdiv 10000
  let dis := decide (order < 0)
  let est := cells.map (fun a => (a, if (c.pol a).admitted then c.estimate a (c.pol a) else c.pol a))
  let lim (x : PolSt) := if dis then x.limDis else x.limCh
  let serves (e : Nat × PolSt) := c.packServes e.1 e.2 && decide (0 < lim e.2)
  let elig := est.filter serves
  let inR (r : Nat) := elig.filter (fun e => decide (regionOf e.1 = r))
  let cap (e : Nat × PolSt) : Int := (c.posn e.1).vPack * lim e.2
  let caps := (List.range 8).filterMap (fun r => if (inR r) = [] then none else some (r, ((inR r).map cap).sum))
  let (shares, short) := regionShares order k.regionSkew caps
  let mean (r : Nat) : Int := divRound (((inR r).map (fun e => e.2.soc)).sum) (inR r).length
  let allocs := shares.flatMap (fun s => c.allocate dis s.share (mean s.region) (inR s.region))
  let find (a : Nat) : Option Alloc := allocs.find? (fun x => decide (x.cell = a))
  let power (a : Nat) : Int := ((find a).map (fun x => x.power)).getD 0
  let ws := (List.range 8).flatMap (fun r => c.weights r power)
  let res : List (Nat × (PolSt × PolSt)) := est.map (fun e =>
    let al := find e.1
    let off := decide (order = 0) || (c.pol e.1).held
    (e.1, (c.pol e.1, { e.2 with
      eligible := al.isSome, merit := (al.map (fun x => satNat 16 (divRound x.merit (2 ^ 38)).toNat)).getD 0
      iRef := if off then 0 else (al.map (fun x => x.iRef)).getD 0
      wTarget := mapGet 0 ws e.1 })))
  { frame := c.frame, frames := c.policy.frames, measured := c.policy.measured, packs := res, shares := shares, order := order
    alloc := (res.map (fun e => e.2.2.iRef * ((c.posn e.1).vPack : Int))).sum, short := short }

/-- TICK_FRAMES (R144). -/
def Chip.tickFrames (c : Chip) : Nat := if c.on Reg.Time.FRAME_20US then 50 else 100

/-- POLICY_TICK (R144): the inputs are latched and the tick runs. -/
def execPolicyTick (dt : Nat) (s : State) : Host.Outcome State Fault Refusal :=
  s.run fun c =>
    let c1 := c.advance dt
    if c1.frame % c1.tickFrames = 0 ∧ c1.policy.running.isNone = true then
      { c1 with policy := { c1.policy with running := some c1.computeTick } }
    else c1

/-! ### Fences by policy (R162 to R164) -/

/-- Fences made in region `r` since the last tick: packs, cells. -/
def Chip.fencesIn (c : Chip) (r : Nat) : Nat × Nat := mapGet (0, 0) c.policy.fencedNow r

/-- Is a cause barred at the cell after a MAINT unfence (R164)? Causes 1 to 5 are those of R162, 6 that of R163. -/
def PolSt.isBarred (x : PolSt) (k : CardPolicy) (now cause : Nat) : Bool :=
  x.barred.any (fun e => decide (e.1 = cause) && decide (now < e.2 + k.unfenceHold * 1000000000))

/-- The policy fences the pack at `a` (R162): PACK_FENCE goes out, its reference is 0, and the fault names the cause. -/
def Chip.fencePack (c : Chip) (a cause : Nat) : Chip :=
  let x := c.pol a
  let r := regionOf a
  let (np, nc) := c.fencesIn r
  if x.admitted && !x.packFenced && !x.isBarred c.card.policy c.runNs cause && decide (np < c.card.policy.fenceMax) then
    let c1 := c.setPol a { x with packFenced := true, fenceCause := cause, iRef := 0, eligible := false }
    let c2 := { c1 with policy := { c1.policy with
      fencedNow := mapSet (0, 0) c1.policy.fencedNow r (np + 1, nc)
      inForce := mapSet (0, 0) c1.policy.inForce a (0, (c1.policyOut a).2) } }
    (c2.sendMgmt 1 a 0xD1 128 7).raise 1 a 0x0D cause
  else c

/-- The cause for which a pack is to be fenced at a tick, if any (R162). Bit 5 of the BMS status flags is BMS_FENCE. -/
def Chip.packCause (c : Chip) (a : Nat) : Option Nat :=
  let x := c.pol a
  let k := c.card.policy
  if 2 ≤ x.hotPack then some 1
  else if x.health * 10000 < (k.hFence : Int) * one48 then some 2
  else if x.jumped then some 3
  else if k.socDisagreeTime * 1000000000 ≤ x.disagree then some 4
  else if (x.bms.map (fun b => decide (bits b.flags 5 1 = 1))).getD false then some 5
  else none

/-- POLICY_CELL_FENCE (R163): carried out where the region keeps REDUNDANCY ≥ 0, held otherwise.
(notes/assumptions: 31 DEDUCED) -/
def Chip.fenceCell (c : Chip) (a : Nat) : Chip :=
  let x := c.pol a
  let r := regionOf a
  let (np, nc) := c.fencesIn r
  if x.cellFenced || decide (x.hotStage < 2) || decide ((c.posn a).state = 8) then
    let c1 := c.setPol a { x with held := false }
    -- a held fence that protection carries out clears FENCE_HELD (R165), unless another cell's is held
    if x.held && decide ((c.posn a).state = 8) && !c1.pols.any (fun e => e.2.held) then c1.clr Reg.Pol.FENCE_HELD else c1
  else if x.isBarred c.card.policy c.runNs 6 || decide (c.card.policy.fenceMax ≤ nc) then c
  else
    let left := c.rdI (Reg.RegionRed.REDUNDANCY r) - (if c.isInsertable a then 1 else 0)
    if 0 ≤ left then
      let c1 := c.setPol a { x with cellFenced := true, held := false }
      let c2 := { c1 with policy := { c1.policy with fencedNow := mapSet (0, 0) c1.policy.fencedNow r (np, nc + 1) } }
      c2.raiseAt 1 a 0x0C (c.posn a).tStage 4
    else (c.setPol a { x with held := true, iRef := 0, wTarget := c.rd (Reg.Modp.W_MAX r) }).set Reg.Pol.FENCE_HELD

/-! ### Completion of a tick -/

/-- A pack's result is taken over: what has come in since the latch stays (R144, R165). -/
def mergePol (now latched res : PolSt) : PolSt :=
  if now.admitted = false ∨ latched.admitted = false then now
  else
    { res with
      charge := now.charge - latched.charge, bms := now.bms, probes := now.probes.drop latched.probes.length
      cost := now.cost, barred := now.barred, packFenced := now.packFenced, fenceCause := now.fenceCause, cellFenced := now.cellFenced, held := now.held
      quota := if now.quota = latched.quota ∧ now.cost = latched.cost then res.quota else now.quota
      quotaOut := if now.quota = latched.quota then res.quotaOut else decide (now.quota = 0) }

/-- 1/400 W as kW. -/
def kwOf (p : Int) : Int := divRound p 400000

/-- The policy registers of a region after a tick. (notes/assumptions: 19 DESIGN CHOICE) -/
def Chip.showRegionPolicy (c : Chip) (t : Tick) (r : Nat) : Chip :=
  let s := (t.shares.find? (fun s => decide (s.region = r))).getD ⟨r, 0, 0⟩
  let l := c.regionCells r
  let el := l.filter (fun a => (c.pol a).eligible)
  let socs := el.map (fun a => (divRound ((c.pol a).soc * 10000) (2 ^ 48)).toNat)
  let n (f : PolSt → Bool) := (l.filter (fun a => f (c.pol a))).length
  let mean := (divRound ((socs.sum : Nat) : Int) el.length).toNat
  ((((((((c.wrI (Reg.RegPol.P_REGION r) (kwOf s.share)).wrI (Reg.RegPol.P_REGION_MAX r) (kwOf s.cap)).wr
    (Reg.RegPol.SOC_MEAN r) mean).wr (Reg.RegPol.SOC_LOW r) (socs.foldl min (socs.headD 0))).wr (Reg.RegPol.SOC_HIGH r)
    (socs.foldl max 0)).wr (Reg.RegPol.PACKS_ELIGIBLE r) el.length).wr (Reg.RegPol.PACKS_DERATED r)
    (n (fun x => x.admitted && decide (x.derate ≠ 0)))).wr (Reg.RegPol.PACKS_FENCED r) (n (fun x => x.packFenced))).wr
    (Reg.RegPol.CELLS_FENCED r) (n (fun x => x.cellFenced))

/-- The policy probe of port `p`. (notes/assumptions: 19 DESIGN CHOICE) -/
def Chip.showPolProbe (c : Chip) (p : Nat) : Chip :=
  let a := c.rd (Reg.PolProbe.POLICY_PROBE_CELL p)
  let x := c.pol a
  let st := if !x.admitted then 0 else if x.cellFenced || decide ((c.posn a).state = 8) then 5 else if x.packFenced then 4
    else if x.quota = 0 then 3 else if x.eligible then 1 else 2
  let frac (v : Int) (k : Nat) := (divRound (v * k) (2 ^ 48)).toNat
  let c1 := (((((((c.wr (Reg.PolProbe.PR_SOC p) (frac x.soc 10000)).wr (Reg.PolProbe.PR_HEALTH p) (frac x.health 1000)).wrI
    (Reg.PolProbe.PR_I_BATT_REF p) x.iRef).wrI (Reg.PolProbe.PR_W_TARGET p) x.wTarget).wr (Reg.PolProbe.PR_I_LIM_CH p)
    x.limCh).wr (Reg.PolProbe.PR_I_LIM_DIS p) x.limDis).wr (Reg.PolProbe.PR_DERATE p) x.derate).wr
    (Reg.PolProbe.PR_PACK_STATE p) st
  ((((c1.wr (Reg.PolProbe.PR_MERIT p) x.merit).wr (Reg.PolProbe.PR_Q_REMAIN p) x.quota).wr (Reg.PolProbe.PR_COST p) x.cost).wr
    (Reg.PolProbe.PR_RR p) (satNat 16 (frac x.rr 1024))).wr (Reg.PolProbe.PR_HEALTH_AGE p)
    (satNat 16 ((c.runNs - x.healthFrom) / 3600000000000))

/-- POLICY_TICK_COMPLETE (R145): results published, quotas exhausted and fences acted on, in ascending address. -/
def Chip.finishTick (c : Chip) (t : Tick) (micros : Nat) : Chip :=
  let c1 := t.packs.foldl (fun c e => c.setPol e.1 (if e.2.1.admitted then mergePol (c.pol e.1) e.2.1 e.2.2
    else { c.pol e.1 with wTarget := e.2.2.wTarget })) c
  let out := t.packs.foldl (fun m e => mapSet (0, 0) m e.1 (e.2.2.iRef, e.2.2.wTarget)) []
  let c2 := { c1 with policy := { c1.policy with
    running := none, frames := c1.policy.frames - t.frames, measured := c1.policy.measured - t.measured, fencedNow := []
    pendingOut := some ((t.frame + c1.tickFrames / 2) % 2 ^ 32, out) } }
  -- QUOTA_EXHAUSTED
  let c3 := t.packs.foldl (fun c e =>
    if (c.pol e.1).quotaOut && !e.2.1.quotaOut && decide (e.2.1.quota ≠ 0) then (c.set Reg.Pol.QUOTA_OUT).raise 1 e.1 0x0E 0
    else c) c2
  -- POLICY_PACK_FENCE, POLICY_CELL_FENCE
  let c4 := t.packs.foldl (fun c e => match (if (c.pol e.1).admitted then c.packCause e.1 else none) with
    | some k => c.fencePack e.1 k
    | none => c) c3
  let c5 := t.packs.foldl (fun c e => if c.isSensor e.1 then c else c.fenceCell e.1) c4
  let l := t.packs.map (fun e => c5.pol e.1)
  let n (f : PolSt → Bool) := (l.filter f).length
  let c6 := (((((((c5.inc Reg.Pol.TICK_COUNT).wrI Reg.Pol.P_BATT_IN_USE (kwOf t.order)).wrI Reg.Pol.P_BATT_ALLOC
    (kwOf t.alloc)).wrI Reg.Pol.P_BATT_MEAS (divRound t.measured (400000 * t.frames))).wrI Reg.Pol.P_BATT_SHORT
    (kwOf t.short)).wr Reg.Pol.TICK_TIME micros).wrB Reg.Pol.DIRECTION (decide (t.order < 0)))
  let c7 := (((c6.wr Reg.Pol.PACKS_ELIGIBLE (n (fun x => x.eligible))).wr Reg.Pol.PACKS_DERATED
    (n (fun x => x.admitted && decide (x.derate ≠ 0)))).wr Reg.Pol.PACKS_FENCED (n (fun x => x.packFenced))).wr
    Reg.Pol.CELLS_FENCED (n (fun x => x.cellFenced))
  let c8 := if 0 < t.short then c7.set Reg.Pol.SHORTFALL else c7
  let c9 := (List.range 8).foldl (fun c r => c.showRegionPolicy t r) c8
  [0, 1, 2, 3].foldl (fun c p => c.showPolProbe p) c9

/-- POLICY_TICK_COMPLETE. -/
def execPolicyTickComplete (dt micros : Nat) (s : State) : Host.Outcome State Fault Refusal :=
  s.run fun c =>
    let c1 := c.advance dt
    match c1.policy.running with
    | some t => (c1.finishTick t micros).hwEvent 0x41
    | none => c1

/-- POLICY_TICK_TIMEOUT (R146): the tick is abandoned; its detail is the 500 µs bound. -/
def execPolicyTickTimeout (dt : Nat) (s : State) : Host.Outcome State Fault Refusal :=
  s.run fun c =>
    let c1 := c.advance dt
    if c1.policy.running.isSome then
      (({ c1 with policy := { c1.policy with running := none } }.set Reg.Pol.POLICY_LATE).inc Reg.Pol.POLICY_LATE_COUNT).raise 4
        c1.planeIx 0x75 500
    else c1

/-- The part of REPORT_CUTOFF that belongs to the policy engine: charge and power of the frame just closed are gathered (R149),
and the outputs of the last completed tick come into force in their frame (R145). -/
def Chip.policyCutoff (c : Chip) : Chip :=
  let n := c.frameAfter (-1)
  let cells := ((List.range 8).flatMap c.regionCells).filter (fun a => (c.pol a).admitted)
  let c1 := cells.foldl (fun (c : Chip) a =>
    let p := c.posn a
    let x := c.pol a
    let fresh := decide (p.freshFrame = some n)
    let i := if fresh then toSigned 16 p.iPack else (c.policyOut a).1
    let c' := c.setPol a { x with charge := x.charge + i }
    if fresh then { c' with policy := { c'.policy with measured := c'.policy.measured + toSigned 16 p.iPack * p.vPack } } else c') c
  let c2 := { c1 with policy := { c1.policy with frames := c1.policy.frames + 1 } }
  match c2.policy.pendingOut with
  | some (f, out) =>
    if c2.frame = f then { c2 with policy := { c2.policy with inForce := out, pendingOut := none } } else c2
  | none => c2

/-- SOC_DISAGREE_TIMEOUT (R150): the pack is fenced. -/
def execSocDisagreeTimeout (a : CellAddr) (s : State) : Host.Outcome State Fault Refusal :=
  s.run fun c =>
    if c.card.policy.socDisagreeTime * 1000000000 ≤ (c.pol a).disagree then c.fencePack a 4 else c

/-- HEALTH_MAX_AGE_EXPIRY (R151): no result used for HEALTH_MAX_AGE sets HEALTH_STALE of DERATE. -/
def execHealthMaxAgeExpiry (a : CellAddr) (s : State) : Host.Outcome State Fault Refusal :=
  s.run fun c =>
    let x := c.pol a
    if x.admitted = true ∧ x.healthFrom + c.card.policy.healthMaxAge * 1000000000 ≤ c.runNs then
      c.setPol a { x with healthStale := true, derate := x.derate % 128 + 128 }
    else c

/-- POLICY_UNFENCE_HOLD_END (R164): the hold after an unfence has run out. -/
def execPolicyUnfenceHoldEnd (a : CellAddr) (cause : Fin 7) (s : State) : Host.Outcome State Fault Refusal :=
  s.run fun c =>
    let x := c.pol a
    c.setPol a { x with barred := x.barred.filter (fun e =>
      !(decide (e.1 = cause.val) && decide (e.2 + c.card.policy.unfenceHold * 1000000000 ≤ c.runNs))) }

/-- LEASE_GO (R156): the terms of one pack are applied, or refused. -/
def execLeaseGo (p : PortIx) (s : State) : Host.Outcome State Fault Refusal :=
  s.run fun c =>
    let res := Reg.Lease.LEASE_RESULT p
    let a := c.rd (Reg.Lease.LEASE_CELL p)
    if c.has p .ledger = false then c.refuseTo p res 3
    else
      let x := c.pol a
      match (c.xch a).admitted with
      | some uid =>
        if x.admitted = true ∧ uid % 2 ^ 32 = c.rd (Reg.Lease.LEASE_UID p) then
          let q := c.rd (Reg.Lease.LEASE_QUOTA p)
          let q' := if c.on (Reg.Lease.LEASE_MODE p) then
              (if x.quota = 0xFFFFFFFF ∨ q = 0xFFFFFFFF then 0xFFFFFFFF else min (x.quota + q) 0xFFFFFFFE)
            else q
          (c.setPol a { x with cost := c.rd (Reg.Lease.LEASE_COST p), quota := q', quotaOut := false }).wr res 1
        else c.wr res 2
      | none => c.wr res 2

end Sys2Proof.Machine
end

