-- ==== Sys2Proof/Machine/Exchange.lean ====
section
/-! DEFINITION. The WC8400's side of the packs (chapter 11): the checks of R257, admission of a pack, closing of its port,
exchanges and their commands; the calibration orders of R243; the sweep of R247 to R249; the bulk records of cells. -/

namespace Sys2Proof.Machine

/-! ### Shared -/

/-- Does a maintenance order that the card ties to a two-hand function find one satisfied (R365)? Orders: 0 exchange, 1 unfence,
2 calibration, 3 lane test. -/
def Chip.twoHandOk (c : Chip) (k : Nat) : Bool :=
  decide (bits (c.rd Reg.Saf.TWO_HAND_ORDERS) k 1 = 0) || decide (c.rd Reg.Saf.TWO_HAND_SAT ≠ 0)

/-- Is an exchange in progress in this state (R267)? -/
def xchgRuns (st : Nat) : Bool := decide (1 ≤ st ∧ st ≤ 6)

/-- The pack probe of port `p` (R271). -/
def Chip.showPack (c : Chip) (p : Nat) : Chip :=
  let a := c.rd (Reg.Xchg.PACK_PROBE_CELL p)
  let x := c.xch a
  let secs := if x.state = 0 then 0 else satNat 32 ((c.runNs - x.at0) / 1000000000)
  (((((((((c.wr (Reg.Xchg.PP_PACK_STATE p) (c.packState a)).wr (Reg.Xchg.PP_XCHG_STATE p) x.state).wr
    (Reg.Xchg.PP_BMS_FLAGS p) x.flags).wr (Reg.Xchg.PP_UID_LO p) x.uid).wr (Reg.Xchg.PP_UID_HI p) (x.uid / 2 ^ 32)).wr
    (Reg.Xchg.PP_MAKER p) (leAt x.packImg 12 2)).wr (Reg.Xchg.PP_MODEL p) (leAt x.packImg 14 2)).wr
    (Reg.Xchg.PP_CHECKS p) x.checks).wr (Reg.Xchg.PP_XCHG_TIME p) secs)

/-- The four pack probes and the number of running exchanges are shown anew. -/
def Chip.showPacks (c : Chip) : Chip :=
  ([0, 1, 2, 3].foldl (fun c p => c.showPack p) c).wr Reg.Xchg.XCHG_ACTIVE
    ((c.xchs.filter (fun e => xchgRuns e.2.state)).length)

/-- Replace what the WC8400 keeps of a pack, and show it. -/
def Chip.putXch (c : Chip) (a : Nat) (x : XchgSt) : Chip := (c.setXch a x).showPacks

/-- Bit `k` of the pack order register 0xD1 is written at the cell (R270). -/
def Chip.orderPack (c : Chip) (a k : Nat) : Chip := c.sendMgmt 1 a 0xD1 (2 ^ k) 8

/-- The policy engine forgets the pack at `a`; what it keeps of the cell stays. -/
def PolSt.withoutPack (x : PolSt) : PolSt :=
  { PolSt.idle with wTarget := x.wTarget, hotStage := x.hotStage, cellFenced := x.cellFenced, held := x.held, barred := x.barred }

/-- The pack at `a` is admitted no more. -/
def Chip.unadmitPack (c : Chip) (a : Nat) : Chip := c.setPol a (c.pol a).withoutPack

/-! ### Checks (R257, R258) -/

/-- The definition that the card assigns to the region of `a` (R453). -/
def Chip.stageDef (c : Chip) (a : Nat) : Option StageDef :=
  match findKey (regionOf a) c.card.pack.regionStage with
  | some t => c.card.pack.stages.find? (fun d => decide (d.stageType = t))
  | none => none

/-- The failed pack checks, by number (R257), but for PK_SOC: `r` is the record read, `ok` whether it was there with a good
STATIC_CRC. -/
def Chip.packFails (c : Chip) (a : Nat) (r : List Nat) (ok : Bool) : List Nat :=
  let k := c.card.pack
  let st := (c.pack a).stageRec
  if !ok then [0]
  else
    let bad (n : Nat) (b : Bool) : List Nat := if b then [n] else []
    let dup := c.xchs.any (fun e => decide (e.1 ≠ a) && (c.pol e.1).admitted && decide (e.2.admitted = some (packUid r)))
    bad 1 (decide (leAt r 0 1 ≠ 0x53 ∨ leAt r 2 2 ≠ 256 ∨ leAt r 1 1 ∉ k.formats))
      ++ bad 2 (decide ((leAt r 12 2, leAt r 14 2) ∉ k.models)) ++ bad 3 (decide (leAt r 32 1 ∉ k.chems))
      ++ bad 4 (decide (leAt r 38 2 < leAt st 38 2 ∨ leAt st 40 2 < leAt r 40 2))
      ++ bad 5 (decide (findKey (leAt r 35 1) k.profiles = none)) ++ bad 6 dup

/-- What a failed pack check does: 0 REFUSE, 1 DERATE, 2 ACCEPT (R257). -/
def CardPack.action (k : CardPack) (n : Nat) : Nat :=
  if n = 2 then k.actModel else if n = 3 then k.actChem else if n = 5 then k.actProfile else 0

/-- The failed stage checks, by number (R257). -/
def Chip.stageFails (c : Chip) (a : Nat) (r : List Nat) (ok : Bool) : List Nat :=
  let d := (c.stageDef a).getD ⟨0, 0, 0⟩
  if !ok then [16]
  else
    let bad (n : Nat) (b : Bool) : List Nat := if b then [n] else []
    let cm := leAt r 32 2
    let apart := if cm < d.cCell then d.cCell - cm else cm - d.cCell
    let mask := match currentCal r with
      | some k => leAt r (64 + 80 * k + 76) 2 % 4096
      | none => 0
    let roles := if c.on (Reg.Adc.T_PACK_BMS a) || c.on (Reg.Adc.T_PACK_NONE a) then [0, 1, 2, 3, 4, 5] else [0, 1, 2, 3, 4, 5, 6]
    bad 17 (decide (leAt r 0 1 ≠ 0x50 ∨ leAt r 14 2 ≠ d.stageType)) ++ bad 18 (decide (c.card.pack.cTol * d.cCell < apart * 100))
      ++ bad 19 (decide (leAt r 44 1 ≠ d.bypPattern)) ++ bad 20 (roles.any (fun k => decide (bits mask (c.role a k) 1 = 0)))

/-- The bits of PP_CHECKS for a list of check numbers. -/
def checkBits (l : List Nat) : Nat := (l.map (2 ^ ·)).sum

/-- Does a list of failed stage checks keep the cell out (R258)? -/
def Chip.stageRefuses (c : Chip) (l : List Nat) : Bool :=
  l.any (fun n => decide (n = 16 ∨ n = 17 ∨ n = 19) || (decide (n = 18) && decide (c.card.pack.actCcell = 0)))

/-- Failed stage checks are shown and raised (R257, R258): check 20 always, check 18 where it refuses. -/
def Chip.noteStage (c : Chip) (a : Nat) (l : List Nat) : Chip :=
  let x := c.xch a
  let c1 := c.putXch a { x with checks := x.checks % 2 ^ 16 + checkBits l }
  (l.filter (fun n => !(decide (n = 18) && decide (c.card.pack.actCcell ≠ 0)))).foldl (fun c n => c.raise 1 a 0x10 n) c1

/-- The writes that give the cell the coefficients of its record's current copy, for the inputs of CAL_MASK (R256). -/
def Chip.coefWrites (c : Chip) (a : Nat) : List (Nat × Nat) :=
  let r := (c.pack a).stageRec
  match currentCal r with
  | none => []
  | some k =>
    let b := 64 + 80 * k
    let mask := leAt r (b + 76) 2
    (List.range 12).flatMap (fun i =>
      if bits mask i 1 = 1 then [(0x62, i), (0x63, leAt r (b + 6 * i) 2), (0x64, leAt r (b + 6 * i + 2) 4)] else [])

/-! ### Acceptance (R149, R151, R257 to R260, R264) -/

/-- The SOC that the BMS of the cell at `a` reports, 0.01 %: of report word 11, or of the last mirror (R255). -/
def Chip.bmsSoc (c : Chip) (a : Nat) : Option Nat :=
  match (c.posn a).socBms with
  | some n => some n
  | none => ((c.pol a).bms.map (fun b => b.soc)).getD none

/-- The SOC that the current summary slot states, 0.01 %; 0xFFFF is none. -/
def slotSoc (r : List Nat) : Option Nat :=
  match currentSlot r with
  | none => none
  | some _ => if slotField r 8 2 = 0xFFFF then none else some (slotField r 8 2)

/-- The record limit of a field in 0.1 A as 0.05 A, derated where the pack is (R258). -/
def CardPack.limitOf (k : CardPack) (derated : Bool) (v : Nat) : Nat := if derated then 2 * v * k.derate / 100 else 2 * v

/-- The policy engine admits a pack (R149, R151, R155, R258): SOC from the BMS or else the slot, health from the slot or H_INIT,
RR to match, and the lease terms of a new pack. -/
def Chip.admitPack (c : Chip) (a : Nat) (r : List Nat) (derated : Bool) : Chip :=
  let k := c.card.policy
  let y := c.pol a
  let soc := match c.bmsSoc a with | some n => n | none => (slotSoc r).getD 0
  let hf := slotField r 10 2
  let h : Int := if currentSlot r = none ∨ hf = 0xFFFF then divRound ((k.hInit : Int) * 2 ^ 48) 10000
    else min (2 ^ 48) (divRound ((hf : Int) * 2 ^ 48) 1000)
  let rr : Int := 2 ^ 48 + divRound ((2 ^ 48 - h) * ((k.rrEol : Int) - 1000)) 1000
  c.setPol a { y.withoutPack with
    admitted := true, soc := min (2 ^ 48) (divRound ((soc : Int) * 2 ^ 48) 10000), health := h, rr := rr, bms := y.bms
    healthFrom := c.runNs, cost := k.costDefault, quota := k.quotaDefault, qRated := leAt r 42 2
    zBol := leAt r 52 2, recCh := c.card.pack.limitOf derated (leAt r 44 2)
    recDis := c.card.pack.limitOf derated (leAt r 46 2) }

/-- PORT_CLOSE goes out where it is due, the cell is enrolled with its port OPEN, and BMS_READY is set (R264). -/
def Chip.tryClose (c : Chip) (a : Nat) : Chip :=
  let x := c.xch a
  if x.closing && x.accepted && decide ((c.posn a).admState = 6) && decide (4 ≤ (c.posn a).state ∧ (c.posn a).state ≤ 6)
      && decide (bits x.flags 6 1 = 1) && decide (c.packState a = 4) then
    (c.putXch a { x with closing := false }).orderPack a 3
  else c

/-- The pack at `a` is refused (R258): PACK_REFUSE goes out; an exchange ends as REFUSED. -/
def Chip.refusePack (c : Chip) (a : Nat) : Chip :=
  let x := c.xch a
  let st := if x.state = 5 ∨ x.state = 6 then 8 else x.state
  ((c.putXch a { x with state := st, accepted := false, closing := false, bmsFrom := none }).unadmitPack a).orderPack a 2

/-- The pack at `a` is accepted (R257 to R259, R264): PACK_ACCEPT goes out and PORT_CLOSE is due. The pack that was admitted
before keeps its estimates and terms. -/
def Chip.acceptPack (c : Chip) (a : Nat) : Chip :=
  let x := c.xch a
  let r := x.packImg
  let uid := packUid r
  let same := decide (x.admitted = some uid) && (c.pol a).admitted
  let k := c.card.pack
  let c1 := if same then
      c.setPol a { c.pol a with recCh := k.limitOf x.derated (leAt r 44 2), recDis := k.limitOf x.derated (leAt r 46 2) }
    else c.admitPack a r x.derated
  ((c1.putXch a { x with
    state := if x.state = 5 then 6 else x.state, admitted := some uid
    uids := if uid ∈ x.uids then x.uids else x.uids ++ [uid], accepted := true, closing := true, bmsFrom := none
    fails := 0 }).orderPack a 1).tryClose a

/-- A pack without a summary is accepted once its BMS reports a SOC (R255, R257). -/
def Chip.bmsArrived (c : Chip) (a : Nat) : Chip :=
  if (c.xch a).bmsFrom.isSome && (c.bmsSoc a).isSome then c.acceptPack a else c.tryClose a

/-- The profile that PROFILE_ID names goes into the profile memory and CAN_CFG takes its rates (R260, R291); without one the
header is cleared. -/
def Chip.sendProfile (c : Chip) (a id : Nat) : Chip :=
  let put (c : Chip) (ws : List Nat) := ws.foldl (fun c w => c.sendMgmt 1 a 0xD9 w 8) (c.sendMgmt 1 a 0xD8 0 8)
  match findKey id c.card.pack.profiles with
  | some ws =>
    let w1 := ws.getD 0 0
    let w := bits w1 16 8 + 8 * bits w1 24 8
    (put c ws).sendMgmt 1 a 0xB0 w 8
  | none => put c [0, 0, 0, 0]

/-- A pack record that has been read is checked (R257 to R259). -/
def Chip.checkPack (c : Chip) (a : Nat) : Chip :=
  let x := c.xch a
  let r := (c.pack a).packRec
  let ok := c.on (Reg.Idb.PACK_READ_OK a)
  let l := c.packFails a r ok
  let k := c.card.pack
  let acting := l.filter (fun n => decide (k.action n ≠ 2))
  let uid := packUid r
  let changed := ok && decide (x.state ≠ 5) && (match x.admitted with | some u => decide (u ≠ uid) | none => false)
  let x1 : XchgSt := { x with
    checks := x.checks / 2 ^ 16 * 2 ^ 16 + checkBits l, uid := if ok then uid else 0, packImg := if ok then r else []
    derated := l.any (fun n => decide (k.action n = 1)), flags := 0, accepted := false, closing := false, bmsFrom := none }
  let c1 := acting.foldl (fun c n => c.raise 1 a 0x0F n) (c.putXch a x1)
  let c2 := if changed then (c1.raise 1 a 0x11 (uid % 2 ^ 32)).unadmitPack a else c1
  if l.any (fun n => decide (k.action n = 0)) then c2.refusePack a
  else
    let c3 := c2.sendProfile a (leAt r 35 1)
    if (slotSoc r).isSome || (c3.bmsSoc a).isSome then c3.acceptPack a
    else c3.putXch a { c3.xch a with bmsFrom := some c3.runNs }

/-- BMS_WAIT_TIMEOUT (R257): no BMS SOC within ID_BMS_WAIT for a pack without a summary: PK_SOC. -/
def execBmsWaitTimeout (a : CellAddr) (dt : Nat) (s : State) : Host.Outcome State Fault Refusal :=
  s.run fun c0 =>
    let c := c0.advance dt
    let x := c.xch a
    match x.bmsFrom with
    | some t =>
      if t + c.card.pack.bmsWait * 1000000 ≤ c.runNs then
        ((c.putXch a { x with checks := x.checks + 128, bmsFrom := none }).raise 1 a 0x0F 7).refusePack a
      else c
    | none => c

/-! ### Presence and the port, both sides (R263, R264, R269) -/

/-- PACK_CONNECTOR_MATED (R263): NO_PACK to DEBOUNCE. -/
def execPackConnectorMated (a : CellAddr) (dt : Nat) (s : State) : Host.Outcome State Fault Refusal :=
  s.run fun c0 =>
    let c := c0.cellAdvance a dt
    if c.cellIsS a || decide (c.packState a ≠ 0) then c
    else
      (((c.setPack a { c.pack a with presentSince := some (c.ct a).time, debounced := false }).setPackState a 1).set
        (Reg.Idb.PRESENT a)).showPacks

/-- A pack that is debounced and whose record has not been asked for is read once the identity bus is free (R253, R263). -/
def Chip.readWaitingPack (c : Chip) (a : Nat) : Chip :=
  if (c.pack a).debounced && decide (c.packState a = 2) && decide ((c.pack a).packRec = []) && c.idFree a
      && !c.on (Reg.Idb.PACK_READ_OK a) then c.startRead a false else c

/-- PACK_PRESENT_DEBOUNCED (R263, R267): the record is read; an exchange that awaited a pack is CHECKING it as a new one. -/
def execPackPresentDebounced (a : CellAddr) (dt : Nat) (s : State) : Host.Outcome State Fault Refusal :=
  s.run fun c0 =>
    let c := c0.cellAdvance a dt
    let x := c.pack a
    match x.presentSince with
    | some t =>
      if c.packState a = 1 ∧ t + c.rd (Reg.Idb.PRESENT_DEBOUNCE a) * 256000000 ≤ (c.ct a).time then
        let c1 := ((c.setPack a { x with debounced := true }).setPackState a 2).set (Reg.Idb.PACK_INSERTED a)
        let y := c1.xch a
        let c2 := if y.state = 4 then c1.putXch a { y with state := 5, admitted := none } else c1.showPacks
        c2.readWaitingPack a
      else c
    | none => c

/-- The WC8400's answer to a pack that has left (R267, R269): an exchange awaits the next one, and the pack is not admitted.
(notes/assumptions: 34 DEDUCED) -/
def Chip.packGone (c : Chip) (a : Nat) : Chip :=
  let x := c.xch a
  let st := if x.state = 1 ∨ x.state = 2 ∨ x.state = 3 ∨ x.state = 5 ∨ x.state = 6 then 4 else x.state
  (c.unadmitPack a).putXch a { x with
    state := st, accepted := false, closing := false, bmsFrom := none, flags := 0, checks := x.checks / 2 ^ 16 * 2 ^ 16
    uid := 0, packImg := [] }

/-- PACK_REMOVED (R263, R267, R269): PACK_PRESENT_N rose for 2 µs; `bounce` says that it came back at once, which during
CHECKING takes the cell back to DEBOUNCE. -/
def execPackRemoved (a : CellAddr) (dt : Nat) (bounce : Bool) (s : State) : Host.Outcome State Fault Refusal :=
  s.run fun c0 =>
    let c := c0.cellAdvance a dt
    let st := c.packState a
    if c.cellIsS a || decide (st = 0) then c
    else if bounce = true ∧ (st = 1 ∨ st = 2) then
      let c1 := c.dropPack a
      let c2 := ((c1.setPack a { c1.pack a with presentSince := some (c1.ct a).time }).setPackState a 1).set (Reg.Idb.PRESENT a)
      c2.packGone a
    else
      let c1 := (c.packRemoved a).packGone a
      if bounce then
        ((c1.setPack a { c1.pack a with presentSince := some (c1.ct a).time }).setPackState a 1).set (Reg.Idb.PRESENT a)
      else c1

/-- PORT_CLOSE_TIMEOUT (R264): PACK_EN falls and the failure is counted; after the third in a row the WC8400 refuses the pack,
before that it tries again. -/
def execPortCloseTimeout (a : CellAddr) (dt : Nat) (s : State) : Host.Outcome State Fault Refusal :=
  s.run fun c0 =>
    let c := c0.cellAdvance a dt
    let x := c.pack a
    match x.closing with
    | some t =>
      if c.packState a = 5 ∧ t + c.rd (Reg.Idb.PORT_CLOSE_T a) * 2560000000 ≤ (c.ct a).time then
        let n := x.closeFails + 1
        let c1 := c.openPort a
        let c2 := ((c1.setPack a { c1.pack a with closeFails := n }).set (Reg.Idb.CLOSE_FAILED a)).cellFault a 1 0x14 n false false
        let y := c2.xch a
        if 3 ≤ y.fails + 1 then (c2.putXch a { y with fails := y.fails + 1 }).refusePack a
        else (c2.putXch a { y with fails := y.fails + 1, closing := true }).tryClose a
      else c
    | none => c

/-- The port has closed (R264, R267): an exchange that was CLOSING is DONE. -/
def Chip.portClosed (c : Chip) (a : Nat) : Chip :=
  let x := c.xch a
  c.putXch a { x with fails := 0, closing := false, state := if x.state = 6 then 7 else x.state }

/-- CONVERSION_COMPLETE (R238): the conversion under way ends with the exact code `raw`, before the clamp of R241. -/
def execConversionComplete (a : CellAddr) (dt : Nat) (raw : Int) (s : State) : Host.Outcome State Fault Refusal :=
  s.run fun c0 =>
    let c := c0.cellAdvance a dt
    match (c.meas1 a).busy with
    | some r =>
      let c1 := c.completeConv a r raw
      if c.packState a = 5 ∧ c1.packState a = 6 then c1.portClosed a else c1
    | none => c

/-! ### The identity bus, both sides (R253, R255, R256) -/

/-- SUMMARY_WRITE_DONE (R255, R267): the read-back of a summary; a difference is retried once. The exchange goes on to
SAFE_TO_REMOVE either way. -/
def execSummaryWriteDone (a : CellAddr) (ok : Bool) (s : State) : Host.Outcome State Fault Refusal :=
  s.run fun c =>
    match (c.pack a).job with
    | some (.summary slot image retried) =>
      let ended (c : Chip) : Chip :=
        let x := c.xch a
        (if x.state = 2 then c.putXch a { x with state := 3 } else c).readWaitingPack a
      if ok then ended (c.summaryDone a slot image)
      else if retried then ended (c.writeFailed a 0)
      else c.setPack a { c.pack a with job := some (.summary slot image true) }
    | _ => c

/-! ### Calibration orders (R243) -/

/-- A calibration order ends with a result. (notes/assumptions: 34 DEDUCED) -/
def Chip.endCal (c : Chip) (j : CalJob) (res : Nat) : Chip :=
  { c with cal := { c.cal with running := none } }.wr (Reg.Cal.CAL_RESULT j.port (regionOf j.cell)) res

/-- The order that runs at the cell `a`, if one does. -/
def Chip.calAt (c : Chip) (a : Nat) : Option CalJob := c.cal.running.filter (fun j => decide (j.cell = a))

/-- CAL_COPY_WRITE_DONE (R256, R243): the read-back of a calibration copy: CAL_RESULT 3, or 7 after the second failure. -/
def execCalCopyWriteDone (a : CellAddr) (ok : Bool) (s : State) : Host.Outcome State Fault Refusal :=
  s.run fun c =>
    match (c.pack a).job with
    | some (.cal copy retried) =>
      let tell (c : Chip) (res : Nat) : Chip := match c.calAt a with
        | some j => if j.storing then c.endCal j res else c
        | none => c
      if ok then (tell (c.calDone a copy) 3).readWaitingPack a
      else if retried then (tell (c.writeFailed a 1) 7).readWaitingPack a
      else c.setPack a { c.pack a with job := some (.cal copy true) }
    | _ => c

/-- ID_BUS_HELD (R253, R269): SDA held for 10 ms; nine clocks free it, or the bus is at fault and a write under way fails. -/
def execIdBusHeld (a : CellAddr) (released : Bool) (s : State) : Host.Outcome State Fault Refusal :=
  s.run fun c =>
    if released then c.inc (Reg.Idb.ID_RECOVER_COUNT a)
    else
      let c1 := (((c.setPack a { c.pack a with busHeld := true }).set (Reg.Idb.ID_BUS_FAULT a)).set
        (Reg.Idb.BUS_FAULT_SEEN a)).cellFault a 1 0x17 0 false false
      match (c.pack a).job with
      | some (.summary _ _ _) =>
        let x := c1.xch a
        let c2 := c1.writeFailed a 0
        if x.state = 2 then c2.putXch a { x with state := 3 } else c2
      | some (.cal _ _) =>
        let c2 := c1.writeFailed a 1
        match c2.calAt a with
        | some j => c2.endCal j 7
        | none => c2
      | _ => c1

/-- ID_BUS_RETRY (R253): once a second the bus is tried again. -/
def execIdBusRetry (a : CellAddr) (released : Bool) (s : State) : Host.Outcome State Fault Refusal :=
  s.run fun c =>
    if (c.pack a).busHeld && released then
      (((c.setPack a { c.pack a with busHeld := false }).clr (Reg.Idb.ID_BUS_FAULT a)).inc (Reg.Idb.ID_RECOVER_COUNT a)
        ).readWaitingPack a
    else c

/-- CELL_CAL_GO (R243): the cell starts its point, or sets CAL_FAILED, which the WC8400 reports as 4. -/
def execCellCalGo (a : CellAddr) (s : State) : Host.Outcome State Fault Refusal :=
  s.run fun c =>
    let c1 := c.cellCalGo a
    if (c.meas1 a).cal = none ∧ (c1.meas1 a).cal.isSome then c1
    else
      match c1.calAt a with
      | some j => c1.endCal j 4
      | none => c1

/-- CAL_POINT_DONE (R243): the conversions are gathered; mean and spread are shown, at the cell and in the region block. -/
def execCalPointDone (a : CellAddr) (s : State) : Host.Outcome State Fault Refusal :=
  s.run fun c =>
    match (c.meas1 a).cal with
    | some p =>
      if p.left ≠ 0 then c
      else
        let mean := divRound (p.sum * 16) p.total
        let spread := (p.most - p.least).toNat
        let c1 := ((((c.setMeas a { c.meas1 a with cal := none }).wrI (Reg.Adc.CAL_MEAN a) mean).wr (Reg.Adc.CAL_SPREAD a)
          (satNat 16 spread)).wr (Reg.Adc.CAL_OVR a) (satNat 16 p.ovr)).set (Reg.Adc.CAL_DONE a)
        match c1.calAt a with
        | some j =>
          let r := regionOf a
          let c2 := (c1.wrI (Reg.Cal.CAL_MEAN r) mean).wr (Reg.Cal.CAL_SPREAD r) (satNat 16 spread)
          let c3 := { c2 with cal := { c2.cal with
            points := insertKey ((j.cell * 16 + j.ain) * 2 + j.point) (mean, spread, decide (p.ovr ≠ 0)) c2.cal.points } }
          c3.endCal j 2
        | none => c1
    | none => c

/-- CAL_POINT_TIMEOUT (R243): 5 s without the conversions. -/
def execCalPointTimeout (a : CellAddr) (dt : Nat) (s : State) : Host.Outcome State Fault Refusal :=
  s.run fun c0 =>
    let c := c0.cellAdvance a dt
    match (c.meas1 a).cal with
    | some p =>
      if p.since + 1280000000000 ≤ (c.ct a).time then
        let c1 := (c.setMeas a { c.meas1 a with cal := none }).set (Reg.Adc.CAL_FAILED a)
        match c1.calAt a with
        | some j => c1.endCal j 4
        | none => c1
      else c
    | none => c

/-- The cell that a port's calibration order names in region `r`. -/
def Chip.calCell (c : Chip) (p r : Nat) : Nat := r * 2048 + c.rd (Reg.Cal.CAL_CELL p r)

/-- CAL_GO (R243): a point of one input is ordered; the cell gets CAL_SEL, then N_LOG2 with CAL_GO. -/
def execCalGo (p : PortIx) (r : RegionIx) (s : State) : Host.Outcome State Fault Refusal :=
  s.run fun c =>
    let res := Reg.Cal.CAL_RESULT p r
    if c.has p .maint = false then c.refuseTo p res 5
    else if c.cal.running.isSome || !c.twoHandOk 2 then c.wr res 5
    else
      let a := c.calCell p r
      let j : CalJob := ⟨p, a, c.rd (Reg.Cal.CAL_AIN p r), c.rd (Reg.Cal.POINT p r), false⟩
      (({ c with cal := { c.cal with running := some j } }.wr res 1).sendMgmt 1 a 0x62 j.ain 4).sendMgmt 1 a 0x65
        (calN (c.rd (Reg.Cal.N_LOG2 p r)) + 32) 4

/-- The edited calibration copy (R256): the current one, `cur` of record `r`, with the new coefficients, their mask bit and the
next CAL_SEQ. -/
def newCalCopy (cur : Option Nat) (r : List Nat) (ain ofs gain : Nat) : List Nat :=
  let old := match cur with
    | some k => (r.drop (64 + 80 * k)).take 80
    | none => List.replicate 80 0
  let seq := match cur with
    | some _ => (leAt old 72 2 + 1) % 65536
    | none => 0
  let x := patch (patch (patch old (6 * ain) (leBytes 2 ofs ++ leBytes 4 gain)) 72 (leBytes 2 seq)) 76
    (leBytes 2 (leAt old 76 2 ||| 2 ^ ain))
  patch x 78 (leBytes 2 (crc16 (x.take 78)))

/-- CAL_STORE (R243, R256): offset and gain from the two points, checked, written into the cell and into its record. -/
def execCalStore (p : PortIx) (r : RegionIx) (s : State) : Host.Outcome State Fault Refusal :=
  s.run fun c =>
    let res := Reg.Cal.CAL_RESULT p r
    let a := c.calCell p r
    let ain := c.rd (Reg.Cal.CAL_AIN p r)
    let key := (a * 16 + ain) * 2
    if c.has p .maint = false then c.refuseTo p res 5
    else if c.cal.running.isSome || !c.idFree a then c.wr res 5
    else
      match findKey key c.cal.points, findKey (key + 1) c.cal.points with
      | some (z, sz, oz), some (f, sf, of) =>
        if 1024 * 16 < z.natAbs ∨ (f - z).natAbs < 16384 * 16 ∨ 64 < sz ∨ 64 < sf ∨ oz = true ∨ of = true then c.wr res 6
        else
          let gain := f32.enc ((f32.dec (c.rd (Reg.Cal.CAL_APPLIED p r))).div (Fp.ofRat (f - z) 16))
          let ofs := ofSigned 16 z
          let rec0 := (c.pack a).stageRec
          let cur := if c.on (Reg.Idb.CAL_COPY_VALID a) then some (c.rd (Reg.Idb.CAL_COPY a)) else none
          let place := match cur with
            | some k => 16 + 20 * k
            | none => 36
          let image := newCalCopy cur rec0 ain ofs gain
          let j : CalJob := ⟨p, a, ain, 0, true⟩
          let c1 := (({ c with cal := { c.cal with running := some j } }.wr res 1).wr (Reg.Cal.CAL_OFS_NEW r) ofs).wr
            (Reg.Cal.CAL_GAIN_NEW r) gain
          let c2 := ((c1.sendMgmt 1 a 0x62 ain 4).sendMgmt 1 a 0x63 ofs 4).sendMgmt 1 a 0x64 gain 4
          let c3 := (List.range 20).foldl (fun c i => c.sendMgmt 1 a 0xD3 (leAt image (4 * i) 4) 4)
            (c2.sendMgmt 1 a 0xD2 (place + 64) 4)
          c3.sendMgmt 1 a 0xD1 64 4
      | _, _ => c.wr res 6

/-! ### Exchange orders (R266 to R269) -/

/-- XCHG_GO (R266): accepted into RAMPING, or AWAIT_PACK where no pack is in place. (notes/assumptions: 43 DEDUCED) -/
def execXchgGo (p : PortIx) (s : State) : Host.Outcome State Fault Refusal :=
  s.run fun c =>
    let res := Reg.Xchg.XCHG_RESULT p
    let a := c.rd (Reg.Xchg.XCHG_CELL p)
    let st := c.packState a
    let running := c.xchs.filter (fun e => xchgRuns e.2.state)
    if c.has p .maint = false then c.refuseTo p res 3
    else if c.population (a / 64) ≤ a % 64 ∨ c.isSensor a = true ∨ st = 1 ∨ st = 2 ∨ st = 5 then c.wr res 2
    else if running.any (fun e => decide (e.1 / 64 = a / 64)) || decide (16 ≤ running.length) then c.wr res 4
    else if c.twoHandOk 0 = false then c.wr res 5
    else
      let x := c.xch a
      let x1 : XchgSt := { x with state := if st = 0 then 4 else 1, port := p, at0 := c.runNs, low := 0, closing := false }
      (c.putXch a x1).wr res 1

/-- XCHG_RAMP_DONE (R267): the exchange is DETACHING: DETACH goes out; LEDGER_COMMIT and SUMMARY_WRITE follow. -/
def execXchgRampDone (a : CellAddr) (s : State) : Host.Outcome State Fault Refusal :=
  s.run fun c =>
    let x := c.xch a
    if x.state = 1 ∧ 10 ≤ x.low then (c.putXch a { x with state := 2 }).orderPack a 9 else c

/-- XCHG_ABORT (R268). -/
def execXchgAbort (p : PortIx) (s : State) : Host.Outcome State Fault Refusal :=
  s.run fun c =>
    let res := Reg.Xchg.XCHG_RESULT p
    let a := c.rd (Reg.Xchg.XCHG_CELL p)
    let x := c.xch a
    if c.has p .maint = false then c.refuseTo p res 3
    else if 1 ≤ x.state ∧ x.state ≤ 3 then ((c.putXch a { x with state := 10 }).wr res 1).orderPack a 0
    else if x.state = 4 then (c.putXch a { x with state := 10 }).wr res 1
    else c.wr res 2

/-- XCHG_TIMEOUT (R268). -/
def execXchgTimeout (a : CellAddr) (dt : Nat) (s : State) : Host.Outcome State Fault Refusal :=
  s.run fun c0 =>
    let c := c0.advance dt
    let x := c.xch a
    if (x.state = 3 ∨ x.state = 4) ∧ x.at0 + c.card.pack.xchgTimeout * 1000000000 ≤ c.runNs then
      c.putXch a { x with state := 9 }
    else c

/-! ### The sweep (R247 to R249) -/

/-- A sweep starts (R247, R248): the first point, and channel 3's profile from its first segment. -/
def Chip.startSweep (c : Chip) : Chip :=
  let x := c.chan 3
  let c1 := (c.setChan 3 { x with pendingStart := true }).wr Reg.Sweep.SWEEP_STATE 1
  { c1.clr Reg.Sweep.SWEEP_POINT with sweep := { c1.sweep with restart := true, stopping := false } }

/-- SWEEP_GO (R248), by a host or by the card's dated activation. -/
def execSweepGo (p : Option PortIx) (s : State) : Host.Outcome State Fault Refusal :=
  s.run fun c =>
    let tell (c : Chip) (v : Nat) : Chip := match p with
      | some q => c.wr (Reg.Sweep.SWEEP_RESULT q) v
      | none => c
    let may := match p with
      | some q => c.has q .order || c.has q .maint
      | none => true
    match p, may with
    | some q, false => c.refuseTo q (Reg.Sweep.SWEEP_RESULT q) 3
    | _, _ =>
      if c.rd Reg.Sweep.SWEEP_STATE ≠ 0 then tell c 2
      else if c.allBlocked then tell c 4
      else tell c.startSweep 1

/-- SWEEP_STOP (R248): the sweep ends at the next frame. -/
def execSweepStop (p : PortIx) (s : State) : Host.Outcome State Fault Refusal :=
  s.run fun c =>
    if (c.has p .order || c.has p .maint) = false then c.refuseTo p (Reg.Sweep.SWEEP_RESULT p) 3
    else if c.rd Reg.Sweep.SWEEP_STATE = 1 then
      { c.wr Reg.Sweep.SWEEP_STATE 2 with sweep := { c.sweep with stopping := true } }
    else c

/-- The sweep at a frame start, after the channels have moved on (and a stop has stopped channel 3): a stop takes hold; the point held follows the segments, two to
a point; a profile that has ended completes the sweep. -/
def Chip.stepSweep (c : Chip) (seg : Nat) (ended : Bool) : Chip :=
  if c.rd Reg.Sweep.SWEEP_STATE = 0 then c
  else if c.sweep.stopping then
    { c with sweep := { c.sweep with stopping := false } }.clr Reg.Sweep.SWEEP_STATE
  else if ended then (c.inc Reg.Sweep.SWEEP_COUNT).clr Reg.Sweep.SWEEP_STATE
  else c.wr Reg.Sweep.SWEEP_POINT (seg / 2)

/-- The impedance probe of port `p`. -/
def Chip.showImp (c : Chip) (p : Nat) : Chip :=
  match findKey (8 * c.rd (Reg.Sweep.IMP_PROBE_CELL p) + c.rd (Reg.Sweep.IMP_PROBE_POINT p)) c.sweep.results with
  | some x =>
    ((((c.wr (Reg.Sweep.IMP_ABS p) x.absZ).wr (Reg.Sweep.IMP_PHASE p) x.phase).wr (Reg.Sweep.IMP_FREQ p) x.freq).wr
      (Reg.Sweep.IMP_T p) x.temp).wr (Reg.Sweep.IMP_AGE p) (satNat 16 ((c.runNs - x.at0) / 60000000000))
  | none =>
    ((((c.clr (Reg.Sweep.IMP_ABS p)).clr (Reg.Sweep.IMP_PHASE p)).clr (Reg.Sweep.IMP_FREQ p)).clr (Reg.Sweep.IMP_T p)).wr
      (Reg.Sweep.IMP_AGE p) 0xFFFF

/-- The numerator and denominator of a binary32 value; 0 where it is no finite number. -/
def ratOf (v : Nat) : Int × Nat :=
  match f32.dec v with
  | .fin neg n d => ((if neg then -1 else 1 : Int) * n, d)
  | _ => (0, 1)

/-- The impedance of a pair (R249): |Z| in ohms, arg Z in degrees from −180 to 180, both binary32.
(notes/assumptions: 43 DEDUCED) -/
def impedance (v i : CorrRes) : Nat × Nat :=
  let (vr, dvr) := ratOf v.re
  let (vi, dvi) := ratOf v.im
  let (ir, dir) := ratOf i.re
  let (ii, dii) := ratOf i.im
  -- numerators over common denominators dv and di
  let (xr, xi, dv) := (vr * dvi, vi * dvr, dvr * dvi)
  let (yr, yi, di) := (ir * dii, ii * dir, dir * dii)
  let re := xr * yr + xi * yi
  let im := xi * yr - xr * yi
  let (n, d) := ratSqrt ((xr * xr + xi * xi).natAbs * (di * di)) ((yr * yr + yi * yi).natAbs * (dv * dv))
  let ac : Int := toSigned 32 (phaseAc re im)
  if yr = 0 ∧ yi = 0 then (Config.quotientOpen v.cell, Config.quotientOpen v.cell) else (fRat n d, fRat (ac * 360) (2 ^ 32))

/-- Is the magnitude of a result below `limit` hundredths of its unit? -/
def CorrRes.below (x : CorrRes) (limit : Nat) : Bool :=
  let (r, dr) := ratOf x.re
  let (i, di) := ratOf x.im
  let s := (r * di * (r * di) + i * dr * (i * dr)).natAbs
  decide (s * 10000 < limit * limit * (dr * di) * (dr * di))

/-- A pair of results of one cell is used, or discarded for low excitation (R249). (notes/assumptions: 43 DEDUCED) -/
def Chip.usePair (c : Chip) (v i : CorrRes) : Chip :=
  if v.bad || i.bad || i.below c.card.excMin then c.inc Reg.Sweep.LOW_EXC_COUNT
  else
    let (z, ph) := impedance v i
    let pt : Nat := c.rd Reg.Sweep.SWEEP_POINT
    let f := if v.finish ≤ v.start then Config.quotientOpen v.cell else fRat ((v.turns * 1000000000 : Nat) : Int) (v.finish - v.start)
    let c1 : Chip := { c.inc Reg.Sweep.PAIRS_USED with sweep := { c.sweep with
      results := insertKey (8 * v.cell + pt) ⟨z, ph, f, v.temp, v.finish⟩ c.sweep.results } }
    if (pt = c.rd Reg.Sweep.HEALTH_POINT) ∧ (c1.pol v.cell).admitted = true then
      let y := c1.pol v.cell
      c1.setPol v.cell { y with probes := y.probes ++ [⟨z, toSigned 16 v.temp, v.finish⟩] }
    else c1

/-- A bulk record that arrived intact (R108, R109): the position that sent it and the record, or none. -/
def Chip.bulkIn (c : Chip) (l : List Nat) (typ : Nat) : Option (Nat × BulkRec) :=
  match readBulk l with
  | some (a, r) => if r.typ = typ ∧ (c.posn a).admState = 6 then some (a, r) else none
  | none => none

/-- The record is acknowledged with the cell's next command; a repetition of the last one says nothing new (R109). -/
def Chip.ackBulk (c : Chip) (a : Nat) (r : BulkRec) : Bool × Chip :=
  (decide ((c.posn a).bulkAck ≠ some r.seq), c.setAt a { c.posn a with bulkAck := some r.seq })

/-- BULK_CORR_RESULT_RX (R246, R249). -/
def execBulkCorrResultRx (dt : Nat) (blocks : List Byte) (s : State) : Host.Outcome State Fault Refusal :=
  s.run fun c0 =>
    let c := c0.advance dt
    match c.bulkIn (blocks.map BitVec.toNat) 1 with
    | none => c
    | some (a, r) =>
      let (new, c1) := c.ackBulk a r
      if !new then c1
      else
        let b := r.payload
        let x : CorrRes := {
          cell := a, input := leAt b 0 1 / 16, start := leAt b 32 4 * 2 ^ 32 + leAt b 4 4
          finish := leAt b 36 4 * 2 ^ 32 + leAt b 8 4, ch := leAt b 0 1 / 4 % 4, harm := leAt b 1 1 % 32, re := leAt b 12 4
          im := leAt b 16 4, turns := leAt b 2 2, temp := leAt b 28 2, bad := decide (leAt b 27 1 % 4 ≠ 0), arrived := c.runNs }
        let vIn := c1.role a 2
        let iIn := c1.role a 3
        let fits (y : CorrRes) : Bool := decide (y.cell = a) && decide (y.start = x.start) && decide (y.finish = x.finish)
          && decide (y.ch = x.ch) && decide (y.harm = x.harm)
          && ((decide (x.input = vIn) && decide (y.input = iIn)) || (decide (x.input = iIn) && decide (y.input = vIn)))
        match c1.sweep.waiting.find? fits with
        | some y =>
          let c2 := { c1 with sweep := { c1.sweep with waiting := c1.sweep.waiting.erase y } }
          if x.input = vIn then c2.usePair x y else c2.usePair y x
        | none => { c1 with sweep := { c1.sweep with waiting := c1.sweep.waiting ++ [x] } }

/-- UNPAIRED_TIMEOUT (R249): results that found no partner within 2 s. (notes/assumptions: 43 DEDUCED) -/
def execUnpairedTimeout (dt : Nat) (s : State) : Host.Outcome State Fault Refusal :=
  s.run fun c0 =>
    let c := c0.advance dt
    let old (x : CorrRes) : Bool := decide (x.arrived + 2000000000 ≤ c.runNs)
    { c with sweep := { c.sweep with waiting := c.sweep.waiting.filter (fun x => !old x) } }.add Reg.Sweep.UNPAIRED_COUNT
      (c.sweep.waiting.filter old).length

/-! ### Ledger rows and BMS mirrors at the WC8400 (R262, R284, R285) -/

/-- BULK_LEDGER_ROW_RX (R284): to the ledger stream of every LEDGER port; the PACK_CLOSE row of an exchange brings the
SUMMARY_WRITE (R267). -/
def execBulkLedgerRowRx (dt : Nat) (blocks : List Byte) (s : State) : Host.Outcome State Fault Refusal :=
  s.run fun c0 =>
    let c := c0.advance dt
    match c.bulkIn (blocks.map BitVec.toNat) 2 with
    | none => c
    | some (a, r) =>
      let (new, c1) := c.ackBulk a r
      if !new then c1
      else
        let c2 := [0, 1, 2, 3].foldl (fun c p => c.inc (Reg.Ledg.LEDGER_ROWS p)) c1
        let c3 := c2.produceAll 1 2 64 (r.payload.take 40 ++ leBytes 2 (a % 16384) ++ List.replicate 6 0)
        if (c3.xch a).state = 2 ∧ leAt r.payload 0 4 / 2 ^ 28 = 2 then c3.orderPack a 5 else c3

/-- BULK_BMS_MIRROR_RX (R262): what the policy engine takes from a mirror. -/
def execBulkBmsMirrorRx (dt : Nat) (blocks : List Byte) (s : State) : Host.Outcome State Fault Refusal :=
  s.run fun c0 =>
    let c := c0.advance dt
    match c.bulkIn (blocks.map BitVec.toNat) 3 with
    | none => c
    | some (a, r) =>
      let (new, c1) := c.ackBulk a r
      if !new then c1
      else
        let b := r.payload
        let u (off : Nat) : Option Nat := if leAt b off 2 = 0xFFFF then none else some (leAt b off 2)
        let m : BmsData := {
          soc := u 0, flags := leAt b 20 2, limCh := u 10, limDis := u 12, capacity := u 14, at0 := c.runNs
          age := leAt b 22 2 * 10000000 }
        let c2 := c1.setPol a { c1.pol a with bms := some m }
        (c2.putXch a { c2.xch a with flags := m.flags }).bmsArrived a

/-- ROW_SEL, ROW_FETCH and the reads of a fetch for port `p` (R285, R288). -/
def Chip.askRow (c : Chip) (p a seq : Nat) : Chip :=
  ([0xE7, 0xE8, 0xE9, 0xEA, 0xEB, 0xEC, 0xED, 0xEE, 0xEF] : List Nat).foldl (fun c r => c.sendMgmt 2 a r 0 (80 + p))
    ((c.sendMgmt 1 a 0xE6 (seq % 2 ^ 28) (80 + p)).sendMgmt 1 a 0xE7 1 (80 + p))

/-- LEDGER_GO (R285): a row of a cell's ring is fetched through the management slot; the latest one is asked for first. -/
def execLedgerGo (p : PortIx) (s : State) : Host.Outcome State Fault Refusal :=
  s.run fun c =>
    let res := Reg.Ledg.LEDGER_RESULT p
    let a := c.rd (Reg.Ledg.LEDGER_CELL p)
    if c.has p .ledger = false then c.refuseTo p res 6
    else if c.rd res = 1 then c.wr res 5
    else if c.population (a / 64) ≤ a % 64 ∨ c.isSensor a = true ∨ (c.posn a).admState ≠ 6 then c.wr res 7
    else
      let c1 := { c with fetches := insertKey p.val ⟨a, []⟩ c.fetches }.wr res 1
      let q := c1.rd (Reg.Ledg.LEDGER_SEQ p)
      if q = 0xFFFFFFFF then c1.sendMgmt 2 a 0xE4 0 (80 + p) else c1.askRow p a q

end Sys2Proof.Machine
end

