-- ==== Sys2Proof/Machine/Lanes.lean ====
section
/-! DEFINITION. The rope lanes (chapter 03, R313): block errors, lane lock, BREAK, error windows, transmit equalisation, the
pattern test, injection, loopback and the optical modules. -/

namespace Sys2Proof.Machine

/-! ### Which lane is which -/

/-- The detail of a lane fault (R73): position (a Ridge: bit 6), port or end, cause. -/
def laneDetail (pos : Nat) (ridge : Bool) (port cause : Nat) : Nat := (if ridge then 64 else pos % 64) + 128 * port + 256 * cause

/-- Is the WN140 at `a` powered? -/
def Chip.powered (c : Chip) (a : Nat) : Bool := (c.gate a).powered

/-- For R72 and R95 a port is down while its receiver is, and while it is remote down (R313). (notes/assumptions: 27 DEDUCED) -/
def Chip.portDown (c : Chip) (a b : Nat) : Bool := !c.on (Reg.CLane.PORT_UP a b) || (c.clane a b).remote.isSome

/-- The failed path of rope `g` does not run clean: HEAL_HOLD starts again (R20, R317). -/
def Chip.unclean (c : Chip) (g : Nat) : Chip := c.setRope g { c.rope g with cleanSince := none }

/-- Does hop `h` of rope `g` lie on its failed path: in SPLIT the hops from b to b', in TRAVERSE the first? -/
def Chip.onFailedPath (c : Chip) (g h : Nat) : Bool :=
  match c.mode g with
  | 1 => decide (c.rd (Reg.Rope.BREAK_POS g) ≤ h ∧ h ≤ max (c.rd (Reg.Rope.BREAK_POS g)) (c.rope g).breakHi)
  | 2 => decide (h = 0)
  | _ => false

/-! ### Invalid and ERROR blocks (R69) -/

/-- BLOCK_INVALID_RX (R69, R76): counted at the receiving port and in its window; a WN140 forwards an ERROR block. -/
def execBlockInvalidRx (l : LaneRef) (s : State) : Host.Outcome State Fault Refusal :=
  s.run fun c =>
    match l with
    | .ridge g e =>
      let x := c.rlane g e
      (c.setRlane g e { x with windowErrs := x.windowErrs + 1 }).inc (Reg.RLane.BLOCK_ERR_COUNT g e)
    | .cell a b =>
      if c.powered a then
        let x := c.clane a b
        (c.setClane a b { x with windowErrs := x.windowErrs + 1 }).inc (Reg.CLane.BLOCK_ERR_COUNT a b)
      else c

/-- ERROR_BLOCK_RX (R69). -/
def execErrorBlockRx (a : CellAddr) (b : LaneIx) (s : State) : Host.Outcome State Fault Refusal :=
  s.run fun c => if c.powered a then c.inc (Reg.CLane.FWD_ERR_COUNT a b) else c

/-! ### BREAK (R72, R313) -/

/-- A BREAK leaves out of port `o` of the cell for its port `b`, which is down or remote down (R72, R313). -/
def Chip.sendBreak (c : Chip) (a o b cause : Nat) (notice : Bool) : Chip :=
  c.setClane a o { c.clane a o with lastBreak := some (b, cause, notice, (c.clane a b).downStamp), brkSent := true }

/-- The BREAKs for port `b` out of the cell's other port, where that is UP, and out of `b` itself while it is not UP. -/
def Chip.breaks (c : Chip) (a b : Nat) : Chip :=
  let x := c.clane a b
  match x.remote, c.on (Reg.CLane.PORT_UP a b) with
  | some (cause, notice), true => if c.on (Reg.CLane.PORT_UP a (1 - b)) then c.sendBreak a (1 - b) b cause notice else c
  | _, true => c
  | _, false =>
    let c1 := c.setClane a b { x with lastBreak := some (b, x.downCause, false, x.downStamp) }
    if c.on (Reg.CLane.PORT_UP a (1 - b)) then c1.sendBreak a (1 - b) b x.downCause false else c1

/-- A port is served again: the cell no longer turns frames out of the other one for it. -/
def Chip.endBreaks (c : Chip) (a b : Nat) : Chip := c.setClane a (1 - b) { c.clane a (1 - b) with brkSent := false, lastBreak := none }

/-- BREAK_REPEAT (R72): every 64 block times, for as long as the port stays down. -/
def execBreakRepeat (a : CellAddr) (b : LaneIx) (s : State) : Host.Outcome State Fault Refusal :=
  s.run fun c => if c.powered a && c.portDown a b then c.breaks a b else c

/-- BREAK_RX (R313, R316): a BREAK that names the facing port makes a WN140's port remote down and is consumed, another is
forwarded; a Ridge passes one of a cell to rope mode control. -/
def execBreakRx (l : LaneRef) (x : BreakBlk) (s : State) : Host.Outcome State Fault Refusal :=
  s.run fun c =>
    match l with
    | .ridge g e =>
      if x.ridge then c
      else
        let y := c.rope g
        let c1 := c.setRope g { y with breaks := y.breaks ++ [⟨x.addr % 64, x.port, x.cause, x.notice, e⟩] }
        if x.notice then c1 else c1.unclean g
    | .cell a b =>
      if c.powered a && decide (x.port.val = 1 - b.val) then
        let y := c.clane a b
        let new := !x.notice && (match y.remote with
          | some (_, n) => n
          | none => true)
        let c1 := c.setClane a b { y with
          remote := some (x.cause.val, x.notice), downStamp := if y.remote.isSome then y.downStamp else c.cellStamp a }
        let c2 := if new then c1.cellFault a 2 0x40 (laneDetail (c.rd (Reg.CId.CELL_ADDR a)) false b x.cause) false false else c1
        c2.breaks a b
      else c

/-- REMOTE_DOWN_CLEAR (R313): 128 block times without such a BREAK. -/
def execRemoteDownClear (a : CellAddr) (b : LaneIx) (s : State) : Host.Outcome State Fault Refusal :=
  s.run fun c =>
    if (c.clane a b).remote.isSome then
      let c1 := c.setClane a b { c.clane a b with remote := none }
      if c1.portDown a b then c1 else c1.endBreaks a b
    else c

/-! ### Lane lock (R72 to R74, R76) -/

/-- A Ridge lane goes down with a cause (R72, R73): the fault of its rope, unless a lane test has taken the coded stream away (R80).
(notes/assumptions: 27 DEDUCED) -/
def Chip.ridgeDown (c : Chip) (g e cause : Nat) : Chip :=
  let c1 := (((c.setRlane g e { c.rlane g e with downCause := cause }).clr (Reg.RLane.LANE_UP g e)).set
    (Reg.RLane.LOCK_LOST g e)).unclean g
  if c.on (Reg.RLane.TEST_ACTIVE g e) then c1 else c1.raiseRope g 0x40 (laneDetail 0 true e cause)

/-- A port of a WN140 goes down with a cause: the fault, and the BREAKs; without lane input its clock runs on the crystal (R50). In a lane test the pattern takes the place of both.
(notes/assumptions: 27 DEDUCED) -/
def Chip.cellPortDown (c : Chip) (a b cause : Nat) : Chip :=
  let c0 := ((c.setClane a b { c.clane a b with downCause := cause, downStamp := c.cellStamp a, remote := none }).clr
    (Reg.CLane.PORT_UP a b)).set (Reg.CLane.LOCK_LOST a b)
  let c1 := if c0.anyPortUp a then c0 else c0.set (Reg.CTime.ON_CRYSTAL a)
  if c.on (Reg.CLane.TEST_ACTIVE a b) then c1
  else ((c1.cellFault a 2 0x40 (laneDetail (c.rd (Reg.CId.CELL_ADDR a)) false b cause) false false).breaks a b).listenToWake a

/-- BLOCK_LOCK_GAINED (R72). -/
def execBlockLockGained (l : LaneRef) (s : State) : Host.Outcome State Fault Refusal :=
  s.run fun c =>
    match l with
    | .ridge g e => c.set (Reg.RLane.BLOCK_LOCKED g e)
    | .cell a b => if c.powered a then c.set (Reg.CLane.BLOCK_LOCKED a b) else c

/-- BLOCK_LOCK_LOST (R72, R73): a loss of lock with cause 0, unless the receive PLL has lost its reference before. -/
def execBlockLockLost (l : LaneRef) (s : State) : Host.Outcome State Fault Refusal :=
  s.run fun c =>
    match l with
    | .ridge g e =>
      let c1 := if c.on (Reg.RLane.PLL_LOCKED g e) then c.setRlane g e { c.rlane g e with downCause := 0 } else c
      c1.clr (Reg.RLane.BLOCK_LOCKED g e)
    | .cell a b =>
      if c.powered a then
        let c1 := if c.on (Reg.CLane.PLL_LOCKED a b) then c.setClane a b { c.clane a b with downCause := 0 } else c
        c1.clr (Reg.CLane.BLOCK_LOCKED a b)
      else c

/-- LANE_UP (R72, R76, R86): both locks are held, and neither R76 nor a module holds the lane down. -/
def execLaneUp (l : LaneRef) (rxEq : Fin 16) (resAB resBA turn : Fin 65536) (s : State) : Host.Outcome State Fault Refusal :=
  s.run fun c =>
    match l with
    | .ridge g e =>
      let x := c.rlane g e
      if c.on (Reg.RLane.PLL_LOCKED g e) && c.on (Reg.RLane.BLOCK_LOCKED g e) && !c.on (Reg.RLane.LANE_UP g e) && !x.errHeld &&
          !x.moduleHeld then
        ((c.set (Reg.RLane.LANE_UP g e)).set (Reg.RLane.LOCK_GAINED g e)).wr (Reg.RLane.RX_EQ g e) rxEq
      else c
    | .cell a b =>
      if c.powered a && c.on (Reg.CLane.PLL_LOCKED a b) && c.on (Reg.CLane.BLOCK_LOCKED a b) && !c.on (Reg.CLane.PORT_UP a b) &&
          !(c.clane a b).errHeld then
        let c1 := ((c.set (Reg.CLane.PORT_UP a b)).set (Reg.CLane.LOCK_GAINED a b)).wr (Reg.CLane.RX_EQ a b) rxEq
        let c2 := ((c1.wr (Reg.CTime.RES_AB a) resAB).wr (Reg.CTime.RES_BA a) resBA).wr (Reg.CTime.TURN a) turn
        let c3 := c2.endBreaks a b
        (if c3.portDown a (1 - b) then c3.breaks a (1 - b) else c3).wakeToListen a
      else c

/-- LANE_DOWN (R72, R73): a lock is lost. -/
def execLaneDown (l : LaneRef) (s : State) : Host.Outcome State Fault Refusal :=
  s.run fun c =>
    match l with
    | .ridge g e =>
      if c.on (Reg.RLane.LANE_UP g e) && !(c.on (Reg.RLane.PLL_LOCKED g e) && c.on (Reg.RLane.BLOCK_LOCKED g e)) then
        c.ridgeDown g e (c.rlane g e).downCause
      else c
    | .cell a b =>
      if c.on (Reg.CLane.PORT_UP a b) && !(c.on (Reg.CLane.PLL_LOCKED a b) && c.on (Reg.CLane.BLOCK_LOCKED a b)) then
        c.cellPortDown a b (c.clane a b).downCause
      else c

/-- ERR_WINDOW_END (R76): the window's invalid blocks against ERR_LIMIT; three windows over it in a row take the lane down until
one at or below it with lock held. (notes/assumptions: 44 DEDUCED) -/
def execErrWindowEnd (l : LaneRef) (s : State) : Host.Outcome State Fault Refusal :=
  s.run fun c =>
    let (g, h) := c.hopOf l
    match l with
    | .ridge _ e =>
      let x := c.rlane g e
      let high := decide (c.rd (Reg.RLane.ERR_LIMIT_VALUE g e) < x.windowErrs)
      let n := if high then x.overWindows + 1 else 0
      let c1 := (c.setRlane g e { x with windowErrs := 0, overWindows := n, errHeld := if high then x.errHeld || decide (3 ≤ n) else
        x.errHeld && !(c.on (Reg.RLane.PLL_LOCKED g e) && c.on (Reg.RLane.BLOCK_LOCKED g e)) }).wr (Reg.RLane.ERR_IN_WINDOW g e)
          (satNat 16 x.windowErrs)
      let c2 := if 0 < x.windowErrs ∧ c.onFailedPath g h = true then c1.unclean g else c1
      if high then
        let c3 := c2.set (Reg.RLane.ERR_LIMIT g e)
        if 3 ≤ n ∧ c.on (Reg.RLane.LANE_UP g e) = true then c3.ridgeDown g e 2
        else c3.raiseRope g 0x40 (laneDetail 0 true e 2)
      else c2
    | .cell a b =>
      let x := c.clane a b
      let high := decide (c.rd (Reg.CLane.ERR_LIMIT_VALUE a b) < x.windowErrs)
      let n := if high then x.overWindows + 1 else 0
      let c1 := (c.setClane a b { x with windowErrs := 0, overWindows := n, errHeld := if high then x.errHeld || decide (3 ≤ n) else
        x.errHeld && !(c.on (Reg.CLane.PLL_LOCKED a b) && c.on (Reg.CLane.BLOCK_LOCKED a b)) }).wr (Reg.CLane.ERR_IN_WINDOW a b)
          (satNat 16 x.windowErrs)
      let c2 := if 0 < x.windowErrs ∧ c.onFailedPath g h = true then c1.unclean g else c1
      if high then
        let c3 := c2.set (Reg.CLane.ERR_LIMIT a b)
        if 3 ≤ n ∧ c.on (Reg.CLane.PORT_UP a b) = true then c3.cellPortDown a b 2
        else c3.cellFault a 2 0x40 (laneDetail (c.rd (Reg.CId.CELL_ADDR a)) false b 2) false false
      else c2

/-! ### Transmit equalisation (R77 to R79) -/

/-- Is a transmit setting valid (R77)? -/
def txEqValid (v : Nat) : Bool :=
  let pre := bits v 0 4
  let main := bits v 4 6
  let post := bits v 10 5
  decide (24 ≤ main) && decide (pre + main + post ≤ 63) && decide (pre + post + 16 ≤ main)

/-- A WN140's TX_EQ is written (R77): RESULT, data, chip. An invalid setting is ignored and WRITE_REFUSED set.
(notes/assumptions: 35 DEDUCED) -/
def Chip.cellTxEq (c : Chip) (a b v : Nat) : Nat × Nat × Chip :=
  (1, v, if txEqValid v then c.wr (Reg.CLane.TX_EQ a b) v else c.set (Reg.CLane.WRITE_REFUSED a b))

/-- A Ridge lane's setting is written without a check of rights (R78). -/
def Chip.ridgeTxEq (c : Chip) (g e v : Nat) : Chip :=
  if txEqValid v then ((c.wr (Reg.RLane.C_PRE g e) v).wr (Reg.RLane.C_MAIN g e) (v / 16)).wr (Reg.RLane.C_POST g e) (v / 1024)
  else c.set (Reg.RLane.WRITE_REFUSED g e)

/-- TX_EQ_WRITE (R77, R79): a host's, with MAINT rights and the rope DOWN; or a cell's. -/
def execTxEqWrite (p : Option PortIx) (l : LaneRef) (v : Word) (s : State) : Host.Outcome State Fault Refusal :=
  s.run fun c =>
    match l, p with
    | .ridge g e, some q =>
      if c.has q .maint = false then c.refuseTo q (Reg.RLane.WRITE_REFUSED g e) 1
      else if c.mode g = 3 then c.ridgeTxEq g e v.toNat
      else c.set (Reg.RLane.WRITE_REFUSED g e)
    | .ridge g e, none => c.ridgeTxEq g e v.toNat
    | .cell a b, _ => if c.powered a then c.answer a (c.cellTxEq a b v.toNat) else c

/-! ### The pattern test (R80, R81) -/

/-- The rope under test in region `r`, a global index. -/
def Chip.testRope (c : Chip) (r : Nat) : Nat := 32 * r + (c.laneTest r).rope

/-- LANE_TEST_START (R81): a DOWN rope whose cells are all READY or FENCED, MAINT rights and two hands where asked for. The test
parameters go out to every cell; the common start lies past the 100 frames that the cells have to acknowledge.
(notes/assumptions: 27 DEDUCED) -/
def execLaneTestStart (p : PortIx) (r : RegionIx) (s : State) : Host.Outcome State Fault Refusal :=
  s.run fun c =>
    let res := Reg.LaneTest.RESULT r
    let k := c.rd (Reg.LaneTest.ROPE r)
    let g := 32 * r.val + k
    let t := c.laneTest r
    if c.has p .maint = false then c.refuseTo p res 3
    else if c.twoHandOk 3 = false ∨ t.running = true ∨ t.starting = true ∨ c.population g = 0 ∨ c.mode g ≠ 3
        ∨ (c.ropeCells g).all (fun a => decide ((c.posn a).state = 4 ∨ (c.posn a).state = 8)) = false then c.wr res 3
    else
      let f0 := (c.frame + 104) % 2 ^ 32
      let pat := c.rd (Reg.LaneTest.PATTERN r) + 24
      let c1 := c.setLaneTest r ⟨false, true, k, f0, 0, false, p⟩
      let c2 := [(0x3E, c.rd (Reg.LaneTest.USER_PATTERN_LO r)), (0x3F, c.rd (Reg.LaneTest.USER_PATTERN_HI r)), (0x36, pat),
        (0x46, pat), (0x3D, c.rd (Reg.LaneTest.DURATION_MS r)), (0x3C, f0)].foldl
          (fun c e => c.sendMgmt 3 (64 * g) e.1 e.2 3) c1
      c2.wr res 1

/-- A broadcast of the test came back (R81, R105): acknowledged when every cell of the rope has applied it. -/
def Chip.testAnswer (c : Chip) (m : MgmtReq) (result : Nat) : Chip :=
  let g := m.addr / 64
  let t := c.laneTest (g / 32)
  if t.starting = true ∧ t.rope = g % 32 then
    if c.population g ≤ result then c.setLaneTest (g / 32) { t with acked := t.acked + 1 } else c.sendMgmt 3 m.addr m.reg m.data 3
  else c

/-- LANE_TEST_ACK_TIMEOUT (R81): a cell has not acknowledged within 100 frames. -/
def execLaneTestAckTimeout (r : RegionIx) (s : State) : Host.Outcome State Fault Refusal :=
  s.run fun c =>
    let t := c.laneTest r
    if t.starting = true ∧ t.acked < 6 then (c.setLaneTest r LaneTestSt.idle).wr (Reg.LaneTest.RESULT r) 3 else c

/-- A lane of the rope begins the test (R80): the counts of the test before it are cleared. -/
def Chip.ridgeTest (c : Chip) (g e pat : Nat) : Chip :=
  ((((((c.set (Reg.RLane.TEST_ACTIVE g e)).clr (Reg.RLane.CHECKER_SYNC g e)).clr (Reg.RLane.TEST_ERR_COUNT g e)).clr
    (Reg.RLane.TEST_BITS g e)).wr (Reg.RLane.PATTERN g e) pat).set (Reg.RLane.GEN_EN g e)).set (Reg.RLane.CHK_EN g e)

/-- A port of a cell begins the test (R80). -/
def Chip.cellTest (c : Chip) (a b : Nat) : Chip :=
  (((c.set (Reg.CLane.TEST_ACTIVE a b)).clr (Reg.CLane.CHECKER_SYNC a b)).clr (Reg.CLane.TEST_ERR_COUNT a b)).clr
    (Reg.CLane.TEST_BITS a b)

/-- TEST_START_FRAME_REACHED (R81): every cell has acknowledged and the common frame has come. -/
def execTestStartFrameReached (r : RegionIx) (s : State) : Host.Outcome State Fault Refusal :=
  s.run fun c =>
    let t := c.laneTest r
    let g := c.testRope r
    if t.starting = true ∧ 6 ≤ t.acked ∧ c.frame = t.startFrame then
      let c1 := (c.setLaneTest r { t with starting := false, running := true }).wr (Reg.LaneTest.REMAIN_MS r)
        (c.rd (Reg.LaneTest.DURATION_MS r))
      let pat := c.rd (Reg.LaneTest.PATTERN r)
      let c2 := (c1.ridgeTest g 0 pat).ridgeTest g 1 pat
      (c.ropeCells g).foldl (fun c a =>
        if c.powered a && decide (c.rd (Reg.CLane.TEST_START_FRAME a) = t.startFrame) then (c.cellTest a 0).cellTest a 1 else c) c2
    else c

/-- The checked bits of `ns` of a test, in units of 2^16 bits, at 5.15625 Gbit/s. -/
def testBits (ns : Nat) : Nat := ns * 515625 / 100000 / 65536

/-- One receiver's result: the bits it has counted wrong, beside those already counted, saturating; 0xFFFF_FFFF where it has
lost, or has never gained, synchronisation. -/
def testCount (sync : Bool) (had more : Nat) : Nat := if sync then satNat 32 (had + more) else 0xFFFFFFFF

/-- The receiver of hop `h` towards end B (`up` false) or end A: its count, and the chip with it in its registers. -/
def Chip.readChecker (c : Chip) (g h : Nat) (up : Bool) (errs ns : Nat) : Nat × Chip :=
  let n := c.population g
  let ridgeEnd := if up then decide (h = 0) else decide (h = n)
  if ridgeEnd then
    let e := if up then 0 else 1
    let v := testCount (c.on (Reg.RLane.CHECKER_SYNC g e)) (c.rd (Reg.RLane.TEST_ERR_COUNT g e)) errs
    let c1 := (c.wr (Reg.RLane.TEST_ERR_COUNT g e) v).wr (Reg.RLane.TEST_BITS g e) (testBits ns)
    (v, (((c1.clr (Reg.RLane.TEST_ACTIVE g e)).clr (Reg.RLane.CHECKER_SYNC g e)).clr (Reg.RLane.GEN_EN g e)).clr
      (Reg.RLane.CHK_EN g e))
  else
    let a := 64 * g + (if up then h - 1 else h)
    let b := if up then 1 else 0
    let v := testCount (c.on (Reg.CLane.CHECKER_SYNC a b)) (c.rd (Reg.CLane.TEST_ERR_COUNT a b)) errs
    let c1 := (c.wr (Reg.CLane.TEST_ERR_COUNT a b) v).wr (Reg.CLane.TEST_BITS a b) (testBits ns)
    (v, (c1.clr (Reg.CLane.TEST_ACTIVE a b)).clr (Reg.CLane.CHECKER_SYNC a b))

/-- The test of region `r` ends (R81): the hop table is filled, and every cell is admitted anew.
(notes/assumptions: 27 DEDUCED) -/
def Chip.endTest (c : Chip) (r : Nat) (down up : List Nat) (ns : Nat) (result : Nat) : Chip :=
  let g := c.testRope r
  let n := c.population g
  let c1 := (List.range (n + 1)).foldl (fun c h =>
    let (v, c1) := c.readChecker g h false (down.getD h 0) ns
    let (w, c2) := c1.readChecker g h true (up.getD h 0) ns
    (c2.wr (Reg.Hop.DOWN_ERRORS r h) v).wr (Reg.Hop.UP_ERRORS r h) w) c
  let c2 := (c1.ropeCells g).foldl (fun c a => c.readmit a) c1
  ((c2.setLaneTest r LaneTestSt.idle).wr (Reg.LaneTest.RESULT r) result).clr (Reg.LaneTest.REMAIN_MS r)

/-- LANE_TEST_END (R81): DURATION_MS has passed. -/
def execLaneTestEnd (r : RegionIx) (down up : List Nat) (s : State) : Host.Outcome State Fault Refusal :=
  s.run fun c =>
    if (c.laneTest r).running then c.endTest r down up (c.rd (Reg.LaneTest.DURATION_MS r) * 1000000) 2 else c

/-- LANE_TEST_ABORT (R81): a host with MAINT rights; the test ends at the next frame. -/
def execLaneTestAbort (p : PortIx) (r : RegionIx) (s : State) : Host.Outcome State Fault Refusal :=
  s.run fun c =>
    let t := c.laneTest r
    if c.has p .maint = false then c.refuse p
    else if t.running || t.starting then c.setLaneTest r { t with aborting := true }
    else c

/-- The lane tests at a frame start (R81): one that is aborted ends; REMAIN_MS of a running one follows the frames. -/
def Chip.stepTests (c : Chip) : Chip :=
  (List.range 8).foldl (fun c r =>
    let t := c.laneTest r
    let ns := (c.frame + 2 ^ 32 - t.startFrame) % 2 ^ 32 * c.period
    if t.aborting then
      if t.running then c.endTest r [] [] ns 4 else (c.setLaneTest r LaneTestSt.idle).wr (Reg.LaneTest.RESULT r) 4
    else if t.running then c.wr (Reg.LaneTest.REMAIN_MS r) (c.rd (Reg.LaneTest.DURATION_MS r) - ns / 1000000)
    else c) c

/-- CHECKER_SYNC_GAINED (R80): after a loss the count holds 0xFFFF_FFFF until the test ends. -/
def execCheckerSyncGained (l : LaneRef) (s : State) : Host.Outcome State Fault Refusal :=
  s.run fun c =>
    match l with
    | .ridge g e => if c.on (Reg.RLane.TEST_ACTIVE g e) then c.set (Reg.RLane.CHECKER_SYNC g e) else c
    | .cell a b => if c.on (Reg.CLane.TEST_ACTIVE a b) then c.set (Reg.CLane.CHECKER_SYNC a b) else c

/-- CHECKER_SYNC_LOST (R80). -/
def execCheckerSyncLost (l : LaneRef) (s : State) : Host.Outcome State Fault Refusal :=
  s.run fun c =>
    match l with
    | .ridge g e =>
      if c.on (Reg.RLane.CHECKER_SYNC g e) then
        (c.clr (Reg.RLane.CHECKER_SYNC g e)).wr (Reg.RLane.TEST_ERR_COUNT g e) 0xFFFFFFFF
      else c
    | .cell a b =>
      if c.on (Reg.CLane.CHECKER_SYNC a b) then
        (c.clr (Reg.CLane.CHECKER_SYNC a b)).wr (Reg.CLane.TEST_ERR_COUNT a b) 0xFFFFFFFF
      else c

/-! ### Injection and loopback (R82, R83) -/

/-- `n` bits are inverted on the line out of a lane: the checker at its other end counts each once (R82); in LOOPBACK that is the
lane's own (R83). (notes/assumptions: 27 DEDUCED) -/
def Chip.countInverted (c : Chip) (l : LaneRef) (n : Nat) : Chip :=
  let ridge (c : Chip) (g e : Nat) : Chip :=
    if c.on (Reg.RLane.CHECKER_SYNC g e) then
      c.wr (Reg.RLane.TEST_ERR_COUNT g e) (satNat 32 (c.rd (Reg.RLane.TEST_ERR_COUNT g e) + n)) else c
  let cell (c : Chip) (a b : Nat) : Chip :=
    if c.on (Reg.CLane.CHECKER_SYNC a b) then
      c.wr (Reg.CLane.TEST_ERR_COUNT a b) (satNat 32 (c.rd (Reg.CLane.TEST_ERR_COUNT a b) + n)) else c
  match l with
  | .ridge g e =>
    if c.on (Reg.RLane.LOOPBACK g e) then ridge c g e
    else if e.val = 0 then cell c (64 * g) 0 else cell c (64 * g + c.population g - 1) 1
  | .cell a b =>
    let g := a.val / 64
    let k := a.val % 64
    if b.val = 0 then (if k = 0 then ridge c g 0 else cell c (64 * g + k - 1) 1)
    else if k + 1 = c.population g then ridge c g 1 else cell c (64 * g + k + 1) 0

/-- An injection of `n` bits (R82): on a Ridge lane with MAINT rights, its rope DOWN or live injection enabled by the card; at a
cell's port by the WC8400 alone. (notes/assumptions: 27 DEDUCED) -/
def Chip.inject (c : Chip) (p : Option PortIx) (l : LaneRef) (n : Nat) : Chip :=
  match l with
  | .ridge g e =>
    let may := match p with
      | some q => c.has q .maint
      | none => true
    if may = false then (match p with
      | some q => c.refuseTo q (Reg.RLane.WRITE_REFUSED g e) 1
      | none => c)
    else if c.mode g = 3 ∨ c.card.lanes.liveInject = true then
      (c.setRope g { c.rope g with injFrame := some c.frame }).countInverted l n
    else c.set (Reg.RLane.WRITE_REFUSED g e)
  | .cell a b =>
    if c.powered a && p.isNone then
      (c.setClane a b { c.clane a b with injected := (c.clane a b).injected + n }).countInverted l n
    else c

/-- The bits of a burst: BURST_LEN + 1 (R82). -/
def Chip.burst (c : Chip) : LaneRef → Nat
  | .ridge g e => c.rd (Reg.RLane.BURST_LEN g e) + 1
  | .cell a b => c.rd (Reg.CLane.BURST_LEN a b) + 1

/-- INJ_SINGLE (R82). -/
def execInjSingle (p : Option PortIx) (l : LaneRef) (s : State) : Host.Outcome State Fault Refusal := s.run fun c => c.inject p l 1

/-- INJ_BURST (R82). -/
def execInjBurst (p : Option PortIx) (l : LaneRef) (s : State) : Host.Outcome State Fault Refusal :=
  s.run fun c => c.inject p l (c.burst l)

/-- LOOPBACK_SET (R83). -/
def execLoopbackSet (p : PortIx) (g : RopeIx) (e : EndIx) (on : Bool) (s : State) : Host.Outcome State Fault Refusal :=
  s.run fun c =>
    if c.has p .maint = false then c.refuseTo p (Reg.RLane.WRITE_REFUSED g e) 1
    else if c.mode g = 3 then c.wrB (Reg.RLane.LOOPBACK g e) on
    else c.set (Reg.RLane.WRITE_REFUSED g e)

/-! ### Rope optical modules (R84 to R87) -/

/-- The card's entry for end `e` of rope `g`. -/
def Chip.cardEnd (c : Chip) (g e : Nat) : CardEnd := mapGet CardEnd.blank c.card.lanes.ends (2 * g + e)

/-- Does the card accept a module (R86)? -/
def CardEnd.accepts (k : CardEnd) (m : ModuleId) : Bool :=
  let v := m.vendor.map BitVec.toNat
  let q := m.partNo.map BitVec.toNat
  k.accept.any (fun x => decide (x = (v, q))) && decide (k.waveMin ≤ m.wavelength) &&
    decide (m.wavelength ≤ k.waveMax)

/-- Word `j` of the bytes of a module field. -/
def modWord (l : List Byte) (j : Nat) : Nat := leAt (l.map BitVec.toNat) (4 * j) 4

/-- A module holds its lane down with a cause: the fault, and the lane's fall where it is UP (R86). -/
def Chip.holdLane (c : Chip) (g e cause : Nat) : Chip :=
  let c1 := c.setRlane g e { c.rlane g e with moduleHeld := true }
  if c.on (Reg.RLane.LANE_UP g e) then c1.ridgeDown g e cause else c1.raiseRope g 0x40 (laneDetail 0 true e cause)

/-- MODULE_ID_READ (R84, R86, R87); reads on a bus that is suspended do not take place (R85). -/
def execModuleIdRead (g : RopeIx) (e : EndIx) (id : Option ModuleId) (s : State) : Host.Outcome State Fault Refusal :=
  s.run fun c =>
    if c.on (Reg.Module.BUS_FAULT g e) then c else
    match id with
    | none =>
      let c1 := ((c.clr (Reg.Module.PRESENT g e)).clr (Reg.Module.ID_MATCH g e)).clr (Reg.Module.DIAG_VALID g e)
      c1.holdLane g e 4
    | some m =>
      let serial := (List.range 4).map (fun j => modWord m.serial j)
      let old := (List.range 4).map (fun j => c.rd (Reg.Module.SERIAL g e j))
      let changed := (c.rlane g e).moduleRead && decide (serial ≠ old)
      let c1 := (List.range 4).foldl (fun c j => ((c.wr (Reg.Module.VENDOR_NAME g e j) (modWord m.vendor j)).wr
        (Reg.Module.PART_NUMBER g e j) (modWord m.partNo j)).wr (Reg.Module.SERIAL g e j) (modWord m.serial j)) c
      let ok := (c.cardEnd g e).accepts m
      let c2 := (((c1.wr (Reg.Module.WAVELENGTH g e) m.wavelength).set (Reg.Module.PRESENT g e)).wrB (Reg.Module.ID_MATCH g e) ok).wrB
        (Reg.Module.DIAG_VALID g e) (decide (bits m.monitor 5 2 = 3))
      let c3 := if changed then (c2.set (Reg.RLane.MODULE_CHANGED g e)).raiseRope g 0x40 (laneDetail 0 true e 6) else c2
      let c4 := c3.setRlane g e { c3.rlane g e with moduleRead := true, moduleHeld := false }
      let refused := !ok && (c.cardEnd g e).refuse
      let c5 := (c4.wrB (Reg.Module.REFUSED g e) refused).wrB (Reg.RLane.REFUSED g e) refused
      if ok then c5
      else
        let c6 := c5.set (Reg.RLane.MODULE_MISMATCH g e)
        if refused then c6.holdLane g e 3 else c6.raiseRope g 0x40 (laneDetail 0 true e 3)

/-- MODULE_DIAG_READ (R84, R87): diagnostics of an internally calibrated module; receive power below RX_MIN in two reads. -/
def execModuleDiagRead (g : RopeIx) (e : EndIx) (d : ModuleDiag) (s : State) : Host.Outcome State Fault Refusal :=
  s.run fun c =>
    if c.on (Reg.Module.PRESENT g e) && c.on (Reg.Module.DIAG_VALID g e) && !c.on (Reg.Module.BUS_FAULT g e) then
      let low := decide (d.rxPower < (c.cardEnd g e).rxMin)
      let n := if low then (c.rlane g e).rxLowReads + 1 else 0
      let c1 := ((((c.wr (Reg.Module.TEMPERATURE g e) d.temp).wr (Reg.Module.VCC g e) d.vcc).wr (Reg.Module.TX_BIAS g e) d.bias).wr
        (Reg.Module.TX_POWER g e) d.txPower).wr (Reg.Module.RX_POWER g e) d.rxPower
      let c2 := (c1.setRlane g e { c1.rlane g e with rxLowReads := n }).wrB (Reg.Module.RX_LOW g e) (decide (2 ≤ n))
      if n = 2 then (c2.set (Reg.RLane.RX_POWER_LOW g e)).raiseRope g 0x40 (laneDetail 0 true e 5) else c2
    else c

/-- The rope ends whose modules hang on I²C bus `bus` of Ridge `d` (R85, R13): bus 2 × E + (kk >> 5). -/
def busEnds (d bus : Nat) : List (Nat × Nat) :=
  let e := bus / 2
  let home := if e = 0 then d else (if d % 2 = 0 then d + 1 else d - 1)
  (List.range 32).map (fun k => (64 * home + 32 * (bus % 2) + k, e))

/-- MODULE_BUS_HELD (R85): nine clocks and a stop; a bus that stays held is suspended, with a lane fault for every lane on it. -/
def execModuleBusHeld (d : RidgeIx) (bus : Fin 4) (released : Bool) (s : State) : Host.Outcome State Fault Refusal :=
  s.run fun c =>
    if released then c
    else (busEnds d bus).foldl (fun c x =>
      if 0 < c.population x.1 then (c.set (Reg.Module.BUS_FAULT x.1 x.2)).raiseRope x.1 0x40 (laneDetail 0 true x.2 7) else c) c

end Sys2Proof.Machine
end

