-- ==== Sys2Proof/Machine/Admission.lean ====
section
/-! DEFINITION. Admission (R304 to R312): its steps, how returned management entries and reports move it on, retries and lost
cells; and the commands of the identity bus whose end the WC8400 acts on. -/

namespace Sys2Proof.Machine

/-! ### Delays (R51, R307) -/

/-- Does an end of its rope reach the cell at `a` (R115)? In SPLIT end A reaches the positions below the break, end B the others;
in TRAVERSE end B reaches all. -/
def Chip.endReaches (c : Chip) (a e : Nat) : Bool :=
  let g := a / 64
  let b := c.rd (Reg.Rope.BREAK_POS g)
  match c.mode g with
  | 0 => true
  | 1 => if e = 0 then decide (a % 64 < b) else decide (max b (c.rope g).breakHi ≤ a % 64)
  | 2 => decide (e = 1 ∧ (c.rope g).breakHi ≤ a % 64)
  | _ => false

/-- The delay from end `e` to the cell at `a` (R51), 2^-8 ns, for echoes that count `n` and sum to `sum` 2^-8 ns. -/
def Chip.pathDelay (c : Chip) (a e n : Nat) (sum : Int) : Nat :=
  let g := a / 64
  let k := a % 64
  let on := if e = 0 then List.range k else (List.range (c.population g)).filter (fun i => decide (k < i))
  let d (i : Nat) : Int :=
    let x := (c.rd (Reg.CTime.RES_AB (64 * g + i)) : Int) - c.rd (Reg.CTime.RES_BA (64 * g + i))
    if e = 0 then x else -x
  let rt := divRound sum n - c.rd (Reg.CTime.TURN a)
  (divRound (rt + (on.map d).sum) 2).toNat

/-- Has an end that reaches the cell given its 8 echoes (R307)? An end that does not reach it needs none. -/
def Chip.echoesIn (c : Chip) (a : Nat) : Bool :=
  let p := c.posn a
  (!c.endReaches a 0 || decide (8 ≤ p.echoA.1)) && (!c.endReaches a 1 || decide (8 ≤ p.echoB.1))

/-! ### Steps (R305 to R307) -/

/-- Management writes and reads of the present step: operation, address, data. -/
def Chip.admSend (c : Chip) (a : Nat) (l : List (Nat × Nat × Nat)) : Chip :=
  let c1 := c.setAt a { c.posn a with waiting := (c.posn a).waiting + l.length }
  l.foldl (fun c e => c.sendMgmt e.1 a e.2.1 e.2.2 1) c1

/-- The position is at place `sub` of its step. -/
def Chip.admSub (c : Chip) (a sub : Nat) : Chip := c.setAt a { c.posn a with sub := sub, subAt := c.runNs }

/-- The entries of an attempt that have not gone out are dropped. -/
def Chip.dropEntries (c : Chip) (a : Nat) : Chip :=
  let x := c.rope (a / 64)
  let keep (m : MgmtReq) : Bool := !(decide (m.addr = a) && decide (m.why = 1))
  c.setRope (a / 64) { x with mgmtOut := x.mgmtOut.filter keep, mgmtSent := x.mgmtSent.filter keep }

/-- An attempt fails (R307, R309): TO_BIVOUAC unless the cell is in LISTEN; then backoff, or the position is abandoned.
(notes/assumptions: 28 DEDUCED) -/
def Chip.admFail (c : Chip) (a reason : Nat) : Chip :=
  let k := c.card.admission
  let p := c.posn a
  let n := p.fails + 1
  let c1 := (c.dropEntries a).setAt a { p with fails := n, reason := reason, waiting := 0, sub := 0 }
  let c2 := (if p.state = 2 ∧ p.admState < 4 then c1 else c1.orderBivouac a).inc (Reg.RegAdm.ADMIT_FAILURES (regionOf a))
  if reason = 1 ∨ reason = 2 ∨ reason = 3 ∨ reason = 7 ∨ k.retryMax ≤ n then
    (((c2.setAt a { c2.posn a with abandonedUid := p.uid }).setAdm a 8).raise 1 a 0x19 reason).set Reg.Recov.ADMIT_ABANDONED_SEEN
  else c2.setAdm a 7

/-- The backoff before the next attempt, ns (R309). -/
def Chip.backoff (c : Chip) (a : Nat) : Nat :=
  let k := c.card.admission
  min k.backoffMax (k.backoffMin * 2 ^ ((c.posn a).fails - 1)) * 1000000

/-- The next epoch of a position (R305). -/
def nextEpoch (recorded cell : Nat) : Nat :=
  let up (e : Nat) : Nat := if (e + 1) % 65536 = 0 then 1 else (e + 1) % 65536
  let e := up recorded
  if e = cell then up e else e

/-- The EPOCH write of R305 and R306 goes out. -/
def Chip.sendEpochWrite (c : Chip) (a : Nat) : Chip :=
  let p := c.posn a
  (c.setAt a { p with epochWrites := p.epochWrites + 1, epochFrame := c.frame }).sendEpoch 1 a 0x05 (p.newEpoch + a * 65536) 1
    p.newEpoch

/-- Step 1 ends (R307): the identity that was read is checked, and the EPOCH write goes out. -/
def Chip.identified (c : Chip) (a : Nat) : Chip :=
  let p := c.posn a
  let r (k : Nat) : Nat := mapGet 0 p.reads k
  let k := c.card.admission
  let uid := r 1 + r 2 * 2 ^ 32
  let c1 := c.setAt a { p with uid := uid, sensor := decide (bits (r 0) 16 2 = 1) }
  let step := (bits (r 0) 24 4, bits (r 0) 20 4)
  if k.steppings ≠ [] ∧ step ∉ k.steppings then c1.admFail a 1
  else if bits (r 0) 16 2 ≠ bit (c.isSensor a) then c1.admFail a 2
  else if c.isSensor a = false ∧ bits (r 3) 3 1 = 0 then c1.admFail a 3
  else if c.pos.any (fun e => decide (e.1 ≠ a) && decide (e.2.admState = 6) && decide (e.2.uid = uid)) then c1.admFail a 4
  else
    let cell := r 5 % 65536
    let recd := if p.epochRec = 0 then cell else p.epochRec
    let c2 := c1.setAt a { c1.posn a with epochRec := recd, newEpoch := nextEpoch recd cell, epochWrites := 0 }
    (c2.setAdm a 3).sendEpochWrite a

/-- READ_IDS, or for a WN140-S, which has no identity master (R226), ENROL at once. -/
def Chip.admRead (c : Chip) (a : Nat) : Chip :=
  if c.isSensor a then ((c.setAdm a 5).admSub a 6).admSend a [(1, 0x08, 1)]
  else (c.admSub a 4).admSend a [(1, 0xD1, 1)]

/-- The delays go out once the echoes are in (R307). -/
def Chip.admDelays (c : Chip) (a : Nat) : Chip :=
  let p := c.posn a
  if p.admState = 4 ∧ p.sub = 1 ∧ c.echoesIn a = true then
    let da := if c.endReaches a 0 then c.pathDelay a 0 p.echoA.1 p.echoA.2 else 0
    let db := if c.endReaches a 1 then c.pathDelay a 1 p.echoB.1 p.echoB.2 else 0
    ((c.setAt a { p with delayA := da, delayB := db }).admSub a 2).admSend a [(1, 0x14, da), (1, 0x15, db)]
  else c

/-- The cell has taken its epoch (R306): step 3 begins with ROUTE_TAG and the card's writes for the position. DEDUCED: this is word
of the cell, so the frames without a report (R311) are counted from here; a cell served from end B gives none before ADMIT.
(notes/assumptions: 28 DEDUCED) -/
def Chip.epochTaken (c : Chip) (a : Nat) : Chip :=
  let p := c.posn a
  let c1 := ((c.setAt a { p with epochRec := p.newEpoch, waiting := 0, quiet := 0 }).setAdm a 4).admSub a 0
  c1.admSend a ((1, 0x06, c.rd Reg.Card.ROUTE_TAG) :: (mapGet [] c.card.admission.cells a).map (fun e => (1, e.1, e.2)))

/-- Step 4 (R257, R307): the stage checks; then the coefficients and ENROL. -/
def Chip.admStage (c : Chip) (a : Nat) : Chip :=
  let l := c.stageFails a (c.pack a).stageRec (c.on (Reg.Idb.STAGE_READ_OK a))
  let c1 := c.noteStage a l
  if c1.stageRefuses l then c1.admFail a 7
  else (c1.admSub a 6).admSend a ((c1.coefWrites a).map (fun e => (1, e.1, e.2)) ++ [(1, 0x08, 1)])

/-- An exchange that waited for ENROL goes on (R269). -/
def Chip.resumeExchange (c : Chip) (a : Nat) : Chip := if (c.xch a).state = 2 then c.orderPack a 9 else c

/-- The cell is enrolled (R307 to R309): it has entered no order, acknowledged nothing, and its pack is checked. -/
def Chip.admEnrolled (c : Chip) (a : Nat) : Chip :=
  let p := c.posn a
  let c1 := ((c.setAt a { p with fails := 0, bulkAck := none, commitReq := false, sub := 0 }).setAdm a 6).inc
    (Reg.RegAdm.ADMISSIONS (regionOf a))
  let c2 := (c1.setRcell a { RankCell.idle with vHat := (c1.rcell a).vHat }).resumeExchange a
  if (c2.pack a).debounced ∧ (c2.pack a).job = none ∧ c2.packState a = 2 then c2.checkPack a else c2

/-- Every entry of the present place has been answered: the next one (R307). -/
def Chip.admNext (c : Chip) (a : Nat) : Chip :=
  let p := c.posn a
  let r (k : Nat) : Nat := mapGet 0 p.reads k
  if p.admState = 2 then c.identified a
  else if p.admState = 4 then
    if p.sub = 0 then (c.admSub a 1).admDelays a
    else if p.sub = 2 then
      if c.card.admission.closeCells = true ∧ bits (r 3) 0 1 = 0 then
        (c.admSub a 3).admSend a [(1, 0xF7, p.uid % 2 ^ 32), (1, 0xF8, 1), (2, 0xF8, 0)]
      else c.admRead a
    else if p.sub = 3 then
      let res := bits (r 0xF8) 1 3
      if res = 1 ∨ res = 4 then c.admRead a
      else if p.subAt + 10000000 ≤ c.runNs then c.admFail a 6
      else c.admSend a [(2, 0xF8, 0)]
    else if p.sub = 4 then
      let c1 := (c.setAdm a 5).admSub a 5
      if (c1.pack a).job = none then c1.admStage a else c1
    else c
  else if p.admState = 5 ∧ p.sub = 6 then c.admSub a 7
  else c

/-- An entry of admission has come back (R306, R307), or has failed to after its repeats (RESULT 0).
(notes/assumptions: 28 DEDUCED) -/
def Chip.admReturn (c : Chip) (m : MgmtReq) (result data : Nat) : Chip :=
  let a := m.addr
  let p := c.posn a
  if p.admState = 3 then (if m.reg = 0x05 ∧ result = 1 then c.epochTaken a else c)
  else if p.admState ≠ 2 ∧ p.admState ≠ 4 ∧ p.admState ≠ 5 then c
  else if result ≠ 1 then
    if p.admState = 4 then c.admFail a 6
    else if m.reg = 0x08 ∧ result ≠ 0 then c.admFail a 10
    else c.admFail a 8
  else
    let reads := if m.op = 2 then insertKey m.reg data p.reads else p.reads
    let c1 := c.setAt a { p with waiting := p.waiting - 1, reads := reads }
    if p.waiting ≤ 1 then c1.admNext a else c1

/-- A report of the cell at `a` has passed its CRC: what its STATE and EPOCH_ECHO say to admission (R306, R307, R311). -/
def Chip.admReport (c : Chip) (a st echo : Nat) : Chip :=
  let p := c.posn a
  if p.admState = 3 ∧ st = 3 ∧ echo = p.newEpoch then c.epochTaken a
  else if (p.admState = 4 ∨ p.admState = 5) ∧ st = 7 then c.admFail a 9
  else if p.admState = 5 ∧ p.sub = 7 then
    if st = 4 ∨ st = 8 then c.admEnrolled a else c.admFail a 10
  else if (p.admState = 6 ∨ p.admState = 9) ∧ (st = 2 ∨ st = 7) then c.setAdm a 1
  else if p.admState = 9 ∧ 3 ≤ st ∧ st ≤ 6 then c.orderBivouac a
  else c

/-! ### Commands of admission -/

/-- Is a cell of rope `g` in steps 1 to 5? -/
def Chip.admitting (c : Chip) (g : Nat) : Bool :=
  (c.ropeCells g).any (fun a => decide (2 ≤ (c.posn a).admState ∧ (c.posn a).admState ≤ 5))

/-- May admission of the cell at `a` start: found in LISTEN or BIVOUAC, and awaited (R304)? -/
def Chip.awaits (c : Chip) (a : Nat) : Bool :=
  let p := c.posn a
  decide (p.admState = 1) && decide (p.state = 2 ∨ p.state = 7)

/-- ADMISSION_START (R304): one cell of a rope at a time, the lowest position first. -/
def execAdmissionStart (a : CellAddr) (s : State) : Host.Outcome State Fault Refusal :=
  s.run fun c =>
    let g := a.val / 64
    if c.population g ≤ a.val % 64 ∨ c.mode g = 3 ∨ c.admitting g = true ∨ c.awaits a = false
        ∨ (c.ropeCells g).any (fun b => decide (b < a.val) && c.awaits b) = true then c
    else
      let p := c.posn a
      let c1 := (c.setAt a { p with
        waiting := 0, reads := [], echoA := (0, 0), echoB := (0, 0), sub := 0, epochWrites := 0 }).setAdm a 2
      c1.admSend a ([0x00, 0x01, 0x02, 0x03, 0x05, 0x07, 0x0B].map (fun r => (2, r, 0)))

/-- Is the position served from end B (R115, R304)? (notes/assumptions: 28 DEDUCED) -/
def Chip.servedFromB (c : Chip) (a : Nat) : Bool :=
  let g := a / 64
  decide (c.mode g = 2) || (decide (c.mode g = 1) && decide (c.rd (Reg.Rope.BREAK_POS g) ≤ a % 64))

/-- ADMIT_POLL_READ (R304): CELL_STATE of a position served from end B that gives no report. -/
def execAdmitPollRead (a : CellAddr) (s : State) : Host.Outcome State Fault Refusal :=
  s.run fun c =>
    let g := a.val / 64
    let p := c.posn a
    if a.val % 64 < c.population g ∧ c.servedFromB a = true ∧ p.quiet ≠ 0 ∧ (p.admState = 1 ∨ p.admState = 9) then
      c.sendMgmt 2 a 0x07 0 10
    else c

/-- EPOCH_CONFIRM_TIMEOUT (R306): two frames without a confirmation: the write is repeated, with a read of EPOCH under the new
epoch; after three writes the attempt fails. -/
def execEpochConfirmTimeout (a : CellAddr) (s : State) : Host.Outcome State Fault Refusal :=
  s.run fun c =>
    let p := c.posn a
    if p.admState = 3 ∧ 2 ≤ signedDiff 32 c.frame p.epochFrame then
      if 3 ≤ p.epochWrites then c.admFail a 5
      else (c.sendEpoch 2 a 0x05 0 1 p.newEpoch).sendEpochWrite a
    else c

/-- ADMIT_BACKOFF_END (R309). -/
def execAdmitBackoffEnd (a : CellAddr) (dt : Nat) (s : State) : Host.Outcome State Fault Refusal :=
  s.run fun c0 =>
    let c := c0.advance dt
    let p := c.posn a
    if p.admState = 7 ∧ p.since + c.backoff a ≤ c.runNs then c.setAdm a 1 else c

/-- ABANDONED_UID_CHECK (R309): the DIE_UID of an abandoned position is read. -/
def execAbandonedUidCheck (a : CellAddr) (s : State) : Host.Outcome State Fault Refusal :=
  s.run fun c =>
    if (c.posn a).admState = 8 then (c.sendMgmt 2 a 0x01 0 12).sendMgmt 2 a 0x02 0 12 else c

/-- READMIT_GO (R309, R324). -/
def execReadmitGo (p : PortIx) (s : State) : Host.Outcome State Fault Refusal :=
  s.run fun c =>
    let res := Reg.Adm.ADM_RESULT p
    let a := c.rd (Reg.Adm.ADM_CELL p)
    let g := a / 64
    let x := c.posn a
    if c.has p .maint = false then c.refuseTo p res 3
    else if c.population g ≤ a % 64 ∨ c.mode g = 3 then c.wr res 2
    else if 2 ≤ x.admState ∧ x.admState ≤ 5 then c.wr res 5
    else if x.admState = 8 then ((c.setAt a { x with fails := 0 }).setAdm a 1).wr res 1
    else if x.admState = 6 then
      if c.blocked (regionOf a) = false ∧ c.isInsertable a = true ∧ c.rdI (Reg.RegionRed.REDUNDANCY (regionOf a)) ≤ 0 then c.wr res 4
      else (c.readmit a).wr res 1
    else c.wr res 2

/-- CELL_LOST (R311): no report with a good CRC for 80 µs. (notes/assumptions: 28 DEDUCED) -/
def execCellLost (a : CellAddr) (s : State) : Host.Outcome State Fault Refusal :=
  s.run fun c =>
    let p := c.posn a
    let limit := if c.on Reg.Time.FRAME_20US then 4 else 8
    if p.quiet < limit then c
    else if p.admState = 4 ∨ p.admState = 5 ∨ (p.admState = 3 ∧ c.servedFromB a = false) then c.admFail a 9
    else if p.admState = 6 then
      (((c.setAt a { p with state := 0 }).orderBivouac a).setAdm a 9).raise 1 a 0x1A p.quiet |>.set Reg.Recov.CELL_LOST_SEEN
    else c

/-! ### The identity bus (R253) -/

/-- A read job is over: the WC8400 checks what was read (R257), in admission the stage record first. -/
def Chip.recordsIn (c : Chip) (a : Nat) : Chip :=
  let p := c.posn a
  let c1 := if p.admState = 5 ∧ p.sub = 5 then c.admStage a
    else if p.admState = 6 ∧ (c.pack a).debounced = true ∧ c.packState a = 2 then c.checkPack a else c
  c1.readWaitingPack a

/-- ID_RECORD_READ_DONE (R253): the bytes of one record; a bad static CRC is read once more. -/
def execIdRecordReadDone (a : CellAddr) (bytes : List Byte) (s : State) : Host.Outcome State Fault Refusal :=
  s.run fun c =>
    match (c.pack a).job with
    | some (.read stage both tries again) =>
      let b := bytes.map BitVec.toNat
      let ok := crcOk b 0 (if stage then 64 else 128)
      if !ok && !again then c.setPack a { c.pack a with job := some (.read stage both tries true) }
      else
        let (ended, c1) := c.recordRead a stage both b ok
        if ended then c1.recordsIn a else c1
    | _ => c

/-- ID_NACK_RETRY (R253): 10 ms after an unacknowledged read; after three retries the memory counts as absent. -/
def execIdNackRetry (a : CellAddr) (s : State) : Host.Outcome State Fault Refusal :=
  s.run fun c =>
    let (ended, c1) := c.nackRetry a
    if ended then c1.recordsIn a else c1

/-! ### Returned management entries -/

/-- A fetch of port `p` has read one word (R285): the head, then the row, whose result ends it. -/
def Chip.fetched (c : Chip) (p reg result data : Nat) : Chip :=
  match findKey p c.fetches with
  | none => c
  | some f =>
    let res := Reg.Ledg.LEDGER_RESULT p
    let words := insertKey reg data f.words
    let c1 := { c with fetches := insertKey p { f with words := words } c.fetches }
    let finish (c : Chip) (v : Nat) : Chip := { c with fetches := eraseKey p c.fetches }.wr res v
    if result ≠ 1 then finish c1 7
    else if reg = 0xE4 then c1.askRow p f.cell data
    else if reg = 0xEF then
      let w (k : Nat) : Nat := mapGet 0 words k
      let r := bits (w 0xE7) 1 3
      if r = 1 then
        let c2 := (List.range 8).foldl (fun c j => c.wr (Reg.Ledg.LEDGER_ROW p j) (w (0xE8 + j))) c1
        let lo := w 0xED
        let full := (c.xch f.cell).uids.find? (fun u => decide (u % 2 ^ 32 = lo))
        finish (((c2.wr (Reg.Ledg.LEDGER_UID_LO p) lo).wr (Reg.Ledg.LEDGER_UID_HI p) ((full.getD 0) / 2 ^ 32)).wrB
          (Reg.Ledg.UID_PARTIAL p) full.isNone) 2
      else finish c1 (if r = 3 then 4 else 3)
    else c1

/-- What an entry that came back, or that failed after its repeats, means to whoever sent it. (notes/assumptions: 35 DEDUCED) -/
def Chip.mgmtReturn (c : Chip) (m : MgmtReq) (result data : Nat) : Chip :=
  let a := m.addr
  let p := c.posn a
  if m.why = 1 then c.admReturn m result data
  else if m.why = 3 then c.testAnswer m result
  else if m.why = 4 then
    -- an order that the cell refuses, or that does not reach it, ends the calibration (R243, R256, R269)
    match c.calAt a with
    | some j => if result = 1 then c else c.endCal j (if !j.storing then 4 else if m.reg = 0xD1 then 5 else 7)
    | none => c
  else if m.why = 8 then
    -- a PORT_CLOSE that was refused is asked for again; a refused SUMMARY_WRITE ends DETACHING with WRITE_FAILED (R287); DETACH
    -- done brings LEDGER_COMMIT
    if m.reg = 0xD1 ∧ m.data = 8 ∧ result ≠ 1 then c.putXch a { c.xch a with closing := true }
    else if m.reg = 0xD1 ∧ m.data = 32 ∧ result = 2 ∧ (c.xch a).state = 2 then c.putXch a { c.xch a with state := 3 }
    else if m.reg = 0xD1 ∧ m.data = 512 ∧ result = 1 ∧ (c.xch a).state = 2 then c.setAt a { p with commitReq := true }
    else c
  else if m.why = 10 then (if result = 1 then c.setAt a { p with state := data % 16 } else c)
  else if m.why = 12 then
    if result = 1 ∧ p.admState = 8 then
      let c1 := c.setAt a { p with reads := insertKey m.reg data p.reads }
      let r (k : Nat) : Nat := mapGet 0 (c1.posn a).reads k
      if m.reg = 0x02 ∧ r 1 + r 2 * 2 ^ 32 ≠ p.abandonedUid then (c1.setAt a { c1.posn a with fails := 0 }).setAdm a 1 else c1
    else c
  else if 80 ≤ m.why ∧ m.why < 84 then (if m.op = 2 then c.fetched (m.why - 80) m.reg result data else c)
  else c

end Sys2Proof.Machine
end

