-- ==== Sys2Proof/Machine/Cell.lean ====
section
/-! DEFINITION. The WN140's power, states, fences, gates and local protection (chapter 09), and its path delays (R52). -/

namespace Sys2Proof.Machine

/-! ### Power (R211, R225) -/

/-- The registers of the cell at `a` leave, but for its fence record, which stands in the ledger store (R224, R225). -/
def Chip.dropCellRegs (c : Chip) (a : Nat) : Chip :=
  let lo := (8 + a) * 33554432
  let keep := lo + 0x0B * 32
  { c with regs := c.regs.filter (fun e => decide (e.1 < lo ∨ lo + 33554432 ≤ e.1 ∨ (keep ≤ e.1 ∧ e.1 < keep + 32))) }

/-- What a cell holds without supply is its ledger store and its fence record; the rest is gone (R225). Whether BYP_FIRE has
been asserted for the fence stands with the record. -/
def Chip.cellOff (c : Chip) (a : Nat) : Chip :=
  let fired := (c.gate a).fired && c.on (Reg.CId.FENCE_RECORD a)
  let l := c.ledger a
  let c1 := ((c.setLedger a { l with last := none, commit := none, merged := [], restartDue := false, summaryDue := false }).setClane
    a 0 CLaneSt.idle).setClane a 1 CLaneSt.idle
  let c2 := (((c1.setCt a CTimeSt.idle).setCmd a CCmdSt.idle).setGate a { GateSt.idle with fired := fired }).setMeas a MeasSt.idle
  let c3 := [0, 1, 2, 3].foldl (fun c k => c.setCorr a k CorrSt.idle) c2
  let c4 := (((c3.setPack a PackSt.idle).setCan a CanSt.idle).setBc a BcSt.idle).setCapture a CaptureSt.idle
  c4.dropCellRegs a

/-- CELL_BROWN_OUT (R211, R225, R227): OFF, with every output low. A fence record notes that the cell has been OFF. -/
def execCellBrownOut (a : CellAddr) (s : State) : Host.Outcome State Fault Refusal :=
  s.run fun c =>
    let c1 := c.cellOff a
    let c2 := c1.wr (Reg.CId.CELL_STATE a) 0
    if c2.on (Reg.CId.FENCE_RECORD a) then c2.set (Reg.CId.OFF_SINCE_FENCE a) else c2

/-- OFF to WAKE (R211): a part powered for the first time brings its fuses; the head of the ledger is recovered (R279), local protection is armed with its reset values. -/
def Chip.cellWake (c : Chip) (a : Nat) (fused : CellFuses) (fuseBad headOkA headOkB : Bool) : Chip :=
  let c1 := c.cellOff a
  let old := c1.part a
  let p : CellPart := ⟨true, if old.fitted then old.fused else fused, fuseBad⟩
  let c2 := { c1 with parts := mapSet CellPart.blank c1.parts a p }
  let c3 := (c2.setGate a { c2.gate a with powered := true }).wr (Reg.CId.CELL_STATE a) 1
  let c4 := if c3.cellIsS a then c3 else c3.recoverHead a headOkA headOkB
  c4.retarget a true

/-- CELL_POWER_ON_RESET (R211, R438): a part whose TEST_MODE inputs are not 0 before its field fuse is blown enters a factory
test mode; any other wakes from OFF. (notes/assumptions: 7 DESIGN CHOICE) -/
def execCellPowerOnReset (a : CellAddr) (testMode : Nat) (fused : CellFuses) (fuseBad headOkA headOkB : Bool)
    (s : State) :
    Host.Outcome State Fault Refusal :=
  if testMode ≠ 0 ∧ mapGet false s.fuses.cellsClosed a = false then .fault .factoryTestMode
  else s.run fun c => if (c.gate a).powered then c else c.cellWake a fused fuseBad headOkA headOkB

/-! ### Orders of the management slot that change the state (R211, R224, R231, R306) -/

/-- EPOCH (R231, R306): RESULT and the chip. -/
def Chip.writeEpoch (c : Chip) (a entryEpoch data : Nat) : Nat × Nat × Chip :=
  let e := data % 65536
  let st := c.cellState a
  if (st = 2 ∨ st = 7) ∧ entryEpoch = e ∧ e ≠ c.rd (Reg.CId.EPOCH a) then
    (1, data, ((c.wr (Reg.CId.EPOCH a) e).wr (Reg.CId.CELL_ADDR a) (data / 65536)).enterState a 3 2)
  else (2, data, c)

/-- EPOCH_WRITE (R231, R306). -/
def execEpochWrite (a : CellAddr) (entryEpoch : Fin 65536) (data : Word) (s : State) : Host.Outcome State Fault Refusal :=
  s.run fun c => c.answer a (c.writeEpoch a entryEpoch data.toNat)

/-- ENROL (R211): from ADMIT to READY, or to FENCED where a fence record is held. -/
def Chip.enrol (c : Chip) (a : Nat) : Nat × Nat × Chip :=
  if c.cellState a = 3 then (1, 1, c.enterState a (if c.on (Reg.CId.FENCE_RECORD a) then 8 else 4) 3) else (2, 1, c)

/-- ENROL (R211). -/
def execEnrol (a : CellAddr) (s : State) : Host.Outcome State Fault Refusal := s.run fun c => c.answer a (c.enrol a)

/-- FENCE_REQ (R211, R224, R230). -/
def Chip.fenceReq (c : Chip) (a : Nat) : Nat × Nat × Chip :=
  if 3 ≤ c.cellState a ∧ c.cellState a ≤ 7 then (1, 2, c.softFence a) else (2, 2, c)

/-- FENCE_REQ (R211, R224). -/
def execFenceReq (a : CellAddr) (s : State) : Host.Outcome State Fault Refusal := s.run fun c => c.answer a (c.fenceReq a)

/-- UNFENCE_REQ (R224): a soft fence, or a hard one since which the cell has been OFF; the record is cleared and the cell goes
to BIVOUAC. -/
def Chip.unfenceReq (c : Chip) (a : Nat) : Nat × Nat × Chip :=
  let hard := c.on (Reg.CId.FENCE_HARD a)
  if c.cellState a = 8 ∧ (hard = false ∨ c.on (Reg.CId.OFF_SINCE_FENCE a) = true) then
    let c1 := (((c.clr (Reg.CId.FENCE_RECORD a)).clr (Reg.CId.FENCE_HARD a)).clr (Reg.CId.OFF_SINCE_FENCE a)).clr
      (Reg.CId.FENCE_KIND a)
    let c2 := (c1.clr (Reg.Prot.BYP_FIRED a)).clr (Reg.Prot.BYP_CONFIRMED a)
    let c3 := (if hard then c2.clr (Reg.Prot.LOCAL_HOLD a) else c2).setGate a { c2.gate a with fired := false }
    (1, 4, c3.enterState a 7 13)
  else (2, 4, c)

/-- UNFENCE_REQ (R224). -/
def execUnfenceReq (a : CellAddr) (s : State) : Host.Outcome State Fault Refusal := s.run fun c => c.answer a (c.unfenceReq a)

/-- TO_BIVOUAC (R211, R227, R230). -/
def Chip.bivouacReq (c : Chip) (a : Nat) : Nat × Nat × Chip :=
  if 3 ≤ c.cellState a ∧ c.cellState a ≤ 6 then (1, 8, c.enterState a 7 9) else (2, 8, c)

/-- TO_BIVOUAC (R211). -/
def execToBivouac (a : CellAddr) (s : State) : Host.Outcome State Fault Refusal := s.run fun c => c.answer a (c.bivouacReq a)

/-- ADMIT_TIMEOUT (R211): 100 ms in ADMIT without a management entry. -/
def execAdmitTimeout (a : CellAddr) (dt : Nat) (s : State) : Host.Outcome State Fault Refusal :=
  s.run fun c0 =>
    let c := c0.cellAdvance a dt
    if c.cellState a = 3 ∧ (c.cmd a).lastEntry + 25600000000 ≤ (c.ct a).time then c.enterState a 7 10 else c

/-- DELAY_A or DELAY_B is written (R52): applied at a frame boundary; in ADMIT the time is then set directly (R50). -/
def Chip.writeDelay (c : Chip) (a e v : Nat) : Nat × Nat × Chip :=
  let st := c.cellState a
  if 3 ≤ st ∧ st ≠ 7 then
    let t := c.ct a
    let t1 : CTimeSt := if e = 0 then { t with writtenA := true, directSet := t.directSet || decide (st = 3) }
      else { t with writtenB := true, directSet := t.directSet || decide (st = 3) }
    (1, v, (c.setCt a t1).wr (if e = 0 then Reg.CTime.DELAY_A a else Reg.CTime.DELAY_B a) v)
  else (2, v, c)

/-- DELAY_WRITE (R52). -/
def execDelayWrite (a : CellAddr) (e : EndIx) (v : Word) (s : State) : Host.Outcome State Fault Refusal :=
  s.run fun c => c.answer a (c.writeDelay a e v.toNat)

/-- The applied delay at a frame boundary (R52), 2^-8 ns: whole in ADMIT or from 0, else in steps of 0.8 ns (205 units, the
nearest) where it is more than 1.6 ns away. (notes/assumptions: 10 DEDUCED) -/
def applyDelay (inAdmit : Bool) (applied written : Nat) : Nat :=
  let d := (written : Int) - applied
  if inAdmit = true ∨ applied = 0 ∨ d.natAbs * 5 ≤ 2048 then written
  else if 0 < d then applied + 205 else applied - 205

/-- DELAY_APPLY (R52): at a frame boundary of the cell. (notes/assumptions: 10 DEDUCED) -/
def Chip.applyDelays (c : Chip) (a : Nat) : Chip :=
  let t := c.ct a
  let adm := decide (c.cellState a = 3)
  c.setCt a { t with
    appliedA := if t.writtenA then applyDelay adm t.appliedA (c.rd (Reg.CTime.DELAY_A a)) else t.appliedA
    appliedB := if t.writtenB then applyDelay adm t.appliedB (c.rd (Reg.CTime.DELAY_B a)) else t.appliedB }

/-! ### Local protection (R220 to R223, R227) -/

/-- BYP_FIRE is asserted, once for a fence (R223); the confirmation of the bypass is awaited from then on. -/
def Chip.fire (c : Chip) (a : Nat) : Chip :=
  let g := c.gate a
  if g.fired then c
  else
    ((c.setGate a { g with fired := true, fireAt := some (c.cellTick a), confirmFrom := some (c.ct a).time }).set
      (Reg.Gate.BYP_FIRE_OUT a)).set (Reg.Prot.BYP_FIRED a)

/-- A commanded edge in the tick of a protection action is not executed (R227). (notes/assumptions: 36 DEDUCED) -/
def Chip.suppressEdge (c : Chip) (a : Nat) : Chip :=
  match (c.gate a).schedule with
  | e :: _ => if e.1 = c.cellTick a ∧ (c.gate a).baseSource = 5 then
      (c.inc (Reg.Gate.EDGE_SUPPRESSED a)).set (Reg.Gate.SUPPRESS_SEEN a) else c
  | [] => c

/-- Local protection acts with a fault kind (R220, R221): a hard fence, BYP_FIRE where `fires`, a fault with FENCED, a capture. -/
def Chip.protect (c : Chip) (a kind detail : Nat) (fires : Bool) : Chip :=
  let c1 := (c.suppressEdge a).hardFence a kind
  let c2 := if fires then c1.fire a else c1
  (c2.cellFault a 1 kind detail true false).startCapture a kind

/-- DESATURATION (R220): on a gate that is on; the gates turn off, the cell takes a hard fence. A WN140-S ignores it (R226). -/
def execDesaturation (a : CellAddr) (dt : Nat) (g : Fin 4) (low : Bool) (s : State) : Host.Outcome State Fault Refusal :=
  s.run fun c0 =>
    let c := c0.cellAdvance a dt
    let lev := c.rd (Reg.Prot.DESAT_LEVEL a)
    if c.cellIsS a ∨ (c.gate a).powered = false then c
    else if low then
      let c1 := c.wr (Reg.Prot.DESAT_LEVEL a) (lev ||| 2 ^ g.val)
      if bits (c.rd (Reg.Gate.G_OUT a)) g 1 = 1 then
        (c1.wr (Reg.Prot.DESAT_SEEN a) (c1.rd (Reg.Prot.DESAT_SEEN a) ||| 2 ^ g.val)).protect a 0x05 g
          (c.on (Reg.Prot.DESAT_FIRE a))
      else c1
    else c.wr (Reg.Prot.DESAT_LEVEL a) (lev - bits lev g 1 * 2 ^ g.val)

/-- OVER_VOLTAGE_BYPASS (R221): the gates bypass at once, BYP_FIRE is asserted, the cell takes a hard fence. -/
def execOverVoltageBypass (a : CellAddr) (dt : Nat) (level : Bool) (s : State) : Host.Outcome State Fault Refusal :=
  s.run fun c0 =>
    let c := c0.cellAdvance a dt
    if c.cellIsS a ∨ (c.gate a).powered = false then c
    else if level then
      (((c.set (Reg.Prot.OVP_LEVEL a)).set (Reg.Prot.OVP_SEEN a)).inc (Reg.Prot.OVP_COUNT a)).protect a 0x06 0 true
    else c.clr (Reg.Prot.OVP_LEVEL a)

/-- BYP_FIRE_END (R223): BYP_FIRE_WIDTH, in units of 10 µs, after it rose. -/
def execBypFireEnd (a : CellAddr) (s : State) : Host.Outcome State Fault Refusal :=
  s.run fun c =>
    match (c.gate a).fireAt with
    | some t =>
      ((c.cellTo a (t + c.rd (Reg.Prot.BYP_FIRE_WIDTH a) * 12500)).setGate a { c.gate a with fireAt := none }).clr
        (Reg.Gate.BYP_FIRE_OUT a)
    | none => c

/-- BYPASS_NOT_CONFIRMED (R223): no conversion below BYP_CONFIRM_CODE within BYP_CONFIRM_T. The detail is the latest raw code of
the feedback input. (notes/assumptions: 2 DESIGN CHOICE) -/
def execBypassNotConfirmed (a : CellAddr) (dt : Nat) (s : State) : Host.Outcome State Fault Refusal :=
  s.run fun c0 =>
    let c := c0.cellAdvance a dt
    let g := c.gate a
    match g.confirmFrom with
    | some t =>
      if t + c.rd (Reg.Prot.BYP_CONFIRM_T a) * 256000000 ≤ (c.ct a).time then
        let (code, c1) := match findKey (c.rd (Reg.Prot.BYP_FB_CH a)) (c.meas1 a).latest with
          | some x => (ofSigned 16 x.code, c)
          | none => ((c.drawFree).1 % 65536, (c.drawFree).2)
        (((c1.setGate a { g with confirmFrom := none }).set (Reg.Prot.BYP_NOT_CONFIRMED a)).cellFault a 1 0x08 code false
          false).startCapture a 0x08
      else c
    | none => c

/-! ### Gate changes (R213 to R218) -/

/-- GATE_CHANGE_DUE (R97, R216, R217): the next change of the frame's schedule falls due at its tick. -/
def execGateChangeDue (a : CellAddr) (s : State) : Host.Outcome State Fault Refusal :=
  s.run fun c =>
    let g := c.gate a
    match g.schedule with
    | [] => c
    | (t, tgt) :: rest =>
      let src := if g.baseSource = 6 then 6 else if tgt = 3 then 4 else 5
      ((c.cellTo a t).setGate a { g with schedule := rest }).setBase a src tgt

/-- DEFERRED_CHANGE_EXEC (R216): a deferred change executes at its instant. -/
def execDeferredChangeExec (a : CellAddr) (s : State) : Host.Outcome State Fault Refusal :=
  s.run fun c =>
    match (c.gate a).deferred with
    | none => c
    | some (tgt, t) => (c.cellTo a t).executeChange a tgt t

/-- May gate `k` turn on at tick `t` (R215)? Its leg's other gate is off, and has been for DEAD_TIME. -/
def Chip.legFree (c : Chip) (a k t : Nat) : Bool :=
  let o := if k % 2 = 0 then k + 1 else k - 1
  let off := (c.gate a).offAt.getD o 0
  decide (bits (c.rd (Reg.Gate.G_OUT a)) o 1 = 0) && (decide (off = 0) || decide (off + c.rd (Reg.Gate.DEAD_TIME a) ≤ t))

/-- DEAD_TIME_TURN_ON (R214, R215): DEAD_TIME after the change, the gates that the pattern newly holds turn on; one that the
interlock still holds waits, and is counted. -/
def execDeadTimeTurnOn (a : CellAddr) (s : State) : Host.Outcome State Fault Refusal :=
  s.run fun c =>
    let g := c.gate a
    match g.lastChange with
    | none => c
    | some l =>
      if g.turnOn.any id then
        let t := l + c.rd (Reg.Gate.DEAD_TIME a)
        let go := (List.range 4).map (fun k => g.turnOn.getD k false && c.legFree a k t)
        let left := (List.range 4).map (fun k => g.turnOn.getD k false && !c.legFree a k t)
        let on := ((List.range 4).map (fun k => if go.getD k false then 2 ^ k else 0)).sum
        let c1 := ((c.cellTo a t).setGate a { g with turnOn := left }).wr (Reg.Gate.G_OUT a) (c.rd (Reg.Gate.G_OUT a) ||| on)
        if left.any id then (c1.inc (Reg.Gate.EDGE_DEFERRED a)).set (Reg.Gate.DEFER_SEEN a) else c1
      else c

end Sys2Proof.Machine
end

