-- ==== Sys2Proof/Machine/MgmtTable.lean ====
section
/-! DEFINITION. The fields of the WN140 management registers, as the field tables of the chapters give them: address, least
significant bit, width, access code and reset value (R228). -/

namespace Sys2Proof.Machine

/-- The access codes of R5. -/
inductive Acc where
  | ro
  | rw
  | w1c
  | ws
  | rs
  deriving DecidableEq, Repr

/-- A field of a register table. -/
structure RegField where
  addr : Nat
  lo : Nat
  width : Nat
  acc : Acc
  reset : Nat
  deriving DecidableEq, Repr

/-- Fields at 0x00 to 0x0F. -/
def mgmtFields0 : List RegField := [
  ⟨0x00, 0, 16, .ro, 320⟩, ⟨0x00, 16, 2, .ro, 0⟩, ⟨0x00, 20, 4, .ro, 0⟩, ⟨0x00, 24, 4, .ro, 0⟩,
  ⟨0x01, 0, 32, .rs, 0⟩, ⟨0x02, 0, 32, .rs, 0⟩, ⟨0x03, 0, 1, .ro, 0⟩, ⟨0x03, 1, 1, .ro, 0⟩, ⟨0x03, 2, 1, .ro, 0⟩,
  ⟨0x03, 3, 1, .ro, 0⟩, ⟨0x04, 0, 14, .rw, 0⟩, ⟨0x05, 0, 16, .rw, 0⟩, ⟨0x06, 0, 16, .rw, 0⟩, ⟨0x07, 0, 4, .ro, 1⟩,
  ⟨0x07, 4, 4, .ro, 0⟩, ⟨0x07, 8, 4, .ro, 0⟩, ⟨0x08, 0, 1, .ws, 0⟩, ⟨0x08, 1, 1, .ws, 0⟩, ⟨0x08, 2, 1, .ws, 0⟩,
  ⟨0x08, 3, 1, .ws, 0⟩, ⟨0x09, 0, 32, .ro, 0⟩, ⟨0x0A, 0, 16, .ro, 0⟩, ⟨0x0A, 16, 16, .ro, 0⟩, ⟨0x0B, 0, 1, .ro, 0⟩,
  ⟨0x0B, 1, 1, .ro, 0⟩, ⟨0x0B, 2, 1, .ro, 0⟩, ⟨0x0B, 8, 8, .ro, 0⟩]

/-- Fields at 0x10 to 0x1F. -/
def mgmtFields1 : List RegField := [
  ⟨0x10, 0, 30, .rs, 0⟩, ⟨0x11, 0, 32, .rs, 0⟩, ⟨0x12, 0, 16, .rs, 0⟩, ⟨0x14, 0, 24, .rw, 0⟩, ⟨0x15, 0, 24, .rw, 0⟩,
  ⟨0x16, 0, 16, .ro, 0⟩, ⟨0x16, 16, 16, .ro, 0⟩, ⟨0x17, 0, 16, .ro, 0⟩, ⟨0x18, 0, 1, .ro, 0⟩, ⟨0x18, 1, 1, .ro, 0⟩,
  ⟨0x18, 2, 1, .ro, 1⟩, ⟨0x18, 3, 1, .ro, 0⟩, ⟨0x18, 8, 8, .ro, 0⟩, ⟨0x19, 0, 1, .rw, 0⟩, ⟨0x1A, 0, 13, .rw, 2000⟩,
  ⟨0x1B, 0, 32, .ro, 0⟩, ⟨0x1C, 0, 32, .ro, 0⟩]

/-- Fields at 0x30 to 0x3F. -/
def mgmtFields3 : List RegField := [
  ⟨0x30, 0, 1, .ro, 0⟩, ⟨0x30, 1, 1, .ro, 0⟩, ⟨0x30, 2, 1, .ro, 0⟩, ⟨0x30, 3, 1, .ro, 0⟩, ⟨0x30, 4, 1, .ro, 0⟩,
  ⟨0x30, 8, 4, .ro, 0⟩, ⟨0x31, 0, 1, .w1c, 0⟩, ⟨0x31, 1, 1, .w1c, 0⟩, ⟨0x31, 2, 1, .w1c, 0⟩, ⟨0x31, 3, 1, .w1c, 0⟩,
  ⟨0x32, 0, 15, .rw, 9072⟩, ⟨0x33, 0, 32, .ro, 0⟩, ⟨0x34, 0, 32, .ro, 0⟩, ⟨0x35, 0, 16, .ro, 0⟩,
  ⟨0x35, 16, 16, .rw, 16⟩, ⟨0x36, 0, 3, .rw, 0⟩, ⟨0x36, 3, 1, .rw, 0⟩, ⟨0x36, 4, 1, .rw, 0⟩, ⟨0x36, 5, 1, .rw, 0⟩,
  ⟨0x36, 7, 1, .ws, 0⟩, ⟨0x36, 8, 1, .ws, 0⟩, ⟨0x36, 9, 6, .rw, 0⟩, ⟨0x37, 0, 32, .rs, 0⟩, ⟨0x38, 0, 32, .rs, 0⟩,
  ⟨0x3C, 0, 32, .rw, 0⟩, ⟨0x3D, 0, 20, .rw, 0⟩, ⟨0x3E, 0, 32, .rw, 0⟩, ⟨0x3F, 0, 32, .rw, 0⟩]

/-- Fields at 0x40 to 0x4F. -/
def mgmtFields4 : List RegField := [
  ⟨0x40, 0, 1, .ro, 0⟩, ⟨0x40, 1, 1, .ro, 0⟩, ⟨0x40, 2, 1, .ro, 0⟩, ⟨0x40, 3, 1, .ro, 0⟩, ⟨0x40, 4, 1, .ro, 0⟩,
  ⟨0x40, 8, 4, .ro, 0⟩, ⟨0x41, 0, 1, .w1c, 0⟩, ⟨0x41, 1, 1, .w1c, 0⟩, ⟨0x41, 2, 1, .w1c, 0⟩, ⟨0x41, 3, 1, .w1c, 0⟩,
  ⟨0x42, 0, 15, .rw, 9072⟩, ⟨0x43, 0, 32, .ro, 0⟩, ⟨0x44, 0, 32, .ro, 0⟩, ⟨0x45, 0, 16, .ro, 0⟩,
  ⟨0x45, 16, 16, .rw, 16⟩, ⟨0x46, 0, 3, .rw, 0⟩, ⟨0x46, 3, 1, .rw, 0⟩, ⟨0x46, 4, 1, .rw, 0⟩, ⟨0x46, 5, 1, .rw, 0⟩,
  ⟨0x46, 7, 1, .ws, 0⟩, ⟨0x46, 8, 1, .ws, 0⟩, ⟨0x46, 9, 6, .rw, 0⟩, ⟨0x47, 0, 32, .rs, 0⟩, ⟨0x48, 0, 32, .rs, 0⟩]

/-- Fields at 0x50 to 0x5F. -/
def mgmtFields5 : List RegField := [
  ⟨0x50, 0, 4, .ro, 0⟩, ⟨0x50, 4, 1, .ro, 0⟩, ⟨0x50, 5, 3, .ro, 0⟩, ⟨0x50, 8, 1, .ro, 0⟩, ⟨0x50, 9, 1, .ro, 1⟩,
  ⟨0x51, 0, 1, .w1c, 0⟩, ⟨0x51, 1, 1, .w1c, 0⟩, ⟨0x51, 2, 1, .w1c, 0⟩, ⟨0x51, 3, 1, .w1c, 0⟩, ⟨0x51, 4, 1, .w1c, 0⟩,
  ⟨0x52, 0, 32, .ro, 0⟩, ⟨0x53, 0, 16, .ro, 0⟩, ⟨0x53, 16, 16, .ro, 0⟩, ⟨0x54, 0, 16, .ro, 0⟩,
  ⟨0x54, 16, 16, .ro, 0⟩, ⟨0x55, 0, 16, .ro, 0⟩, ⟨0x56, 0, 28, .rw, 106181136⟩, ⟨0x56, 28, 1, .rw, 0⟩,
  ⟨0x56, 29, 1, .rw, 0⟩, ⟨0x58, 0, 8, .rw, 0⟩, ⟨0x59, 0, 32, .rw, 0⟩, ⟨0x5A, 0, 16, .rw, 0⟩, ⟨0x5A, 16, 16, .rw, 0⟩,
  ⟨0x5B, 0, 16, .rw, 0⟩, ⟨0x5B, 16, 16, .rw, 0⟩, ⟨0x5C, 0, 16, .rw, 0⟩, ⟨0x5C, 16, 16, .rw, 0⟩,
  ⟨0x5D, 0, 16, .rw, 0⟩, ⟨0x5D, 16, 16, .rw, 0⟩, ⟨0x5E, 0, 10, .ro, 0⟩, ⟨0x5E, 16, 16, .ro, 0⟩,
  ⟨0x5F, 0, 10, .rw, 0⟩]

/-- Fields at 0x60 to 0x6F. -/
def mgmtFields6 : List RegField := [
  ⟨0x60, 0, 32, .rs, 0⟩, ⟨0x61, 0, 32, .rs, 0⟩, ⟨0x62, 0, 4, .rw, 0⟩, ⟨0x63, 0, 16, .rw, 0⟩, ⟨0x64, 0, 32, .rw, 0⟩,
  ⟨0x65, 0, 5, .rw, 12⟩, ⟨0x65, 5, 1, .ws, 0⟩, ⟨0x66, 0, 32, .ro, 0⟩, ⟨0x67, 0, 16, .ro, 0⟩, ⟨0x67, 16, 16, .ro, 0⟩,
  ⟨0x68, 0, 12, .ro, 0⟩]

/-- Fields at 0x70 to 0x7F. -/
def mgmtFields7 : List RegField := [
  ⟨0x70, 0, 4, .rw, 0⟩, ⟨0x70, 4, 2, .rw, 0⟩, ⟨0x70, 6, 5, .rw, 1⟩, ⟨0x70, 11, 11, .rw, 20⟩, ⟨0x70, 22, 4, .rw, 2⟩,
  ⟨0x71, 0, 8, .ro, 0⟩, ⟨0x71, 8, 8, .ro, 0⟩, ⟨0x71, 16, 16, .ro, 0⟩, ⟨0x72, 0, 32, .rs, 0⟩, ⟨0x73, 0, 32, .rs, 0⟩,
  ⟨0x74, 0, 4, .rw, 0⟩, ⟨0x74, 4, 2, .rw, 0⟩, ⟨0x74, 6, 5, .rw, 1⟩, ⟨0x74, 11, 11, .rw, 20⟩, ⟨0x74, 22, 4, .rw, 2⟩,
  ⟨0x75, 0, 8, .ro, 0⟩, ⟨0x75, 8, 8, .ro, 0⟩, ⟨0x75, 16, 16, .ro, 0⟩, ⟨0x76, 0, 32, .rs, 0⟩, ⟨0x77, 0, 32, .rs, 0⟩,
  ⟨0x78, 0, 4, .rw, 0⟩, ⟨0x78, 4, 2, .rw, 0⟩, ⟨0x78, 6, 5, .rw, 1⟩, ⟨0x78, 11, 11, .rw, 20⟩, ⟨0x78, 22, 4, .rw, 2⟩,
  ⟨0x79, 0, 8, .ro, 0⟩, ⟨0x79, 8, 8, .ro, 0⟩, ⟨0x79, 16, 16, .ro, 0⟩, ⟨0x7A, 0, 32, .rs, 0⟩, ⟨0x7B, 0, 32, .rs, 0⟩,
  ⟨0x7C, 0, 4, .rw, 0⟩, ⟨0x7C, 4, 2, .rw, 0⟩, ⟨0x7C, 6, 5, .rw, 1⟩, ⟨0x7C, 11, 11, .rw, 20⟩, ⟨0x7C, 22, 4, .rw, 2⟩,
  ⟨0x7D, 0, 8, .ro, 0⟩, ⟨0x7D, 8, 8, .ro, 0⟩, ⟨0x7D, 16, 16, .ro, 0⟩, ⟨0x7E, 0, 32, .rs, 0⟩, ⟨0x7F, 0, 32, .rs, 0⟩]

/-- Fields at 0x80 to 0x8F. -/
def mgmtFields8 : List RegField := [
  ⟨0x80, 0, 12, .rw, 750⟩, ⟨0x80, 16, 12, .rw, 1000⟩, ⟨0x81, 0, 1, .rw, 0⟩, ⟨0x82, 0, 2, .ro, 3⟩,
  ⟨0x82, 2, 4, .ro, 0⟩, ⟨0x82, 6, 1, .ro, 0⟩, ⟨0x82, 7, 1, .ro, 0⟩, ⟨0x82, 8, 3, .ro, 7⟩, ⟨0x83, 0, 32, .ro, 0⟩,
  ⟨0x84, 0, 16, .ro, 0⟩, ⟨0x84, 16, 16, .ro, 0⟩, ⟨0x85, 0, 32, .ro, 0⟩, ⟨0x86, 0, 16, .ro, 0⟩,
  ⟨0x86, 16, 16, .ro, 0⟩, ⟨0x87, 0, 2, .ro, 0⟩, ⟨0x87, 2, 2, .ro, 0⟩, ⟨0x87, 4, 1, .ro, 0⟩, ⟨0x88, 0, 1, .w1c, 0⟩,
  ⟨0x88, 1, 1, .w1c, 0⟩, ⟨0x88, 2, 1, .w1c, 0⟩]

/-- Fields at 0x90 to 0x9F. -/
def mgmtFields9 : List RegField := [
  ⟨0x98, 0, 32, .rw, 0⟩, ⟨0x99, 0, 32, .rw, 0⟩, ⟨0x9A, 0, 16, .rw, 0⟩, ⟨0x9A, 16, 16, .rw, 0⟩, ⟨0x9B, 0, 16, .rw, 0⟩,
  ⟨0x9B, 16, 4, .rw, 4⟩, ⟨0x9C, 0, 32, .rs, 0⟩, ⟨0x9D, 0, 16, .rs, 0⟩, ⟨0x9D, 16, 16, .rs, 0⟩, ⟨0x9E, 0, 2, .rs, 2⟩,
  ⟨0x9E, 2, 1, .rs, 0⟩, ⟨0x9E, 3, 1, .rs, 0⟩, ⟨0x9F, 0, 1, .w1c, 0⟩, ⟨0x9F, 1, 1, .w1c, 0⟩]

/-- Fields at 0xA0 to 0xAF. -/
def mgmtFieldsA : List RegField := [
  ⟨0xA0, 0, 12, .rw, 1500⟩, ⟨0xA0, 16, 8, .rw, 10⟩, ⟨0xA0, 24, 1, .rw, 1⟩, ⟨0xA1, 0, 16, .rw, 65535⟩,
  ⟨0xA1, 16, 16, .rw, 0⟩, ⟨0xA2, 0, 10, .rw, 1000⟩, ⟨0xA3, 0, 16, .rw, 500⟩, ⟨0xA3, 16, 4, .rw, 0⟩,
  ⟨0xA3, 20, 12, .rw, 20⟩, ⟨0xA4, 0, 16, .rw, 0⟩, ⟨0xA5, 0, 1, .ro, 0⟩, ⟨0xA5, 1, 1, .ro, 0⟩, ⟨0xA5, 2, 4, .ro, 0⟩,
  ⟨0xA5, 6, 1, .ro, 0⟩, ⟨0xA5, 7, 1, .ro, 0⟩, ⟨0xA6, 0, 4, .w1c, 0⟩, ⟨0xA6, 4, 1, .w1c, 0⟩, ⟨0xA6, 5, 1, .w1c, 0⟩,
  ⟨0xA6, 6, 1, .w1c, 0⟩, ⟨0xA7, 0, 16, .ro, 0⟩, ⟨0xA7, 16, 16, .ro, 0⟩]

/-- Fields at 0xB0 to 0xBF. -/
def mgmtFieldsB : List RegField := [
  ⟨0xB0, 0, 3, .rw, 3⟩, ⟨0xB0, 3, 3, .rw, 2⟩, ⟨0xB0, 6, 1, .rw, 0⟩, ⟨0xB0, 7, 1, .rw, 0⟩, ⟨0xB1, 0, 3, .ro, 0⟩,
  ⟨0xB1, 3, 1, .ro, 0⟩, ⟨0xB1, 4, 1, .ro, 0⟩, ⟨0xB1, 5, 1, .ro, 0⟩, ⟨0xB1, 8, 8, .ro, 0⟩, ⟨0xB1, 16, 8, .ro, 0⟩,
  ⟨0xB2, 0, 1, .w1c, 0⟩, ⟨0xB2, 1, 1, .w1c, 0⟩, ⟨0xB2, 2, 1, .w1c, 0⟩, ⟨0xB2, 3, 1, .w1c, 0⟩, ⟨0xB2, 4, 1, .w1c, 0⟩,
  ⟨0xB2, 5, 1, .w1c, 0⟩, ⟨0xB2, 6, 1, .w1c, 0⟩, ⟨0xB3, 0, 1, .ws, 0⟩, ⟨0xB3, 1, 1, .ws, 0⟩, ⟨0xB3, 2, 1, .ws, 0⟩,
  ⟨0xB4, 0, 4, .ro, 0⟩, ⟨0xB4, 4, 4, .ro, 0⟩, ⟨0xB4, 8, 4, .ro, 0⟩, ⟨0xB4, 12, 9, .ro, 0⟩, ⟨0xB5, 0, 29, .rw, 0⟩,
  ⟨0xB5, 29, 1, .rw, 0⟩, ⟨0xB5, 30, 1, .rw, 0⟩, ⟨0xB5, 31, 1, .rw, 0⟩, ⟨0xB6, 0, 4, .rw, 0⟩, ⟨0xB6, 4, 1, .rw, 0⟩,
  ⟨0xB7, 0, 32, .rw, 0⟩, ⟨0xB8, 0, 32, .rw, 0⟩, ⟨0xB9, 0, 16, .ro, 0⟩, ⟨0xB9, 16, 16, .ro, 0⟩, ⟨0xBA, 0, 16, .ro, 0⟩,
  ⟨0xBA, 16, 16, .ro, 0⟩, ⟨0xBB, 0, 16, .ro, 0⟩, ⟨0xBB, 16, 5, .ro, 0⟩, ⟨0xBC, 0, 16, .ro, 0⟩,
  ⟨0xBC, 16, 16, .ro, 0⟩, ⟨0xBD, 0, 3, .ro, 0⟩, ⟨0xBD, 3, 1, .ro, 0⟩, ⟨0xBD, 8, 8, .ro, 0⟩]

/-- Fields at 0xD0 to 0xDF. -/
def mgmtFieldsD : List RegField := [
  ⟨0xD0, 0, 4, .ro, 0⟩, ⟨0xD0, 4, 1, .ro, 0⟩, ⟨0xD0, 5, 1, .ro, 0⟩, ⟨0xD0, 6, 1, .ro, 0⟩, ⟨0xD1, 0, 1, .ws, 0⟩,
  ⟨0xD1, 1, 1, .ws, 0⟩, ⟨0xD1, 2, 1, .ws, 0⟩, ⟨0xD1, 3, 1, .ws, 0⟩, ⟨0xD1, 4, 1, .ws, 0⟩, ⟨0xD1, 5, 1, .ws, 0⟩,
  ⟨0xD1, 6, 1, .ws, 0⟩, ⟨0xD1, 7, 1, .ws, 0⟩, ⟨0xD1, 8, 1, .ws, 0⟩, ⟨0xD1, 9, 1, .ws, 0⟩, ⟨0xD2, 0, 6, .rw, 0⟩,
  ⟨0xD2, 6, 1, .rw, 0⟩, ⟨0xD3, 0, 32, .rw, 0⟩, ⟨0xD4, 0, 1, .ro, 0⟩, ⟨0xD4, 1, 1, .ro, 0⟩, ⟨0xD4, 2, 1, .ro, 0⟩,
  ⟨0xD4, 3, 1, .ro, 0⟩, ⟨0xD4, 4, 1, .ro, 0⟩, ⟨0xD4, 5, 1, .ro, 0⟩, ⟨0xD5, 0, 1, .w1c, 0⟩, ⟨0xD5, 1, 1, .w1c, 0⟩,
  ⟨0xD5, 2, 1, .w1c, 0⟩, ⟨0xD5, 3, 1, .w1c, 0⟩, ⟨0xD5, 4, 1, .w1c, 0⟩, ⟨0xD5, 5, 1, .w1c, 0⟩, ⟨0xD5, 6, 1, .w1c, 0⟩,
  ⟨0xD6, 0, 4, .rw, 7⟩, ⟨0xD6, 4, 12, .rw, 200⟩, ⟨0xD6, 16, 8, .rw, 50⟩, ⟨0xD6, 24, 8, .rw, 20⟩,
  ⟨0xD7, 0, 13, .rw, 500⟩, ⟨0xD8, 0, 7, .rw, 0⟩, ⟨0xD9, 0, 32, .rw, 0⟩, ⟨0xDA, 0, 16, .ro, 0⟩,
  ⟨0xDA, 16, 16, .ro, 0⟩, ⟨0xDB, 0, 32, .ro, 0⟩, ⟨0xDC, 0, 16, .ro, 0⟩, ⟨0xDC, 16, 16, .ro, 0⟩]

/-- Fields at 0xE0 to 0xEF. -/
def mgmtFieldsE : List RegField := [
  ⟨0xE0, 0, 8, .ro, 0⟩, ⟨0xE0, 8, 1, .ro, 0⟩, ⟨0xE0, 9, 1, .ro, 0⟩, ⟨0xE0, 16, 1, .w1c, 0⟩, ⟨0xE0, 17, 1, .w1c, 0⟩,
  ⟨0xE0, 18, 1, .w1c, 0⟩, ⟨0xE0, 19, 1, .w1c, 0⟩, ⟨0xE1, 0, 32, .rs, 0⟩, ⟨0xE2, 0, 32, .rs, 0⟩,
  ⟨0xE3, 0, 16, .rs, 0⟩, ⟨0xE3, 16, 16, .rs, 0⟩, ⟨0xE4, 0, 28, .ro, 0⟩, ⟨0xE5, 0, 10, .rw, 60⟩,
  ⟨0xE5, 16, 16, .ro, 0⟩, ⟨0xE6, 0, 28, .rw, 0⟩, ⟨0xE7, 0, 1, .ws, 0⟩, ⟨0xE7, 1, 3, .ro, 0⟩, ⟨0xE8, 0, 32, .ro, 0⟩,
  ⟨0xE9, 0, 32, .ro, 0⟩, ⟨0xEA, 0, 32, .ro, 0⟩, ⟨0xEB, 0, 32, .ro, 0⟩, ⟨0xEC, 0, 32, .ro, 0⟩, ⟨0xED, 0, 32, .ro, 0⟩,
  ⟨0xEE, 0, 32, .ro, 0⟩, ⟨0xEF, 0, 32, .ro, 0⟩]

/-- Fields at 0xF0 to 0xFF. -/
def mgmtFieldsF : List RegField := [
  ⟨0xF0, 0, 4, .ro, 0⟩, ⟨0xF0, 4, 12, .ro, 0⟩, ⟨0xF0, 16, 1, .ro, 0⟩, ⟨0xF0, 17, 1, .ro, 0⟩, ⟨0xF1, 0, 32, .rs, 0⟩,
  ⟨0xF2, 0, 32, .rs, 0⟩, ⟨0xF3, 0, 32, .rw, 0⟩, ⟨0xF4, 0, 8, .rw, 0⟩, ⟨0xF4, 8, 1, .ws, 0⟩, ⟨0xF4, 9, 2, .ro, 0⟩,
  ⟨0xF5, 0, 16, .ro, 0⟩, ⟨0xF5, 16, 16, .ro, 0⟩, ⟨0xF6, 0, 1, .ro, 0⟩, ⟨0xF7, 0, 32, .rw, 0⟩, ⟨0xF8, 0, 1, .ws, 0⟩,
  ⟨0xF8, 1, 3, .ro, 0⟩]

/-- Every field of the WN140's management registers. -/
def mgmtFields : List RegField :=
  mgmtFields0 ++ mgmtFields1 ++ mgmtFields3 ++ mgmtFields4 ++ mgmtFields5 ++ mgmtFields6 ++ mgmtFields7 ++ mgmtFields8 ++
    mgmtFields9 ++ mgmtFieldsA ++ mgmtFieldsB ++ mgmtFieldsD ++ mgmtFieldsE ++ mgmtFieldsF

/-- The fields of a management register. -/
def mgmtAt (addr : Nat) : List RegField := mgmtFields.filter (fun f => decide (f.addr = addr))

/-- The place of a field in the cell at `a`. -/
def RegField.cell (f : RegField) (a : Nat) : Fld := fldC a f.addr f.lo f.width f.reset

end Sys2Proof.Machine
end

