-- ==== Sys2Proof/Machine/Mgmt.lean ====
section
/-! DEFINITION. The management slot at a cell (R104, R105, R228 to R231): what each operation does with a register of the cell, in
which state, and what it returns. -/

namespace Sys2Proof.Machine

/-! ### Reading -/

/-- Addresses of groups that a WN140-S does not have (R226). -/
def sensorLacks (addr : Nat) : Bool :=
  decide ((0x80 ≤ addr ∧ addr ≤ 0x9F) ∨ (0xB0 ≤ addr ∧ addr ≤ 0xCF) ∨ (0xD0 ≤ addr ∧ addr ≤ 0xEF))

/-- The high words that a read of a low word latches (R5). -/
def snapOf (addr : Nat) : List Nat :=
  match addr with
  | 0x10 => [0x11, 0x12]
  | 0x37 => [0x38]
  | 0x47 => [0x48]
  | 0x60 => [0x61]
  | 0x72 => [0x73]
  | 0x76 => [0x77]
  | 0x7A => [0x7B]
  | 0x7E => [0x7F]
  | 0x9C => [0x9D, 0x9E]
  | 0xE1 => [0xE2, 0xE3]
  | 0xF1 => [0xF2]
  | _ => []

/-- Addresses whose RS fields read from a snapshot (R5). -/
def isSnapWord (addr : Nat) : Bool :=
  decide (addr ∈ [0x11, 0x12, 0x38, 0x48, 0x61, 0x73, 0x77, 0x7B, 0x7F, 0x9D, 0x9E, 0xE2, 0xE3, 0xF2])

/-- A field of the cell as it reads: four fields read other than they were written (R228). -/
def Chip.fieldValue (c : Chip) (a : Nat) (f : RegField) : Nat :=
  let v := if f.acc = .rs ∧ isSnapWord f.addr = true then c.rd (f.cell a).cellSnap else c.rd (f.cell a)
  let harm := decide (0x70 ≤ f.addr ∧ f.addr ≤ 0x7F ∧ f.addr % 4 = 0) && decide (f.lo = 6 ∨ f.lo = 11)
  if harm || (decide (f.addr = 0x9B) && decide (f.lo = 16)) then max 1 v
  else if f.addr = 0x65 ∧ f.lo = 0 then calN v
  else if f.addr = 0x65 ∧ f.lo = 5 then bit (c.meas1 a).cal.isSome
  else v

/-- A word of the cell as it reads (R228). `closed` says whether its field fuse is blown. -/
def Chip.cellWord (c : Chip) (closed : Bool) (a addr : Nat) : Nat :=
  let p := (c.part a).fused
  match addr with
  | 0x00 => 0x140 + bit p.sensor * 2 ^ 16 + p.stepMinor % 16 * 2 ^ 20 + p.stepMajor % 16 * 2 ^ 24
  | 0x01 => p.dieUid % 2 ^ 32
  | 0x02 => p.dieUid / 2 ^ 32 % 2 ^ 32
  | 0x03 => bit closed + 2 * bit p.sensor + 4 * bit p.sensor + 8 * bit p.key.isSome
  | 0x59 => mapGet 0 (c.meas1 a).planMem (c.rd (Reg.Adc.PLAN_IDX a))
  | 0x63 => mapGet 0 (c.meas1 a).ofs (c.rd (Reg.Adc.CAL_SEL a))
  | 0x64 => mapGet 0 (c.meas1 a).gain (c.rd (Reg.Adc.CAL_SEL a))
  | 0xD3 => c.recWord a
  | 0xD9 => mapGet 0 (c.pack a).profile (c.rd (Reg.Idb.PROF_IDX a))
  | 0xF6 => bit closed
  | _ => ((mgmtAt addr).map (fun f => c.fieldValue a f * 2 ^ f.lo)).sum

/-- The cell's time registers are brought up to the present. -/
def Chip.syncCellTime (c : Chip) (a : Nat) : Chip :=
  let ns := (c.ct a).time / 256
  ((c.wr (Reg.CTime.CELL_TIME_NS a) (ns % 1000000000)).wr (Reg.CTime.CELL_TIME_SEC_LO a) (ns / 1000000000)).wr
    (Reg.CTime.CELL_TIME_SEC_HI a) (ns / 1000000000 / 2 ^ 32)

/-- A read of a low word of the cell latches the high ones (R5): RESULT, value, chip. -/
def Chip.cellSnapshot (c : Chip) (a addr : Nat) : Nat × Nat × Chip :=
  let c1 := if addr = 0x10 then c.syncCellTime a else if addr = 0x60 then c.bufRead a else c
  let c2 := (snapOf addr).foldl (fun c w => (mgmtAt w).foldl (fun c f => c.latchCell (f.cell a)) c) c1
  (1, c1.cellWord false a addr, c2)

/-- READ of a cell's register (R105, R226, R228): RESULT, DATA and the chip. (notes/assumptions: 35 DEDUCED) -/
def Chip.mgmtRead (c : Chip) (closed : Bool) (a addr : Nat) : Nat × Nat × Chip :=
  if c.cellIsS a && sensorLacks addr then (1, 0, c)
  else if addr = 0x59 then c.planData a none
  else if addr = 0xD3 then c.recData a none
  else if addr = 0xD9 then c.profData a none
  else if snapOf addr ≠ [] then c.cellSnapshot a addr
  else (1, c.cellWord closed a addr, c)

/-! ### Writing -/

/-- May a register be written in the cell's state (R230)? EPOCH and CELL_CTRL have rules of their own.
(notes/assumptions: 35 DEDUCED) -/
def writableIn (st addr : Nat) : Bool :=
  if addr = 0x05 ∨ (addr = 0x08 ∧ st ≠ 2) then true
  else if st = 3 then true
  else if st = 4 ∨ st = 5 ∨ st = 6 ∨ st = 8 then
    !decide ((0x04 ≤ addr ∧ addr ≤ 0x06) ∨ (0x80 ≤ addr ∧ addr ≤ 0x97) ∨ (0xA0 ≤ addr ∧ addr ≤ 0xAF))
  else false

/-- The stated ranges of writable fields (R228): address, place, width, least and greatest value. -/
def mgmtRanges : List (Nat × Nat × Nat × Nat × Nat) := [
  (0x1A, 0, 13, 0, 8000), (0x35, 16, 16, 1, 65535), (0x45, 16, 16, 1, 65535), (0x36, 0, 3, 0, 5), (0x46, 0, 3, 0, 5),
  (0x56, 0, 4, 0, 11), (0x56, 4, 4, 0, 11), (0x56, 8, 4, 0, 11), (0x56, 12, 4, 0, 11), (0x56, 16, 4, 0, 11),
  (0x56, 20, 4, 0, 11), (0x56, 24, 4, 0, 11), (0x62, 0, 4, 0, 11), (0x70, 0, 4, 0, 11), (0x74, 0, 4, 0, 11),
  (0x78, 0, 4, 0, 11), (0x7C, 0, 4, 0, 11), (0x80, 0, 12, 250, 2500), (0x80, 16, 12, 500, 2500),
  (0xA2, 0, 10, 200, 1100), (0xA3, 0, 16, 1, 65535), (0xA3, 16, 4, 0, 11), (0xA3, 20, 12, 1, 4095),
  (0xB6, 0, 4, 0, 8), (0xD6, 0, 4, 0, 11), (0xD7, 0, 13, 50, 5000), (0xE5, 0, 10, 10, 600)]

/-- Does every field of the word lie in its stated range? -/
def inRanges (addr data : Nat) : Bool :=
  mgmtRanges.all (fun r => decide (r.1 ≠ addr) || (decide (r.2.2.2.1 ≤ bits data r.2.1 r.2.2.1) &&
    decide (bits data r.2.1 r.2.2.1 ≤ r.2.2.2.2)))

/-- A write into a word's fields by their access codes (R5): RW stores, W1C clears, the rest keeps what it holds. -/
def Chip.storeCell (c : Chip) (a addr data : Nat) : Chip :=
  (mgmtAt addr).foldl (fun c f =>
    match f.acc with
    | .rw => c.wr (f.cell a) (bits data f.lo f.width)
    | .w1c => c.wr (f.cell a) (w1c (c.rd (f.cell a)) (bits data f.lo f.width) f.width)
    | _ => c) c

/-- Orders in a word, one per bit from bit 0: each set one is tried in turn; RESULT 2 if one is refused, else 1.
(notes/assumptions: 35 DEDUCED) -/
def Chip.runOrders (c : Chip) (data : Nat) (l : List (Chip → Nat × Chip)) : Nat × Nat × Chip :=
  let r := l.foldl (fun (x : Nat × Nat × Chip) f =>
    let (k, res, c) := x
    if bits data k 1 = 1 then
      let (r, c1) := f c
      (k + 1, if r = 1 then res else r, c1)
    else (k + 1, res, c)) (0, 1, c)
  (r.2.1, data, r.2.2)

/-- An operation's answer without its data word. -/
def noData (x : Nat × Nat × Chip) : Nat × Chip := (x.1, x.2.2)

/-- The level-1 kinds of R329. -/
def level1Kind (k : Nat) : Bool := decide ((1 ≤ k ∧ k ≤ 0x1A) ∨ k = 0x3F)

/-- INJ_GO at a cell (R340, R348): the message of INJ_KIND and INJ_DETAIL is queued with INJECTED. -/
def Chip.cellInject (c : Chip) (a : Nat) : Chip :=
  let k := c.rd (Reg.CFlt.INJ_KIND a)
  if level1Kind k = false then c.wr (Reg.CFlt.INJ_RESULT a) 3
  else if 8 ≤ (c.cmd a).faultQ.length then (c.cellFault a 1 k (c.rd (Reg.CFlt.INJ_DETAIL a)) false true).wr (Reg.CFlt.INJ_RESULT a) 2
  else (c.cellFault a 1 k (c.rd (Reg.CFlt.INJ_DETAIL a)) false true).wr (Reg.CFlt.INJ_RESULT a) 1

/-- The pattern word of a lane port (0x36, 0x46): its settings, then an injection where ordered (R80, R82). -/
def Chip.cellPattern (c : Chip) (a b data : Nat) : Nat × Nat × Chip :=
  let c1 := c.storeCell a (0x36 + 16 * b) data
  let l := LaneRef.cell (Fin.ofNat 16384 a) (Fin.ofNat 2 b)
  let c2 := if bits data 7 1 = 1 then c1.inject none l 1 else c1
  (1, data, if bits data 8 1 = 1 then c2.inject none l (c2.burst l) else c2)

/-- The two calibration coefficients (R242): an offset of a role input that is replaced while a tenure is open commits a
CAL_CHANGE row with the counts of the old one first (R278). -/
def Chip.cellCoef (c : Chip) (a : Nat) (gain : Bool) (data : Nat) : Nat × Nat × Chip :=
  let i := c.rd (Reg.Adc.CAL_SEL a)
  let role := [0, 1, 2, 3, 4, 5, 6].any (fun k => decide (c.role a k = i))
  let c1 := if !gain && role && decide (c.cellState a = 8) && (c.ledger a).openUid.isSome then c.requestCommit a 9 else c
  (1, data, c1.writeCoef a gain data)

/-- WRITE of a register whose state and range allow it (R105): RESULT, DATA and the chip. (notes/assumptions: 35 DEDUCED) -/
def Chip.mgmtStore (c : Chip) (a entryEpoch addr data : Nat) : Nat × Nat × Chip :=
  match addr with
  | 0x05 => c.writeEpoch a entryEpoch data
  | 0x06 =>
    let c1 := c.storeCell a addr data
    (1, data, c1.setCt a { c1.ct a with tagWritten := true })
  | 0x08 => c.runOrders data [fun c => noData (c.enrol a), fun c => noData (c.fenceReq a), fun c => noData (c.unfenceReq a),
      fun c => noData (c.bivouacReq a)]
  | 0x14 => c.writeDelay a 0 data
  | 0x15 => c.writeDelay a 1 data
  | 0x19 => (1, data, c.wr (Reg.CTime.LOSS_ACTION a) (if c.cellIsS a then data % 2 else 0))
  | 0x32 => c.cellTxEq a 0 data
  | 0x42 => c.cellTxEq a 1 data
  | 0x36 => c.cellPattern a 0 data
  | 0x46 => c.cellPattern a 1 data
  | 0x56 => (1, data, (c.storeCell a addr data).syncCal a)
  | 0x59 => c.planData a (some data)
  | 0x63 => c.cellCoef a false data
  | 0x64 => c.cellCoef a true data
  | 0x65 =>
    let c1 := c.storeCell a addr data
    (1, data, if bits data 5 1 = 1 then c1.cellCalGo a else c1)
  | 0xB0 =>
    let (r, c1) := c.canCfgWrite a data
    (r, data, c1)
  | 0xB3 => c.runOrders data [
      fun c => (if (c.restartBus a).1 then 1 else 2, (c.restartBus a).2),
      fun c => (if (c.tx2Go a).1 then 1 else 2, (c.tx2Go a).2), fun c => (1, c.tx2Abort a)]
  | 0xD1 => c.runOrders data [fun c => c.readIds a, fun c => c.packAccept a, fun c => c.packRefuse a, fun c => c.portClose a,
      fun c => c.portOpen a 1, fun c => c.summaryWrite a, fun c => c.calWrite a, fun c => c.packFence a, fun c => c.packUnfence a,
      fun c => c.portOpen a 2]
  | 0xD3 => c.recData a (some data)
  | 0xD9 => c.profData a (some data)
  | 0xE7 => (1, data, if data % 2 = 1 then c.rowFetch a true else c)
  | 0xF4 =>
    let c1 := c.storeCell a addr data
    (1, data, if bits data 8 1 = 1 then c1.cellInject a else c1)
  | 0xF8 => (1, data, if data % 2 = 1 then c.set (Reg.CFlt.FIELD_CLOSE_GO a) else c)
  | _ => (1, data, c.storeCell a addr data)

/-- WRITE to a cell's register (R105, R228, R230): 3 reserved, 2 refused in the state, 5 out of range, else as it is stored.
(notes/assumptions: 35 DEDUCED) -/
def Chip.mgmtWrite (c : Chip) (a entryEpoch addr data : Nat) : Nat × Nat × Chip :=
  if mgmtAt addr = [] ∨ (c.cellIsS a = true ∧ sensorLacks addr = true) then (3, data, c)
  else if writableIn (c.cellState a) addr = false then (2, data, c)
  else if inRanges addr data = false then (5, data, c)
  else c.mgmtStore a entryEpoch addr data

/-- Does the cell take entries at all, and compare their epoch (R105, R118, R210)? -/
def Chip.takesEntries (c : Chip) (a : Nat) : Bool := decide (2 ≤ c.cellState a)

/-- LISTEN and BIVOUAC compare no epoch (R105). -/
def Chip.epochFits (c : Chip) (a epoch : Nat) : Bool :=
  decide (c.cellState a = 2 ∨ c.cellState a = 7 ∨ epoch = c.rd (Reg.CId.EPOCH a))

/-- A WRITE or READ entry addressed to the cell (R105): RESULT, DATA and the chip. It restarts ADMIT_TIMEOUT (R211). -/
def Chip.addressed (c : Chip) (a epoch : Nat) (f : Chip → Nat × Nat × Chip) (data : Nat) : Nat × Nat × Chip :=
  let c1 := c.setCmd a { c.cmd a with lastEntry := (c.ct a).time }
  if c.epochFits a epoch then f c1 else (4, data, c1)

/-- BCAST_WRITE at one cell (R105): only addresses 0x30 to 0x4F, whatever the epoch; true where it is applied. -/
def Chip.bcast (c : Chip) (a addr data : Nat) : Bool × Chip :=
  if 0x30 ≤ addr ∧ addr ≤ 0x4F ∧ mgmtAt addr ≠ [] ∧ inRanges addr data = true then (true, (c.mgmtStore a 0 addr data).2.2)
  else (false, c)

/-! ### The commands -/

/-- MGMT_NOP (R104). -/
def execMgmtNop (_a : CellAddr) (s : State) : Host.Outcome State Fault Refusal := s.run fun c => c

/-- MGMT_WRITE (R105, R228 to R231). -/
def execMgmtWrite (a : CellAddr) (epoch : Fin 65536) (reg : Byte) (data : Word) (s : State) : Host.Outcome State Fault Refusal :=
  s.run fun c =>
    if c.takesEntries a then
      c.answer a (c.addressed a epoch (fun c => c.mgmtWrite a epoch reg.toNat data.toNat) data.toNat)
    else c

/-- MGMT_READ (R105, R228). -/
def execMgmtRead (a : CellAddr) (epoch : Fin 65536) (reg : Byte) (s : State) : Host.Outcome State Fault Refusal :=
  s.runFused fun f c =>
    if c.takesEntries a then
      c.answer a (c.addressed a epoch (fun c => c.mgmtRead (mapGet false f.cellsClosed a) a reg.toNat) 0)
    else c

/-- MGMT_BCAST_WRITE (R105): what one cell of the rope does; its RESULT counts 1 where it applies the write. -/
def execMgmtBcastWrite (a : CellAddr) (reg : Byte) (data : Word) (s : State) : Host.Outcome State Fault Refusal :=
  s.run fun c =>
    if c.takesEntries a then
      let (ok, c1) := c.bcast a reg.toNat data.toNat
      c1.answer a (bit ok, data.toNat, c1)
    else c

/-- A PROBE that names the cell (R106): one echo leaves by the port the frame came in on. -/
def Chip.probed (c : Chip) (a tag b : Nat) : Chip := c.setCmd a { c.cmd a with echo := some (tag, b) }

/-- MGMT_PROBE (R106). -/
def execMgmtProbe (a : CellAddr) (_epoch : Fin 65536) (tag : Byte) (b : LaneIx) (s : State) : Host.Outcome State Fault Refusal :=
  s.run fun c => if c.takesEntries a then c.probed a tag.toNat b else c

end Sys2Proof.Machine
end

