-- ==== Sys2Proof/Machine/CellFrame.lean ====
section
/-! DEFINITION. A cell's frames: its frame start (R209, R98, R113, R114, R217 to R219), the control frame it receives (R90 to R107),
the acknowledgements in commands (R102, R109) and the bulk frame (R108). -/

namespace Sys2Proof.Machine

/-! ### The frame start (R209) -/

/-- The next frame start of the cell at `a` has come. -/
def Chip.cellDue (c : Chip) (a : Nat) : Bool :=
  decide (1 ≤ c.cellState a) && decide ((c.ct a).frameStart + c.cellPeriod a ≤ (c.ct a).time)

/-- The cell's frame number, frame start and angles move on by one frame; E moves on where the number wraps (R90). A frame that
brought the PLL no valid cairn block counts as a missing reference event (R45, R52, R93). -/
def Chip.cellNextFrame (c : Chip) (a : Nat) : Chip :=
  let t := c.ct a
  let p := c.cellPeriod a
  let n := (t.frameNum + 1) % 2 ^ 32
  let ang := [0, 1, 2, 3].map (fun k =>
    ((((t.est.getD k 0 * 65536 + t.estFrac.getD k 0 : Nat) : Int) + t.rates.getD k 0 * ((p / 256 : Nat) : Int)) % (2 ^ 48 : Int)).toNat)
  let miss := decide (1 ≤ t.sinceCairn)
  (c.setCt a { t with
    frameNum := n, frameStart := t.frameStart + p, epoch := if n = 0 then t.epoch + 2 ^ 32 * p else t.epoch
    est := ang.map (· / 65536), estFrac := ang.map (· % 65536), sinceCairn := t.sinceCairn + 1
    pll := if t.refSeen then t.pll else lockCycle t.pll 256 1024 none, refSeen := false }).wrB (Reg.CTime.COASTING a) miss

/-- The measurement values of the frame are frozen, and in a frame with index 8 the energy words with them (R100, R101, R239). -/
def Chip.cellFreeze (c : Chip) (a : Nat) : Chip :=
  let (vals, ok) := c.freeze a
  let x := c.cmd a
  let l := c.ledger a
  let ch := if c.cellIsS a then 0 else l.accCh / 2 ^ 32
  let dis := if c.cellIsS a then 0 else l.accDis / 2 ^ 32
  c.setCmd a { x with
    frozen := vals, sampleValid := ok, swState := c.rd (Reg.Gate.TARGET_NOW a)
    rotLatch := if (c.ct a).frameNum % 16 = 8 then [ch % 2 ^ 32, dis % 2 ^ 32, ch / 2 ^ 32 % 65536 + dis / 2 ^ 32 % 65536 * 65536]
      else x.rotLatch }

/-- The belay plan of the RUN command that executed in the frame that has ended is now in force (R98). -/
def Chip.takePlan (c : Chip) (a : Nat) : Chip :=
  match (c.cmd a).now with
  | some b =>
    if b.mode = 1 ∧ (c.cmd a).lastMode = some 1 then
      (((c.wr (Reg.Gate.PLAN_LO a) b.belayLo).wr (Reg.Gate.PLAN_HI a) b.belayHi).wr (Reg.Gate.PLAN_POL a) b.belayPol).wr
        (Reg.Gate.PLAN_CH a) b.belayCh
    else c
  | none => c

/-- A held command executes at the frame start (R98, R210, R211): in ADMIT only CONV_PLAN acts; in READY, ACTIVE and BELAY its
state change is made, its fields apply and the gate timing unit is loaded. A WN140-S stays in READY whatever the MODE (R226).
(notes/assumptions: 36 DEDUCED) -/
def Chip.execHeld (c : Chip) (a : Nat) (b : CmdBlk) : Chip :=
  let st := c.cellState a
  let mode := if c.cellIsS a then 0 else b.mode
  if st = 3 then c.convPlan a b.convPlan
  else if 4 ≤ st ∧ st ≤ 6 then
    let new := if mode = 1 then 5 else 4
    let c1 := if st = new then c else c.enterState a new (if mode = 1 then 4 else 5)
    let c2 := ((c1.convPlan a b.convPlan).setDcdc a b.dcdcEn b.iBattRef).setCorrEn a b.corrEn
    let c3 := c2.corrRestart a b.corrRestart
    let c4 := if b.ledgerCommit then c3.ledgerCommit a else c3
    let c5 := (c4.setCmd a { c4.cmd a with lastMode := some mode }).clr (Reg.Gate.BELAY_RUN a)
    let t0 := c5.cellTick a
    let edges := if mode = 1 then (b.edges.take b.nEdges).map (fun e => (t0 + e.1, e.2)) else []
    let tgt := if mode = 1 then b.initial else if mode = 2 then 3 else 0
    (c5.setGate a { c5.gate a with schedule := edges }).setBase a (if tgt = 3 then 4 else if mode = 1 then 5 else 7) tgt
  else c

/-- A frame without a command (R113, R114, R217): after a RUN the cell runs its belay plan, and enters BELAY in the second such frame;
after a BYPASS or BLOCK it holds that. The horizon takes it to BIVOUAC. (notes/assumptions: 36 DEDUCED) -/
def Chip.execGap (c : Chip) (a : Nat) : Chip :=
  let st := c.cellState a
  if 4 ≤ st ∧ st ≤ 6 then
    let x := c.cmd a
    let now := (c.ct a).frameStart
    let tb := x.tb.getD now
    if tb + 20480000 ≤ now then c.toBivouac a 7
    else
      let c1 := c.setCmd a { x with tb := some tb, gapFrames := x.gapFrames + 1 }
      if x.lastMode = some 1 then
        let c2 := if st = 5 ∧ 2 ≤ x.gapFrames + 1 then c1.enterState a 6 6 else c1
        let c3 := (c2.setCmd a { c2.cmd a with belayFrames := (c2.cmd a).belayFrames + 1 }).set (Reg.Gate.BELAY_RUN a)
        c3.loadBelay a
      else c1.setGate a { c1.gate a with schedule := [] }
  else c

/-- One frame start of the cell at `a` (R209): values are frozen, the state changes due are made, the command fields apply, and the
gate timing unit is loaded. DELAY_APPLY and BELAY_ENTRY are among them. (notes/assumptions: 36 DEDUCED) -/
def Chip.cellFrame (c : Chip) (a : Nat) : Chip :=
  let c0 := ((c.cellNextFrame a).settleCorr a (c.ct a) (c.cellPeriod a / 256)).cellFreeze a
  let c1 := ((c0.takePlan a).applyDelays a).incSat (Reg.CId.STATE_FRAMES a)
  let x := c1.cmd a
  let n := (c1.ct a).frameNum
  let b := findKey n x.held
  let c2 := c1.setCmd a { x with
    held := x.held.filter (fun e => decide (0 < signedDiff 32 e.1 n)), now := b
    tb := if b.isSome then none else x.tb, gapFrames := if b.isSome then 0 else x.gapFrames }
  let c3 := match b with
    | some k => c2.execHeld a k
    | none => c2.execGap a
  c3.loadPlan a

/-- MODE of the command that the cell holds for its next frame. -/
def Chip.heldMode (c : Chip) (a : Nat) : Option Nat :=
  (findKey (((c.ct a).frameNum + 1) % 2 ^ 32) (c.cmd a).held).map (fun b => b.mode)

/-- CELL_FRAME_START (R209). `vdd33` and `dieTemp` are the readings of the cell's own monitors (R101, word 7).
(notes/assumptions: 12 DESIGN CHOICE) -/
def execCellFrameStart (a : CellAddr) (dt vdd33 : Nat) (dieTemp : Int) (s : State) : Host.Outcome State Fault Refusal :=
  s.run fun c0 =>
    let c := c0.cellAdvance a dt
    let c1 := c.setCmd a { c.cmd a with vdd33 := vdd33 % 65536, dieTemp := ofSigned 16 dieTemp }
    if c1.cellDue a then c1.cellFrame a else c1

/-- The frame start of a cell that holds a command of the given MODE for the frame. -/
def Chip.cellFrameHolding (c : Chip) (a dt mode : Nat) : Chip :=
  let c1 := c.cellAdvance a dt
  if c1.cellDue a && decide (c1.heldMode a = some mode) then c1.cellFrame a else c1

/-- CMD_RUN (R98): the frame start at which a held RUN command executes. (notes/assumptions: 36 DEDUCED) -/
def execCmdRun (a : CellAddr) (dt : Nat) (s : State) : Host.Outcome State Fault Refusal := s.run fun c => c.cellFrameHolding a dt 1

/-- CMD_BYPASS (R98): the frame start at which a held BYPASS command executes. (notes/assumptions: 36 DEDUCED) -/
def execCmdBypass (a : CellAddr) (dt : Nat) (s : State) : Host.Outcome State Fault Refusal := s.run fun c => c.cellFrameHolding a dt 0

/-- CMD_BLOCK (R98): the frame start at which a held BLOCK command executes. (notes/assumptions: 36 DEDUCED) -/
def execCmdBlock (a : CellAddr) (dt : Nat) (s : State) : Host.Outcome State Fault Refusal := s.run fun c => c.cellFrameHolding a dt 2

/-- BELAY_HORIZON (R113, R114, R218): 80 µs without a command, unless that instant is the start of a frame the cell holds a command
for. (notes/assumptions: 36 DEDUCED) -/
def execBelayHorizon (a : CellAddr) (dt : Nat) (s : State) : Host.Outcome State Fault Refusal :=
  s.run fun c0 =>
    let c := c0.cellAdvance a dt
    let st := c.cellState a
    match (c.cmd a).tb with
    | none => c
    | some t =>
      let atStart := decide (t + 20480000 = (c.ct a).frameStart + c.cellPeriod a) && (c.heldMode a).isSome
      if 4 ≤ st ∧ st ≤ 6 ∧ t + 20480000 ≤ (c.ct a).time ∧ atStart = false then c.toBivouac a 7 else c

/-! ### The cairn block at a cell (R49 to R53, R90 to R94) -/

/-- The word that completes E has come: E in 2^-8 ns from words 4 to 7, 12 and 13 (R91). Fractions below 2^-8 ns are dropped.
(notes/assumptions: 10 DEDUCED) -/
def epochOf (words : List (Nat × Nat)) : Option Nat :=
  match findKey 4 words, findKey 5 words, findKey 6 words, findKey 7 words, findKey 12 words, findKey 13 words with
  | some w4, some w5, some w6, some w7, some w12, some w13 =>
    some (((w4 + w5 * 2 ^ 16 + w6 * 2 ^ 32) * 1000000000 + w7 + w12 % 2 ^ 14 * 2 ^ 16) * 256 + w13 / 256)
  | _, _, _, _, _, _ => none

/-- One channel of a valid cairn block (R92): the angle is rebuilt, RATE taken, ANGLE_RESET noted. -/
def CTimeSt.cairnChan (t : CTimeSt) (x : Cairn) (k : Nat) : Nat × Int × Bool × Bool :=
  let pred := t.est.getD k 0
  let est := ((pred : Int) + toSigned 16 (x.angleLo.getD k 0 + (65536 - pred % 65536))) % (2 ^ 32 : Int)
  (est.toNat, toSigned 32 (x.rate24.getD k 0 * 256), decide (bits x.valid k 1 = 1),
    t.waitRot.getD k false || decide (bits x.angleReset k 1 = 1))

/-- The ROT word of a valid cairn block, with index `n` mod 16 (R91, R92, R94): an angle word, which a disagreement makes the value
and a fault; a word of E; or the ROUTE_TAG. -/
def Chip.cellRot (c : Chip) (a n : Nat) (x : Cairn) : Chip :=
  let i := n % 16
  let t := c.ct a
  if i % 8 < 4 then
    let k := i % 8
    let full := x.rot * 65536 + x.angleLo.getD k 0
    let t1 := { t with est := t.est.set k full, waitRot := t.waitRot.set k false }
    if t.waitRot.getD k false then c.setCt a t1
    else if t.est.getD k 0 / 65536 = x.rot then c
    else
      let c1 := c.setCt a t1
      (c1.setCmd a { c1.cmd a with angleMismatch := (c1.cmd a).angleMismatch + 1 }).cellFault a 1 0x04 k false false
  else if i = 14 then
    let st := c.cellState a
    if t.tagWritten = true ∧ 3 ≤ st ∧ st ≤ 6 ∧ x.rot ≠ c.rd (Reg.CId.ROUTE_TAG a) then c.toBivouac a 8 else c
  else if i = 15 then c
  else
    let t1 := { t with words := insertKey i x.rot t.words }
    match epochOf t1.words with
    | none => c.setCt a t1
    | some e =>
      if t.resetting ∨ e ≠ t.epoch then
        c.setCt a { t1 with words := [], epoch := e, resetting := false, directSet := true
                            frameStart := e + n * (if x.frame20 then 5120000 else 2560000) }
      else c.setCt a { t1 with words := [] }

/-- The cell PLL at a valid cairn block that came in at port `b` (R49, R50, R52, R53): a direct set (in ADMIT again, once a DELAY that
waits for its frame boundary is applied), a frame of an epoch reset that moves nothing, or an error that moves the rate. -/
def Chip.cellPll (c : Chip) (a b n : Nat) (x : Cairn) : Chip :=
  let t := c.ct a
  let p := if x.frame20 then 5120000 else 2560000
  let d := if b = 0 then t.appliedA else t.appliedB
  let other := if b = 0 then t.appliedB else t.appliedA
  if d = 0 ∧ other ≠ 0 then c
  else
    let said : Int := ((t.epoch + n * p + d : Nat) : Int) - x.launchEarly
    let from0 := (c.wr (Reg.CTime.FROM_B a) b).clr (Reg.CTime.ON_CRYSTAL a)
    let waits := (t.writtenA && decide (t.appliedA ≠ c.rd (Reg.CTime.DELAY_A a))) ||
      (t.writtenB && decide (t.appliedB ≠ c.rd (Reg.CTime.DELAY_B a)))
    if t.directSet then from0.setCt a { t with
      time := said.toNat, refSeen := true, directSet := decide (c.cellState a = 3) && waits }
    else
      let err : Int := if t.resetting then 0 else (t.time : Int) - said
      let c1 := from0.setCt a { t with
        refSeen := true, pll := lockCycle t.pll 256 1024 (some err.natAbs), rate := if t.resetting then t.rate else t.rate + Config.pllStep err
        badFrames := if 1024 < err.natAbs then t.badFrames + 1 else 0 }
      c1.wrI (Reg.CTime.PHASE_ERR a) (satSigned 8 (err / 64))

/-- A valid cairn block of an outbound frame at port `b` (R49, R50, R90 to R92). -/
def Chip.cairnIn (c : Chip) (a b : Nat) (x : Cairn) : Chip :=
  let t := c.ct a
  let n := x.frameNum
  let p := if x.frame20 then 5120000 else 2560000
  let starts := x.epochReset && !t.resetSeen
  let ch := [0, 1, 2, 3].map (fun k => t.cairnChan x k)
  let t1 := { t with
    frameNum := n, frameStart := if n = t.frameNum ∧ x.frame20 = t.frame20 then t.frameStart else t.epoch + n * p
    sinceCairn := 0, frame20 := x.frame20, timeValid := x.timeValid, resetSeen := x.epochReset
    resetting := t.resetting || starts, words := if starts then [] else t.words
    est := ch.map (fun e => e.1), estFrac := [0, 0, 0, 0], rates := ch.map (fun e => e.2.1), valid := ch.map (fun e => e.2.2.1)
    waitRot := ch.map (fun e => e.2.2.2) }
  let c1 := ((c.setCt a t1).clr (Reg.CTime.COASTING a)).cellRot a n x
  let c2 := c1.cellPll a b n x
  -- a correlator whose channel is no longer usable loses its window (R245)
  let c3 := ([0, 1, 2, 3].foldl (fun c k =>
    if 2 ≤ (c.corr a k).phase ∧ c.chanUsable a (c.rd (Reg.Corr.REF_CH a k)) = false then c.abortCorr a k 1 else c) c2).syncCorr a
  if c3.on (Reg.Gate.BELAY_RUN a) then c3.loadBelay a else c3

/-! ### Commands, acknowledgements and reports (R99 to R102, R109) -/

/-- FAULT_ACK_T of an accepted command: the head with that toggle is removed (R102). -/
def Chip.faultAck (c : Chip) (a t : Nat) : Chip :=
  if c.on (Reg.CFlt.HEAD_VALID a) && decide (c.rd (Reg.CFlt.HEAD_T a) = t % 2) then c.dropFault a else c

/-- The records behind the one with sequence number `seq`, if it is queued. -/
def bulkAfter (seq : Nat) : List BulkRec → Option (List BulkRec)
  | [] => none
  | r :: l => if r.seq = seq % 256 then some l else bulkAfter seq l

/-- BULK_ACK of an accepted command: the queued records up to the one named are dropped (R109). -/
def Chip.bulkAck (c : Chip) (a seq : Nat) : Chip :=
  let x := c.cmd a
  match bulkAfter seq x.bulkQ with
  | some l => c.setCmd a { x with bulkQ := l }
  | none => c

/-- FAULT_ACK (R102). -/
def execFaultAck (a : CellAddr) (t : Fin 2) (s : State) : Host.Outcome State Fault Refusal := s.run fun c => c.faultAck a t

/-- BULK_ACK (R109). -/
def execBulkAck (a : CellAddr) (seq : Byte) (s : State) : Host.Outcome State Fault Refusal := s.run fun c => c.bulkAck a seq.toNat

/-- SLOT_COMMAND_ACCEPT (R99): the command for the frame after `f` is held, or counted and treated as absent. Answers whether it was
accepted. An accepted command's acknowledgements and bulk grant act at once. -/
def Chip.acceptSlot (c : Chip) (a f : Nat) (slot : List Nat) : Bool × Chip :=
  let x := c.cmd a
  let next := (f + 1) % 2 ^ 32
  let st := c.cellState a
  match CmdBlk.read slot with
  | none => (false, c)
  | some b =>
    if b.empty ∨ st ≤ 2 ∨ st = 7 ∨ st = 8 then (false, c)
    else if b.target % 16384 ≠ c.rd (Reg.CId.CELL_ADDR a) then (false, c.setCmd a { x with cmdInvalid := x.cmdInvalid + 1 })
    else if b.epoch ≠ c.rd (Reg.CId.EPOCH a) then (false, c.setCmd a { x with epochReject := x.epochReject + 1 })
    else if b.seq ≠ next % 65536 then (false, c.setCmd a { x with seqReject := x.seqReject + 1 })
    else if (findKey next x.held).isSome then (false, c.setCmd a { x with cmdDup := x.cmdDup + 1 })
    else if b.wellFormed (if (c.ct a).frame20 then 25000 else 12500) = false then
      (false, (c.setCmd a { x with cmdInvalid := x.cmdInvalid + 1 }).cellFault a 1 0x02 b.mode false false)
    else
      let c1 := c.setCmd a { x with
        held := x.held ++ [(next, b)], grant := if 0 < b.bulkBlocks then some (b.bulkAt, b.bulkBlocks) else none }
      let c2 := if b.ackValid then c1.faultAck a b.ackT else c1
      (true, if b.bulkAckValid then c2.bulkAck a b.bulkAck else c2)

/-- Report word 11 (R101): SOC in 0.01 % of BMS target 1, 0xFFFF where it is stale or absent, with BMS_FLAGS above it. A WN140-S has no
pack port. (notes/assumptions: 43 DEDUCED) -/
def Chip.bmsWord (c : Chip) (a : Nat) : Nat :=
  if c.cellIsS a then 0 else c.mirrorField a 1 100 false % 65536 + c.bmsFlags a % 65536 * 65536

/-- The rotating report word of frame `f` (R101). -/
def Chip.reportRot (c : Chip) (a f : Nat) : Nat :=
  let x := c.cmd a
  let two (lo hi : Nat) : Nat := lo % 65536 + hi % 65536 * 65536
  match f % 16 with
  | 0 => two (c.rd (Reg.CTime.LATE_COUNT a)) (c.rd (Reg.CTime.DROPPED_COUNT a))
  | 1 => two (c.rd (Reg.CLane.BLOCK_ERR_COUNT a 0)) (c.rd (Reg.CLane.BLOCK_ERR_COUNT a 1))
  | 2 => two (c.rd (Reg.CLane.FWD_ERR_COUNT a 0)) (c.rd (Reg.CLane.FWD_ERR_COUNT a 1))
  | 3 => two (ofSigned 16 (c.rdI (Reg.CTime.PHASE_ERR a))) (c.rd (Reg.CLane.RX_EQ a 0) + 16 * c.rd (Reg.CLane.RX_EQ a 1))
  | 4 => two x.cmdInvalid x.cmdDup
  | 5 => two x.seqReject x.epochReject
  | 6 => two x.belayFrames x.angleMismatch
  | 7 => two x.vdd33 x.dieTemp
  | 8 => x.rotLatch.getD 0 0
  | 9 => x.rotLatch.getD 1 0
  | 10 => x.rotLatch.getD 2 0
  | 11 => c.bmsWord a
  | 12 => (c.corrStatus a 0) + 2 ^ 8 * c.corrStatus a 1 + 2 ^ 16 * c.corrStatus a 2 + 2 ^ 24 * c.corrStatus a 3
  | 13 => two (x.faultQ.length + 16 * c.rd (Reg.CFlt.QUEUE_DROPPED a)) (c.meas1 a).ovrTotal
  | 14 => two (c.rd (Reg.CId.ROUTE_TAG a)) (c.rd (Reg.Adc.PLAN_NOW a))
  | _ => two (c.rd (Reg.CId.CELL_ADDR a) + 16384 * bit (c.cellIsS a)) (c.rd (Reg.CTime.TURN a))

/-- The report of frame `f` (R99, R100). -/
def Chip.reportOf (c : Chip) (a f : Nat) : Report :=
  let x := c.cmd a
  let t := c.ct a
  let fault := c.on (Reg.CFlt.HEAD_VALID a)
  let flags : List Bool := [x.now.isSome, c.on (Reg.Gate.BELAY_RUN a)]
  let st := c.cellState a % 16 + (((List.range 2).map (fun k => 2 ^ (4 + k) * bit (flags.getD k false))).sum) + 64 * (x.swState % 4)
    + 2 ^ 8 * bit t.pll.locked + 2 ^ 9 * c.rd (Reg.CTime.FROM_B a) + 2 ^ 10 * bit x.sampleValid + 2 ^ 11 * bit fault
    + 2 ^ 12 * c.rd (Reg.CFlt.HEAD_T a) + 2 ^ 13 * bit (decide (x.bulkQ ≠ [])) + 2 ^ 14 * bit x.ovrSeen
    + 2 ^ 15 * c.rd (Reg.Prot.LOCAL_HOLD a)
  ⟨c.rd (Reg.CId.EPOCH a), st, x.frozen, if fault then x.faultQ.headD 0 else 0, c.reportRot a f⟩

/-- The slot that the cell writes its report into (R212): in LISTEN before CELL_ADDR is written, the HOPS value of the last outbound
A-frame; from then on the position of CELL_ADDR. -/
def Chip.reportPos (c : Chip) (a : Nat) : Option Nat :=
  if c.cellState a < 2 then none
  else if c.rd (Reg.CId.EPOCH a) = 0 then (c.cmd a).lastHops else some (c.rd (Reg.CId.CELL_ADDR a) % 64)

/-! ### Management entries in a frame (R104 to R106, R229) -/

/-- Does an entry name this cell: by CELL_ADDR, or in LISTEN and BIVOUAC by the HOPS value on arrival (R229)? -/
def Chip.entryNames (c : Chip) (a addr hops : Nat) : Bool :=
  if c.cellState a = 2 ∨ c.cellState a = 7 then decide (addr % 64 = hops) else decide (addr = c.rd (Reg.CId.CELL_ADDR a))

/-- One management entry passes the cell: the bytes that leave, and the chip. -/
def Chip.entryAt (c : Chip) (closed : Bool) (a b hops : Nat) (bytes : List Nat) : List Nat × Chip :=
  match MgmtEntry.read bytes with
  | none => (bytes, c)
  | some e =>
    let mine := c.entryNames a e.addr hops
    if c.takesEntries a = false then (bytes, c)
    else if e.op = 1 ∧ mine = true then
      let (r, d, c1) := c.addressed a e.epoch (fun c => c.mgmtWrite a e.epoch e.reg e.data) e.data
      ({ e with result := r, data := d }.bytes, c1)
    else if e.op = 2 ∧ mine = true then
      let (r, d, c1) := c.addressed a e.epoch (fun c => c.mgmtRead closed a e.reg) e.data
      ({ e with result := r, data := d }.bytes, c1)
    else if e.op = 3 then
      let (ok, c1) := c.bcast a e.reg e.data
      ((if ok then { e with result := min 255 (e.result + 1) }.bytes else bytes), c1)
    else if e.op = 4 ∧ mine = true then (bytes, c.probed a e.tag b)
    else (bytes, c)

/-- The sixteen entries of a frame in order. -/
def Chip.entriesAt (c : Chip) (closed : Bool) (a b hops : Nat) : List (List Nat) → List (List Nat) × Chip
  | [] => ([], c)
  | e :: l =>
    let (x, c1) := c.entryAt closed a b hops e
    let (xs, c2) := c1.entriesAt closed a b hops l
    (x :: xs, c2)

/-! ### Control and bulk frames -/

/-- A frame passes the cell (R95): a returned one is forwarded as it is; an outbound one is processed, and turned where the onward
port is down and its first BREAK has left. `slot` is the content of the slot that the cell writes, `hops` the HOPS byte on arrival.
(notes/assumptions: 36 DEDUCED) -/
def Chip.controlFrame (c : Chip) (closed : Bool) (a b : Nat) (cairn slot : List Nat) (entries : List (List Nat)) (hops : Nat) : Chip :=
  let fromB := bits (cairn.getD 1 0) 7 1
  let on := 1 - b
  if c.on (Reg.CLane.PORT_UP a b) = false ∨ c.cellState a = 0 then c
  else if fromB ≠ b then
    c.setCmd a { c.cmd a with out := some ⟨on, false, none, slot, entries, false, hops, 0x7F⟩ }
  else
    let pos := c.reportPos a
    let c := c.setCmd a { c.cmd a with grant := none }
    let c0 := if b = 0 then c.setCmd a { c.cmd a with lastHops := some (hops % 64) } else c
    let c1 := match Cairn.read cairn with
      | some x => c0.cairnIn a b x
      | none => c0
    let f := (c1.ct a).frameNum
    let (ok, c2) := c1.acceptSlot a f slot
    let (slot', c3) := match pos with
      | some _ =>
        ((c2.reportOf a f).bytes, (c2.setCmd a { c2.cmd a with ovrSeen := false }).corrReported a)
      | none => (slot, c2)
    let (es, c4) := c3.entriesAt closed a b (hops % 64) entries
    let turned := c4.portDown a on && (c4.clane a b).brkSent
    c4.setCmd a { c4.cmd a with
      out := some ⟨if turned then b else on, turned, pos, slot', es, ok, (hops + 1) % 256,
        if turned then c4.rd (Reg.CId.CELL_ADDR a) % 64 else 0x7F⟩ }

/-- CONTROL_FRAME_RX (R95): `b` is the port of arrival. (notes/assumptions: 12 DESIGN CHOICE) -/
def execControlFrameRx (a : CellAddr) (dt : Nat) (b : LaneIx) (cairn slot : List Byte) (entries : List (List Byte)) (hops : Byte)
    (s : State) : Host.Outcome State Fault Refusal :=
  s.runFused fun f c =>
    (c.cellAdvance a dt).controlFrame (mapGet false f.cellsClosed a) a b (cairn.map BitVec.toNat) (slot.map BitVec.toNat)
      (entries.map (fun e => e.map BitVec.toNat)) hops.toNat

/-- BULK_FRAME_RX (R108): a cell with a grant inside the body of `body` blocks writes its oldest record, if it fits. -/
def execBulkFrameRx (a : CellAddr) (body : Nat) (s : State) : Host.Outcome State Fault Refusal :=
  s.run fun c =>
    let x := c.cmd a
    match x.grant, x.bulkQ with
    | some (at0, n), r :: _ =>
      let fits := decide (r.payload.length / 8 + 1 ≤ n) && decide (at0 + n ≤ body)
      c.setCmd a { x with grant := none, bulkOut := if fits then some (at0, bulkHeader a r ++ r.payload) else none }
    | _, _ => c.setCmd a { x with grant := none, bulkOut := none }

end Sys2Proof.Machine
end

