-- ==== Sys2Proof/Machine/Block.lean ====
section
/-! DEFINITION. What stops the converter, as operations every chapter shares: blocking regions (R333, R366, R386), the safe
outputs going off (R368), the station trip (R332, R342), and the factor that scales the order envelopes (R383). -/

namespace Sys2Proof.Machine

/-- The regions of a mask become blocked; the instances whose regions are newly blocked are cancelled (R200, R333). -/
def Chip.blockRegions (c : Chip) (mask : Nat) : Chip :=
  let old := c.rd Reg.Ord.BLOCKED
  let new := mask &&& (0xFF ^^^ old)
  let before := if c.orders.justBlocked.2 = c.frame then c.orders.justBlocked.1 else 0
  let c1 := (c.wr Reg.Ord.BLOCKED (old ||| mask))
  let c2 := { c1 with orders := { c1.orders with justBlocked := (before ||| (mask &&& 0xFF), c.frame) } }
  if new = 0 then c2 else c2.blockTasks new

/-- SCALE: the smaller of FAULT_DERATE while station derate is in force and DEGRADED_POWER in the degraded mode; a change clamps
the targets again (R383). -/
def Chip.setScale (c : Chip) : Chip :=
  let a := if c.on Reg.Flt.DERATE_ACTIVE then c.rd Reg.Flt.FAULT_DERATE else 100
  let b := if c.on Reg.Saf.DEGRADED then c.rd Reg.Saf.DEGRADED_POWER else 100
  if c.rd Reg.Ord.SCALE = min a b then c else (c.wr Reg.Ord.SCALE (min a b)).rescaled

/-! ### Safe outputs (R366, R368, R369) -/

/-- A safe output beyond its registers. -/
def Chip.safOut (c : Chip) (y : Nat) : SafOutSt := mapGet SafOutSt.off c.safety.outs y

/-- Replace the record of a safe output. -/
def Chip.setSafOut (c : Chip) (y : Nat) (x : SafOutSt) : Chip :=
  { c with safety := { c.safety with outs := mapSet SafOutSt.off c.safety.outs y x } }

/-- Is safe output `y` energised? -/
def Chip.outOn (c : Chip) (y : Nat) : Bool := decide (bits (c.rd Reg.Saf.SO_ON) y 1 = 1)

/-- OFF_DELAY of an output, ms. -/
def Chip.offDelay (c : Chip) (y : Nat) : Nat := if y = 0 then c.rd Reg.Saf.OFF_DELAY0 else c.rd Reg.Saf.OFF_DELAY1

/-- Set or clear one bit of a map. -/
def Chip.putBit (c : Chip) (f : Fld) (k : Nat) (v : Bool) : Chip :=
  let m := c.rd f
  c.wr f (if bits m k 1 = bit v then m else if v then m + 2 ^ k else m - 2 ^ k)

/-- Safe output `y` is de-energised; its feedback now has to follow. -/
def Chip.outOff (c : Chip) (y : Nat) : Chip :=
  if c.outOn y then (c.putBit Reg.Saf.SO_ON y false).setSafOut y { c.safOut y with offDue := none, changed := some c.runNs }
  else c.setSafOut y { c.safOut y with offDue := none }

/-- Both outputs are de-energised at once. -/
def Chip.outsOff (c : Chip) : Chip := (c.outOff 0).outOff 1

/-- Safe output `y` is de-energised once its OFF_DELAY has run (R366). A delay that runs already is not restarted. -/
def Chip.outStop (c : Chip) (y : Nat) : Chip :=
  if c.offDelay y = 0 then c.outOff y
  else if c.outOn y && (c.safOut y).offDue.isNone then
    c.setSafOut y { c.safOut y with offDue := some (c.runNs + c.offDelay y * 1000000) }
  else c

/-! ### Trip (R332, R342) -/

/-- The station trips: TRIP_N low, the safe outputs de-energised, every region blocked (R332). (notes/assumptions: 30 DEDUCED) -/
def Chip.tripStation (c : Chip) : Chip := ((c.set Reg.Flt.TRIP).outsOff).blockRegions 0xFF

/-- The safety block demands a trip and holds the demand: TRIP_N low, every region blocked, and every energised output
de-energised once its own OFF_DELAY has run (R366, R368). -/
def Chip.demandTrip (c : Chip) : Chip :=
  ((((c.set Reg.Saf.TRIP_DEMAND).set Reg.Flt.TRIP).outStop 0).outStop 1).blockRegions 0xFF

end Sys2Proof.Machine
end

