-- ==== Sys2Proof/Machine/SafetyBlock.lean ====
section
/-! DEFINITION. The safety block (chapter 17): input states and faults (R362 to R365), demands and stops (R366), the safe outputs
and their feedback (R368, R369), the degraded mode (R370) and the safety reset. -/

namespace Sys2Proof.Machine

/-! ### Inputs -/

/-- A safety input beyond its registers. -/
def Chip.safIn (c : Chip) (x : Nat) : SafInSt := mapGet SafInSt.start c.safety.ins x

/-- Replace the record of a safety input. -/
def Chip.setSafIn (c : Chip) (x : Nat) (i : SafInSt) : Chip :=
  { c with safety := { c.safety with ins := mapSet SafInSt.start c.safety.ins x i } }

/-- Is input `x` a stop input: E_STOP, GUARD or OSSD (R366)? -/
def Chip.isStop (c : Chip) (x : Nat) : Bool := decide (c.rd (Reg.SafIn.FUNCTION x) ∈ [1, 2, 4])

/-- Are both filtered channels of an input high? -/
def Chip.bothHigh (c : Chip) (x : Nat) : Bool := c.on (Reg.SafIn.CH_A x) && c.on (Reg.SafIn.CH_B x)

/-- DEMAND_MAP, FAULT_MAP and the state of an input follow it (R365: a two-hand input never shows in DEMAND_MAP). -/
def Chip.setInState (c : Chip) (x st : Nat) : Chip :=
  let c1 := if c.rd (Reg.SafIn.IN_STATE x) = st then c
    else (c.wr (Reg.SafIn.IN_STATE x) st).wr (Reg.SafIn.LAST_CHANGE x) c.stamp
  (c1.putBit Reg.Saf.DEMAND_MAP x (c1.isStop x && decide (st ≠ 1))).putBit Reg.Saf.FAULT_MAP x (decide (st = 2))

/-- Is the input in the degraded mode (R370)? -/
def Chip.degraded (c : Chip) (x : Nat) : Bool := c.on (Reg.SafIn.IN_DEGRADED x)

/-- The degraded mode ends: the input leaves it and the envelopes are scaled by it no longer. -/
def Chip.endDegraded (c : Chip) (x : Nat) : Chip :=
  if c.degraded x then
    ((((c.clr (Reg.SafIn.IN_DEGRADED x)).clr Reg.Saf.DEGRADED).clr Reg.Saf.DEGRADED_INPUT).clr Reg.Saf.DEGRADED_LEFT).setScale
  else c

/-- The stop of R366 for input `x`: every region blocked, its outputs de-energised after their delays, and a trip demanded where
`trip` says so. -/
def Chip.stopInput (c : Chip) (x : Nat) (trip : Bool) : Chip :=
  let m := c.rd (Reg.SafIn.OUT_MASK x)
  let c1 := c.blockRegions 0xFF
  let c2 := [0, 1].foldl (fun c y => if bits m y 1 = 1 then c.outStop y else c) c1
  if trip then c2.demandTrip else c2

/-- A demand of a stop input (R366): counted and logged by the block; it raises no fault. (notes/assumptions: 30 DEDUCED) -/
def Chip.demand (c : Chip) (x : Nat) : Chip :=
  let c1 := (((c.inc (Reg.SafIn.DEMANDS x)).inc Reg.Saf.DEMAND_COUNT).set Reg.Saf.DEMAND_SEEN).wr Reg.Saf.LAST_DEMAND_STAMP c.stamp
  let c2 := if c.on (Reg.SafIn.AUTO_RESET x) then c1 else c1.setSafIn x { c1.safIn x with demanded := true }
  c2.stopInput x (c.on (Reg.SafIn.TRIP_ON_DEMAND x))

/-- A fault of input `x` is counted and raised (R371). `b` says that it concerns channel B. -/
def Chip.noteInFault (c : Chip) (x cause : Nat) (b : Bool) : Chip :=
  ((((c.inc (Reg.SafIn.FAULTS x)).inc Reg.Saf.INPUT_FAULT_COUNT).set Reg.Saf.INPUT_FAULT_SEEN).wr (Reg.SafIn.LAST_CAUSE x)
    cause).raise 6 (0x30 + x) 0xA6 (cause + 16 * bit b)

/-- Input `x` enters FAULT: the degraded mode where R370 permits it, else the stop of R366. A two-hand input only makes its
function unsatisfiable (R365). -/
def Chip.faultInput (c : Chip) (x cause : Nat) (b : Bool) : Chip :=
  let was := c.rd (Reg.SafIn.IN_STATE x)
  let c1 := (if was = 2 then c else (c.noteInFault x cause b)).setInState x 2
  let c2 := c1.setSafIn x { c1.safIn x with cleanFrom := c1.runNs, bothLow := if was = 1 then false else (c1.safIn x).bothLow }
  if was = 2 ∨ c2.isStop x = false then c2
  else if c2.on (Reg.SafIn.DEGRADE_ALLOWED x) && !c2.on Reg.Saf.DEGRADED && !c2.on Reg.Saf.TRIP_DEMAND && decide (cause ≠ 9) then
    let c3 := ((((c2.set (Reg.SafIn.IN_DEGRADED x)).set Reg.Saf.DEGRADED).wr Reg.Saf.DEGRADED_INPUT x).wr Reg.Saf.DEGRADED_LEFT
      (c2.rd Reg.Saf.DEGRADED_TIME)).set Reg.Saf.DEGRADED_SEEN
    { c3 with safety := { c3.safety with degradedAt := c3.runNs } }.setScale
  else
    let c3 := if c2.on (Reg.SafIn.AUTO_RESET x) then c2 else c2.setSafIn x { c2.safIn x with demanded := true }
    c3.stopInput x true

/-- A severity-4 reaction fences input `x` (R371): FAULT with cause 9, never degraded. -/
def Chip.fenceInput (c : Chip) (x : Nat) : Chip :=
  let c1 := c.endDegraded x
  let c2 := c1.setSafIn x { c1.safIn x with fenced := true, cleanFrom := c1.runNs }
  if c2.rd (Reg.SafIn.IN_STATE x) = 2 then
    let c3 := c2.wr (Reg.SafIn.LAST_CAUSE x) 9
    if c3.isStop x then c3.stopInput x true else c3
  else c2.faultInput x 9 false

/-! ### Outputs -/

/-- Is every input that an output is mapped to in RUN, or the degraded one with both channels high, with its demand reset (R368)? -/
def Chip.inputsAllow (c : Chip) (y : Nat) : Bool :=
  (List.range 8).all (fun x =>
    !c.isStop x || decide (bits (c.rd (Reg.SafIn.OUT_MASK x)) y 1 = 0) ||
      ((decide (c.rd (Reg.SafIn.IN_STATE x) = 1) || (c.degraded x && c.bothHigh x)) && !(c.safIn x).demanded))

/-- Safe output `y` is energised if every condition of R368 holds. (notes/assumptions: 30 DEDUCED) -/
def Chip.tryOut (c : Chip) (y : Nat) : Chip :=
  if c.on Reg.Saf.SAFETY_OK && !c.outOn y && c.inputsAllow y && !c.on Reg.Saf.TRIP_DEMAND && !c.on Reg.Flt.TRIP &&
      decide (bits (c.rd Reg.Saf.FB_OPEN) y 1 = 1) && decide (bits (c.rd Reg.Saf.SO_FAULT) y 1 = 0) then
    (c.putBit Reg.Saf.SO_ON y true).setSafOut y ⟨none, some c.runNs, false⟩
  else c

/-- A fault of an output, its feedback or the block (R371): source 0x30 with DETAIL bit 15. -/
def Chip.outFault (c : Chip) (y cause : Nat) : Chip :=
  c.raise 6 0x30 0xA6 (0x8000 + cause + 256 * y)

/-- The read-back of output `y` disagrees with its command: both channels off, cause 5, and a trip demand is held (R368). -/
def Chip.readBackFault (c : Chip) (y : Nat) : Chip :=
  ((((c.outOff y).putBit Reg.Saf.SO_FAULT y true).set Reg.Saf.OUTPUT_FAULT_SEEN).outFault y 5).demandTrip

/-- The safety block itself fails, with cause 8: the failure of R33. Both outputs off and the station trips. -/
def Chip.safetyFails (c : Chip) : Chip :=
  (((c.clr Reg.Saf.SAFETY_OK).set Reg.Saf.TRIP_DEMAND).outFault 0 8).tripStation

/-! ### The two-hand function (R365) -/

/-- Pair `k` after its inputs have been evaluated. -/
def Chip.evalPair (c : Chip) (k : Nat) : Chip :=
  if c.rd (Reg.SafIn.FUNCTION (2 * k)) ≠ 3 then c
  else
    let h := mapGet HandPair.idle c.safety.pairs k
    let s0 := c.rd (Reg.SafIn.IN_STATE (2 * k))
    let s1 := c.rd (Reg.SafIn.IN_STATE (2 * k + 1))
    let put (c : Chip) (h : HandPair) : Chip := { c with safety := { c.safety with pairs := mapSet HandPair.idle c.safety.pairs k h } }
    let c1 := if s0 = 1 ∧ s1 = 1 then c else c.putBit Reg.Saf.TWO_HAND_SAT k false
    if s0 = 0 ∧ s1 = 0 then put c1 ⟨true, none⟩
    else if h.armed = false then c1
    else if s0 = 1 ∧ s1 = 1 then
      let late := match h.first with
        | none => false
        | some t => decide (500000000 < c.runNs - t)
      if late then put ((c1.inc Reg.Saf.TWO_HAND_ASYNC).set Reg.Saf.TWO_HAND_ASYNC_SEEN) ⟨false, none⟩
      else put (c1.putBit Reg.Saf.TWO_HAND_SAT k true) ⟨false, none⟩
    else if s0 = 1 ∨ s1 = 1 then put c1 ⟨true, some (h.first.getD c.runNs)⟩
    else c1

/-! ### Commands -/

/-- One input at one evaluation (R362), on its filtered levels. (notes/assumptions: 30 DEDUCED) -/
def Chip.evalInput (c : Chip) (x : Nat) (a b : Bool) : Chip :=
  if c.rd (Reg.SafIn.FUNCTION x) = 0 then c
  else
    let st := c.rd (Reg.SafIn.IN_STATE x)
    let wasHigh := c.bothHigh x
    let c1 := (c.wrB (Reg.SafIn.CH_A x) a).wrB (Reg.SafIn.CH_B x) b
    let i := c1.safIn x
    let apart := decide (a ≠ b)
    let low := !a && !b
    let i1 : SafInSt := { i with
      apartFrom := if apart then some (i.apartFrom.getD c1.runNs) else none
      cleanFrom := if apart || (low && c.on (Reg.SafIn.PULSED x)) then c1.runNs else i.cleanFrom
      bothLow := if st = 1 then low else i.bothLow || low
      sequence := i.sequence && !low }
    let c2 := c1.setSafIn x i1
    let stop := c2.isStop x
    if st = 2 then
      if stop && c2.degraded x && wasHigh && (!a || !b) then c2.demand x else c2
    else if !a || !b then
      if st = 0 then c2 else if stop then (c2.setInState x 0).demand x else c2.setInState x 0
    else if st = 0 then
      let clean := !c2.on (Reg.SafIn.PULSED x) || (c2.on (Reg.SafIn.PULSE_OK_A x) && c2.on (Reg.SafIn.PULSE_OK_B x))
      if i1.bothLow = false then
        if i1.sequence then c2
        else ((c2.setSafIn x { i1 with sequence := true }).noteInFault x 4 (c.on (Reg.SafIn.CH_A x)))
      else if !clean then c2.setInState x 0
      else if stop && !c2.on (Reg.SafIn.AUTO_RESET x) then c2.setInState x 3
      else c2.setInState x 1
    else c2

/-- SAFETY_EVALUATION (R362): the filtered levels of the eight inputs' channels and of SAFE_FB0 and SAFE_FB1. -/
def execSafetyEvaluation (dt : Nat) (chs : List (Bool × Bool)) (fb0 fb1 : Bool) (s : State) : Host.Outcome State Fault Refusal :=
  s.run fun c0 =>
    let c := c0.advance dt
    if c.on Reg.Saf.SAFETY_OK = false then c
    else
      let c1 := (c.putBit Reg.Saf.FB_OPEN 0 fb0).putBit Reg.Saf.FB_OPEN 1 fb1
      let follow (c : Chip) (y : Nat) (fb : Bool) : Chip :=
        if decide (fb ≠ c.outOn y) then c.setSafOut y { c.safOut y with changed := none } else c
      let c2 := follow (follow c1 0 fb0) 1 fb1
      let c3 := (List.range 8).foldl (fun c x => c.evalInput x (chs.getD x (false, false)).1 (chs.getD x (false, false)).2) c2
      let c4 := [0, 1, 2, 3].foldl (fun c k => c.evalPair k) c3
      let c5 := if c4.on Reg.Saf.DEGRADED then
          c4.wr Reg.Saf.DEGRADED_LEFT (c4.rd Reg.Saf.DEGRADED_TIME - (c4.runNs - c4.safety.degradedAt) / 1000000000)
        else c4
      (c5.tryOut 0).tryOut 1

/-- TEST_PULSE (R363): TPA or TPB (`tpb`) has dropped; per input, whether the pulse was seen on channel A and B, `none` where a
channel was low or its filter was running a real demand. -/
def execTestPulse (dt : Nat) (tpb : Bool) (seen : List (Option Bool × Option Bool)) (s : State) : Host.Outcome State Fault Refusal :=
  s.run fun c0 =>
    let c := c0.advance dt
    if c.on Reg.Saf.SAFETY_OK = false then c
    else
      (List.range 8).foldl (fun c x =>
        if c.rd (Reg.SafIn.FUNCTION x) = 0 ∨ c.on (Reg.SafIn.PULSED x) = false then c
        else
          let (a, b) := seen.getD x (none, none)
          let (own, other) := if tpb then (b, a) else (a, b)
          let ok := if tpb then Reg.SafIn.PULSE_OK_B x else Reg.SafIn.PULSE_OK_A x
          let c1 := match own with
            | none => c
            | some v => c.wrB ok (v && decide (other ≠ some true))
          if other = some true then c1.faultInput x 2 tpb
          else if own = some false then c1.faultInput x 3 tpb
          else c1) c

/-- DISCREPANCY_TIMEOUT (R362): the channels of an input have disagreed for longer than DISC_TIME. -/
def execDiscrepancyTimeout (dt : Nat) (x : Fin 8) (s : State) : Host.Outcome State Fault Refusal :=
  s.run fun c0 =>
    let c := c0.advance dt
    match (c.safIn x).apartFrom with
    | some t =>
      if c.on Reg.Saf.SAFETY_OK && decide (c.rd (Reg.SafIn.DISC_TIME x) * 1000000 < c.runNs - t) &&
          decide (c.rd (Reg.SafIn.IN_STATE x) ≠ 2) then
        c.faultInput x 1 (c.on (Reg.SafIn.CH_A x))
      else c
    | none => c

/-- INPUT_FAULT_CLEAR (R362): 10 test periods without discrepancy and with clean pulses take the input from FAULT to LATCHED; a
fenced input stays (R371). (notes/assumptions: 30 DEDUCED) -/
def execInputFaultClear (dt : Nat) (x : Fin 8) (s : State) : Host.Outcome State Fault Refusal :=
  s.run fun c0 =>
    let c := c0.advance dt
    let i := c.safIn x
    let pulses := !c.on (Reg.SafIn.PULSED x) || (c.on (Reg.SafIn.PULSE_OK_A x) && c.on (Reg.SafIn.PULSE_OK_B x))
    if c.rd (Reg.SafIn.IN_STATE x) = 2 ∧ i.fenced = false ∧ c.bothHigh x = true ∧ pulses = true ∧
        10 * c.rd Reg.Saf.TP_PERIOD * 1000000 ≤ c.runNs - i.cleanFrom then
      c.setInState x 3
    else c

/-- OFF_DELAY_EXPIRY (R366). (notes/assumptions: 44 DEDUCED) -/
def execOffDelayExpiry (dt : Nat) (y : Fin 2) (s : State) : Host.Outcome State Fault Refusal :=
  s.run fun c0 =>
    let c := c0.advance dt
    match (c.safOut y).offDue with
    | some t => if t ≤ c.runNs then c.outOff y else c
    | none => c

/-- SAFETY_RESET (R368). A feedback that has failed to follow refuses it until it shows open (R369).
(notes/assumptions: 30 DEDUCED) -/
def execSafetyReset (p : PortIx) (s : State) : Host.Outcome State Fault Refusal :=
  s.run fun c =>
    let res := Reg.Saf.RESET_RESULT p
    let bad := (List.range 8).any (fun x => c.isStop x &&
      !(decide (c.rd (Reg.SafIn.IN_STATE x) = 1) || decide (c.rd (Reg.SafIn.IN_STATE x) = 3) || (c.degraded x && c.bothHigh x)))
    let fbBad := [0, 1].any (fun y => (c.safOut y).fbFailed && decide (bits (c.rd Reg.Saf.FB_OPEN) y 1 = 0))
    if c.has p .protect = false then c.refuseTo p res 4
    else if c.on Reg.Saf.SAFETY_OK = false then c.wr res 5
    else if bad then c.wr res 2
    else if fbBad then c.wr res 3
    else
      let c1 := (List.range 8).foldl (fun c x =>
        let c1 := c.setSafIn x { c.safIn x with demanded := false }
        if c1.rd (Reg.SafIn.IN_STATE x) = 3 then
          (if c1.degraded x then c1.endDegraded x else c1).setInState x 1
        else c1) ([0, 1].foldl (fun c y => c.setSafOut y { c.safOut y with fbFailed := false })
          ((c.clr Reg.Saf.TRIP_DEMAND).clr Reg.Saf.SO_FAULT))
      ((c1.wr res 1).tryOut 0).tryOut 1

/-- OUTPUT_OFF_PULSE_TEST (R368): one channel of an energised output is switched off for 300 µs; `ok` says that the read-back
showed it off. -/
def execOutputOffPulseTest (dt : Nat) (y _ch : Fin 2) (ok : Bool) (s : State) : Host.Outcome State Fault Refusal :=
  s.run fun c0 =>
    let c := c0.advance dt
    if c.outOn y && !ok then c.readBackFault y else c

/-- SAFE_OUTPUT_READBACK_MISMATCH (R368). -/
def execSafeOutputReadbackMismatch (y : Fin 2) (s : State) : Host.Outcome State Fault Refusal :=
  s.run fun c => if c.on Reg.Saf.SAFETY_OK then c.readBackFault y else c

/-- FB_TIME_EXPIRY (R369): the feedback has not followed the last change of an output. -/
def execFbTimeExpiry (dt : Nat) (y : Fin 2) (s : State) : Host.Outcome State Fault Refusal :=
  s.run fun c0 =>
    let c := c0.advance dt
    match (c.safOut y).changed with
    | some t =>
      if c.rd Reg.Saf.FB_TIME * 1000000 ≤ c.runNs - t then
        (((c.setSafOut y { c.safOut y with changed := none, fbFailed := true }).outFault y 6).outOff y).putBit Reg.Saf.SO_FAULT y true
          |>.set Reg.Saf.OUTPUT_FAULT_SEEN
      else c
    | none => c

/-- DEGRADED_EXPIRY (R370): DEGRADED_LEFT has reached 0. The input leaves the mode: while it stays in FAULT no reset is accepted.
(notes/assumptions: 30 DEDUCED) -/
def execDegradedExpiry (dt : Nat) (s : State) : Host.Outcome State Fault Refusal :=
  s.run fun c0 =>
    let c := c0.advance dt
    let x := c.rd Reg.Saf.DEGRADED_INPUT
    if c.on Reg.Saf.DEGRADED && decide (c.rd Reg.Saf.DEGRADED_TIME * 1000000000 ≤ c.runNs - c.safety.degradedAt) then
      let c1 := ((c.endDegraded x).set Reg.Saf.DEGRADED_EXPIRED).wr (Reg.SafIn.LAST_CAUSE x) 7
      let c2 := c1.setSafIn x { c1.safIn x with demanded := true }
      ((c2.raise 6 (0x30 + x) 0xA6 7).demandTrip).outsOff
    else c

/-- SAFETY_BLOCK_SELF_TEST_FAILURE (R371): cause 8. -/
def execSafetyBlockSelfTestFailure (s : State) : Host.Outcome State Fault Refusal := s.run fun c => c.safetyFails

/-- SUMMIT_COMMON_LOGIC_FAILURE (R33): TRIP_N is driven low and the safe outputs are de-energised. -/
def execSummitCommonLogicFailure (s : State) : Host.Outcome State Fault Refusal := s.run fun c => c.tripStation

end Sys2Proof.Machine
end

