-- ==== Sys2Proof/Machine/Host.lean ====
section
/-! DEFINITION. The host ports (chapter 18): link and port states, attach and detach (R378, R379), the watchdog (R380), the order
token (R381), orders and their hold (R382 to R385), block, deblock and trip (R386), and what goes wrong on a link. -/

namespace Sys2Proof.Machine

/-- The registers of port `p` that keep their values when it leaves ATTACHED (R379): the counts and the cause of its own block, and
what the card and the link give. The MSI-X table lies outside the register blocks and stays too. -/
def keptAtDetach (p : Nat) : List Nat :=
  [(Reg.Port.RIGHTS p).key, (Reg.Port.LINK_WIDTH p).key, (Reg.Port.LINK_SPEED p).key, (Reg.Port.WATCHDOG_MS p).key,
    (Reg.Port.RIGHTS_REFUSED p).key, (Reg.Port.ACCESS_ERR p).key, (Reg.Port.DETACH_CAUSE p).key, (Reg.Port.ATTACH_COUNT p).key]

/-- The per-port registers return to their reset values (R379). -/
def Chip.resetPort (c : Chip) (p : Nat) : Chip :=
  let base := (1 + p) * 33554432
  { c with regs := c.regs.filter (fun e =>
      let inPort := decide (base ≤ e.1 ∧ e.1 < base + 33554432)
      let msix := decide (base + 0x80000 * 32 ≤ e.1 ∧ e.1 < base + 0x90000 * 32)
      !inPort || msix || (keptAtDetach p).contains e.1) }

/-- What port `p` has written and the control plane has not yet taken is discarded (R393). -/
def Chip.dropQueued (c : Chip) (p : Nat) : Chip :=
  let f := c.faults
  let c1 := { c with faults := { f with
    acks := f.acks.filter (fun a => decide (a.port ≠ p))
    unfences := f.unfences.filter (fun u => decide (u.1 ≠ p))
    firstResets := f.firstResets.filter (fun q => decide (q ≠ p))
    tripResets := f.tripResets.filter (fun q => decide (q ≠ p))
    injecting := f.injecting.filter (fun q => decide (q.1 ≠ p)) } }
  let drop (x : SlotSt) : SlotSt := match x.req with
    | some r => if r.1 = p then { x with req := none } else x
    | none => x
  let c2 := { c1 with loop := { c1.loop with slots := c1.loop.slots.map (fun (e : Nat × SlotSt) => (e.1, drop e.2)) } }
  { c2 with fetches := eraseKey p c2.fetches }

/-! ### The order token (R381, R385) -/

/-- Every attached port learns that the token has changed hands. (notes/assumptions: 41 DESIGN CHOICE) -/
def Chip.tokenChanged (c : Chip) : Chip :=
  [0, 1, 2, 3].foldl (fun c p => if c.attached p then (c.set (Reg.Port.TOKEN_CHANGED p)).irq p 0 else c) c

/-- The token is given back. -/
def Chip.freeToken (c : Chip) (p : Nat) : Chip :=
  (((c.clr (Reg.Port.TOKEN p)).clr Reg.Ord.TOKEN_HELD).clr Reg.Ord.TOKEN_PORT).tokenChanged

/-- The hold of R385 starts: every target is frozen at its applied value. -/
def Chip.startHold (c : Chip) : Chip :=
  let o := c.orders
  ((({ c with orders := { o with targets := o.applied, holdFrom := c.runNs } }.set Reg.Ord.HOLDING).set Reg.Ord.HOST_LOST_SEEN).wr
    Reg.Ord.HOLD_LEFT_MS (c.rd Reg.Ord.ORDER_HOLD_MS)).showOrders

/-! ### Attach and detach (R378, R379) -/

/-- Port `p` leaves ATTACHED for state `st` with a cause (R379): its rights end with the state, its streams and their records go,
its registers return to reset, its token is freed with a hold, and every cause but an orderly one raises a HOST_PORT fault. -/
def Chip.detachPort (c : Chip) (p cause st : Nat) : Chip :=
  let token := c.on (Reg.Port.TOKEN p)
  let c1 := [0, 1, 2, 3, 4].foldl (fun c k => c.setStream p k StreamSt.idle) c
  let c2 := (c1.resetPort p).setPort p { c1.port p with inFlight := [] }
  let c3 := ((c2.wr (Reg.Port.PORT_STATE p) st).wr (Reg.Port.DETACH_CAUSE p) cause).dropQueued p
  let c4 := if token then (c3.freeToken p).startHold else c3
  if cause = 0 then c4 else c4.raise 6 p 0xA5 cause

/-- Port `p` detaches if it is ATTACHED, and takes state `st` in any case but SUSPENDED, which only an unfence ends (R378). -/
def Chip.leave (c : Chip) (p cause st : Nat) : Chip :=
  if c.attached p then c.detachPort p cause st
  else if c.rd (Reg.Port.PORT_STATE p) = 3 then c
  else c.wr (Reg.Port.PORT_STATE p) st

/-- A severity-4 reaction suspends port `p` (R334). (notes/assumptions: 41 DESIGN CHOICE) -/
def Chip.suspend (c : Chip) (p : Nat) : Chip :=
  let c1 := if c.attached p then c.detachPort p 7 3
    else ((c.wr (Reg.Port.PORT_STATE p) 3).wr (Reg.Port.DETACH_CAUSE p) 7).raise 6 p 0xA5 7
  c1.putBit Reg.Flt.HOSTS_FENCED p true

/-- An unfence returns port `p` from SUSPENDED to LINKED, or to DOWN where its link is not up. -/
def Chip.unsuspend (c : Chip) (p : Nat) : Chip :=
  (c.wr (Reg.Port.PORT_STATE p) (bit (c.port p).linkUp)).putBit Reg.Flt.HOSTS_FENCED p false

/-- HOST_LINK_UP (R378). -/
def execHostLinkUp (p : PortIx) (width speed : Fin 8) (s : State) : Host.Outcome State Fault Refusal :=
  s.run fun c =>
    let c1 := ((c.setPort p { c.port p with linkUp := true }).wr (Reg.Port.LINK_WIDTH p) width).wr (Reg.Port.LINK_SPEED p) speed
    if c.rd (Reg.Port.PORT_STATE p) = 0 then c1.wr (Reg.Port.PORT_STATE p) 1 else c1

/-- The link of port `p` is gone. -/
def Chip.linkGone (c : Chip) (p cause : Nat) : Chip :=
  let c1 := c.setPort p { c.port p with linkUp := false, busMaster := false, memSpace := false }
  ((c1.leave p cause 0).clr (Reg.Port.LINK_WIDTH p)).clr (Reg.Port.LINK_SPEED p)

/-- HOST_LINK_DOWN (R379, cause 1). (notes/assumptions: 41 DESIGN CHOICE) -/
def execHostLinkDown (p : PortIx) (s : State) : Host.Outcome State Fault Refusal := s.run fun c => c.linkGone p 1

/-- HOST_RESET_ASSERT (R379, cause 2). -/
def execHostResetAssert (p : PortIx) (s : State) : Host.Outcome State Fault Refusal := s.run fun c => c.linkGone p 2

/-- A detach that leaves the link up: the port is LINKED afterwards. -/
def Chip.leaveLinked (c : Chip) (p cause : Nat) : Chip := if c.attached p then c.detachPort p cause 1 else c

/-- FUNCTION_LEVEL_RESET (R379, cause 3): the function's configuration returns to its reset values too.
(notes/assumptions: 24 PRESUMED) -/
def execFunctionLevelReset (p : PortIx) (s : State) : Host.Outcome State Fault Refusal :=
  s.run fun c => (c.leaveLinked p 3).setPort p { (c.leaveLinked p 3).port p with busMaster := false, memSpace := false, maxPayload := 128 }

/-- BUS_MASTER_DISABLE (R379, cause 4). -/
def execBusMasterDisable (p : PortIx) (s : State) : Host.Outcome State Fault Refusal :=
  s.run fun c => (c.leaveLinked p 4).setPort p { (c.leaveLinked p 4).port p with busMaster := false }

/-- AER_UNCORRECTABLE (R379, cause 6). -/
def execAerUncorrectable (p : PortIx) (s : State) : Host.Outcome State Fault Refusal := s.run fun c => c.leaveLinked p 6

/-- ATTACH (R378): accepted only in LINKED, from LINKS onward and not in HALT (R402), with Bus Master Enable and Memory Space
Enable set; `bme`, `mse` and `mps` are what the host has programmed into the function. -/
def execAttach (p : PortIx) (bme mse : Bool) (mps : Nat) (s : State) : Host.Outcome State Fault Refusal :=
  s.run fun c0 =>
    let c := c0.setPort p { c0.port p with busMaster := bme, memSpace := mse, maxPayload := mps }
    let st := c.rd Reg.Card.START_STATE
    let res := Reg.Port.ATTACH_RESULT p
    if c.rd (Reg.Port.PORT_STATE p) = 1 ∧ bme = true ∧ mse = true ∧ 5 ≤ st ∧ st ≤ 7 then
      ((((c.wr (Reg.Port.PORT_STATE p) 2).inc (Reg.Port.ATTACH_COUNT p)).wr res 1).setPort p { c.port p with beat := c.runNs }).irq p 0
    else (c.wr res 2).irq p 0

/-- DETACH (R379, cause 0): an attached port's own order. -/
def execDetach (p : PortIx) (s : State) : Host.Outcome State Fault Refusal :=
  s.run fun c => if c.attached p then c.detachPort p 0 1 else c.wr (Reg.Port.ATTACH_RESULT p) 2

/-- ORDER_CLAIM (R381, R385): a claim in the hold or the ramp ends both, with the targets at the applied values. -/
def execOrderClaim (p : PortIx) (s : State) : Host.Outcome State Fault Refusal :=
  s.run fun c =>
    let res := Reg.Port.ATTACH_RESULT p
    if c.attached p = false then c.wr res 2
    else if c.has p .order = false then (c.refuseTo p res 3).irq p 0
    else if c.on Reg.Ord.TOKEN_HELD && decide (c.rd Reg.Ord.TOKEN_PORT ≠ p.val) then (c.wr res 4).irq p 0
    else if c.on (Reg.Port.TOKEN p) then (c.wr res 1).irq p 0
    else
      let c1 := if c.on Reg.Ord.HOLDING || c.on Reg.Ord.FALLBACK_RAMP then
          ((({ c with orders := { c.orders with targets := c.orders.applied } }.clr Reg.Ord.HOLDING).clr Reg.Ord.FALLBACK_RAMP).clr
            Reg.Ord.HOLD_LEFT_MS).showOrders
        else c
      ((((c1.set (Reg.Port.TOKEN p)).set Reg.Ord.TOKEN_HELD).wr Reg.Ord.TOKEN_PORT p).wr res 1).tokenChanged

/-- ORDER_RELEASE (R381): no hold starts. -/
def execOrderRelease (p : PortIx) (s : State) : Host.Outcome State Fault Refusal :=
  s.run fun c =>
    let res := Reg.Port.ATTACH_RESULT p
    if c.attached p = false then c.wr res 2
    else if c.on (Reg.Port.TOKEN p) then (c.wr res 1).freeToken p
    else if c.has p .order = false then (c.refuseTo p res 3).irq p 0
    else (c.wr res 4).irq p 0

/-- HEARTBEAT (R380). (notes/assumptions: 22 DEDUCED) -/
def execHeartbeat (p : PortIx) (v : Word) (s : State) : Host.Outcome State Fault Refusal :=
  s.run fun c =>
    if c.attached p then (c.wr (Reg.Port.HEARTBEAT p) v.toNat).setPort p { c.port p with beat := c.runNs } else c.refuse p

/-- HOST_WATCHDOG_EXPIRY (R380): detach with cause 5. (notes/assumptions: 44 DEDUCED) -/
def execHostWatchdogExpiry (dt : Nat) (p : PortIx) (s : State) : Host.Outcome State Fault Refusal :=
  s.run fun c0 =>
    let c := c0.advance dt
    if c.attached p && decide (c.rd (Reg.Port.WATCHDOG_MS p) * 1000000 ≤ c.runNs - (c.port p).beat) then c.detachPort p 5 1 else c

/-! ### Orders (R382 to R385) -/

/-- ORDER_GO (R382, R383): the set registers and mode bits are committed together, clamped to the scaled ranges. -/
def execOrderGo (p : PortIx) (s : State) : Host.Outcome State Fault Refusal :=
  s.run fun c =>
    let res := Reg.Ord.ORDER_RESULT p
    if c.has p .order = false then c.refuseTo p res 3
    else if c.on (Reg.Port.TOKEN p) = false then c.wr res 4
    else
      let want : List Int := [c.rdI (Reg.Ord.P_ORDER_SET p), c.rdI (Reg.Ord.Q_ORDER_SET p), (c.rd (Reg.Ord.UDC_ORDER_SET p) : Int),
        (c.rd (Reg.Ord.VAC_ORDER_SET p) : Int), c.rdI (Reg.Ord.P_BATT_ORDER_SET p)].map (· * 1000000000)
      let got := (List.range 5).map (fun i => c.clampOrder i (want.getD i 0))
      let c1 := { c with orders := { c.orders with commit := some (got, c.rd (Reg.Ord.MODE_P_SET p), c.rd (Reg.Ord.MODE_Q_SET p)) } }
      if got = want then c1.wr res 1 else (c1.wr res 2).set Reg.Ord.CLAMPED_SEEN

/-- ORDER_HOLD_EXPIRY (R385): the targets become the FALLBACK values, clamped, and the applied values ramp there. -/
def execOrderHoldExpiry (dt : Nat) (s : State) : Host.Outcome State Fault Refusal :=
  s.run fun c0 =>
    let c := c0.advance dt
    if c.on Reg.Ord.HOLDING && decide (c.rd Reg.Ord.ORDER_HOLD_MS * 1000000 ≤ c.runNs - c.orders.holdFrom) then
      let t : List Int := (List.range 5).map (fun i => c.clampOrder i (c.rdI (Reg.Env.ENV_FALLBACK i) * 1000000000))
      (((({ c with orders := { c.orders with targets := t } }.clr Reg.Ord.HOLDING).clr Reg.Ord.HOLD_LEFT_MS).set
        Reg.Ord.FALLBACK_RAMP).clr Reg.Ord.AT_FALLBACK).showOrders
    else c

/-! ### Block, deblock and trip (R386) -/

/-- The conditions that refuse a deblock, as DEBLOCK_CAUSE shows them (R386). -/
def Chip.deblockCause (c : Chip) : Nat :=
  bit (c.faults.held.any (fun e => decide (6 ≤ e.counts)))
    + 2 * bit ((List.range 8).any (fun r => c.on (Reg.RegionRed.BELOW_MIN r)))
    + 4 * bit (c.card.time.refBefore && !c.on Reg.Time.TIME_VALID)
    + 8 * bit (c.on Reg.Flt.TRIP)
    + 16 * bit (decide (c.rd Reg.Card.START_STATE ≠ 6))
    + 32 * bit ((List.range 8).any (fun x => c.isStop x && !c.degraded x && decide (c.rd (Reg.SafIn.IN_STATE x) ≠ 1)))

/-- BLOCK_GO (R386). -/
def execBlockGo (p : PortIx) (s : State) : Host.Outcome State Fault Refusal :=
  s.run fun c =>
    let res := Reg.Ord.BLK_RESULT p
    if c.has p .order = false ∧ c.has p .protect = false then c.refuseTo p res 3
    else (c.blockRegions (c.rd (Reg.Ord.BLOCK_REQ p))).wr res 1

/-- DEBLOCK_GO (R386, R393): refused whole on any condition; a region blocked in this very frame stays blocked. -/
def execDeblockGo (p : PortIx) (s : State) : Host.Outcome State Fault Refusal :=
  s.run fun c =>
    let res := Reg.Ord.BLK_RESULT p
    if c.has p .order = false then c.refuseTo p res 3
    else if c.on (Reg.Port.TOKEN p) = false then c.wr res 4
    else
      let cause := c.deblockCause
      let c1 := c.wr Reg.Ord.DEBLOCK_CAUSE cause
      if cause ≠ 0 then (c1.wr res 2).set Reg.Ord.DEBLOCK_REFUSED_SEEN
      else
        let req := c.rd (Reg.Ord.DEBLOCK_REQ p)
        let just := if c.orders.justBlocked.2 = c.frame then c.orders.justBlocked.1 else 0
        let go := req &&& (0xFF ^^^ just)
        if go = 0 ∧ req ≠ 0 then (c1.wr res 2).set Reg.Ord.DEBLOCK_REFUSED_SEEN
        else
          let c2 := (c1.wr Reg.Ord.BLOCKED (c.rd Reg.Ord.BLOCKED &&& (0xFF ^^^ go))).wr res 1
          if go = 0 then c2 else { c2 with time := { c2.time with deblocked := true } }

/-- TRIP_GO (R386): the trip of R342, with a HOST_PORT fault of cause 8; the port stays attached. -/
def execTripGo (p : PortIx) (s : State) : Host.Outcome State Fault Refusal :=
  s.run fun c =>
    let res := Reg.Ord.BLK_RESULT p
    if c.has p .protect = false then c.refuseTo p res 3
    else
      let c1 := (c.tripStation.wr res 1).raise 6 p 0xA5 8
      { c1 with faults := { c1.faults with tripOrdered := true } }

/-! ### Accesses and links -/

/-- MALFORMED_ACCESS (R375): a read is completed as Unsupported Request, a write is discarded; both are counted. -/
def execMalformedAccess (p : PortIx) (write : Bool) (s : State) : Host.Outcome State Fault Refusal :=
  s.run fun c =>
    let _ := write
    if c.rd (Reg.Port.PORT_STATE p) = 0 then c
    else ((c.inc (Reg.Port.ACCESS_ERR p)).set (Reg.Port.ACCESS_ERR_SEEN p)).irq p 0

/-- LINK_CORRECTABLE_ERROR (R392). -/
def execLinkCorrectableError (p : PortIx) (s : State) : Host.Outcome State Fault Refusal :=
  s.run fun c => if c.rd (Reg.Port.PORT_STATE p) = 0 then c else (c.set (Reg.Port.LINK_ERR_SEEN p)).irq p 0

end Sys2Proof.Machine
end

