-- ==== Sys2Proof/Machine/Recovery.lean ====
section
/-! DEFINITION. Rope modes and how they change (R19, R20, R24, R25, R316 to R319), rope service orders (R318), lost and
restarted Ridges (R320 to R322), the die-to-die links, and the two control planes (R26, R323). -/

namespace Sys2Proof.Machine

/-! ### Dies and links (R26) -/

/-- The state register of Ridge `d`: 0 OFF, 1 PARTNER_ONLY, 2 ACTIVE, 3 SERVING_PARTNER, 4 LOST. -/
def ridgeReg : Nat → Fld
  | 0 => Reg.Die.RIDGE0_STATE
  | 1 => Reg.Die.RIDGE1_STATE
  | 2 => Reg.Die.RIDGE2_STATE
  | _ => Reg.Die.RIDGE3_STATE

/-- The state of Ridge `d`. -/
def Chip.ridge (c : Chip) (d : Nat) : Nat := c.rd (ridgeReg d)

/-- Is Ridge `d` in service? -/
def Chip.ridgeUp (c : Chip) (d : Nat) : Bool := decide (1 ≤ c.ridge d ∧ c.ridge d ≤ 3)

/-- The partner of Ridge `d` (R14). -/
def partnerOf (d : Nat) : Nat := if d % 2 = 0 then d + 1 else d - 1

/-- The status bit of the link between Ridges 2k and 2k + 1. (notes/assumptions: 26 DEDUCED) -/
def linkReg (k : Nat) : Fld := if k = 0 then Reg.Die.LINK01_UP else Reg.Die.LINK23_UP

/-- The home Ridge of rope `g`: a Ridge is home to two regions. -/
def homeOf (g : Nat) : Nat := g / 64

/-! ### Rope modes (R19, R20) -/

/-- ROPES_SPLIT, ROPES_TRAVERSE and ROPES_DOWN; unused ropes count as DOWN. (notes/assumptions: 25 DESIGN CHOICE) -/
def Chip.countModes (c : Chip) : Chip :=
  let l := c.populated
  let n (m : Nat) : Nat := (l.filter (fun g => decide (c.mode g = m))).length
  ((c.wr Reg.Recov.ROPES_SPLIT (n 1)).wr Reg.Recov.ROPES_TRAVERSE (n 2)).wr Reg.Recov.ROPES_DOWN (256 - l.length + n 3)

/-- The last recovery is of this kind, on this rope, at this break position. (notes/assumptions: 25 DESIGN CHOICE) -/
def Chip.lastRecovery (c : Chip) (kind g b : Nat) : Chip :=
  ((((c.wr Reg.Recov.LAST_KIND kind).wr Reg.Recov.LAST_ROPE g).wr Reg.Recov.LAST_BREAK_POS b).clr Reg.Recov.LAST_GAP).wr
    Reg.Recov.LAST_STAMP c.stamp

/-- A report closes a gap of `missed` frames without a command: LAST_GAP of a recovery that concerns its rope, and GAP_EXCEEDED.
(notes/assumptions: 25 DESIGN CHOICE) -/
def Chip.noteGap (c : Chip) (a missed : Nat) : Chip :=
  let kind := c.rd Reg.Recov.LAST_KIND
  let g := c.rd Reg.Recov.LAST_ROPE
  let concerns := if kind = 6 then true else if kind = 3 ∨ kind = 5 then decide (a / 8192 = g / 128) else decide (a / 64 = g)
  if kind ≠ 0 ∧ concerns = true ∧ 0 < missed ∧ c.rd Reg.Recov.LAST_GAP < missed + 1 then
    let c1 := c.wr Reg.Recov.LAST_GAP (satNat 8 (missed + 1))
    if (if c.on Reg.Time.FRAME_20US then 2 else 3) < missed + 1 then c1.set Reg.Recov.GAP_EXCEEDED else c1
  else c

/-- Rope `g` takes a mode and a break position. A change of a settled rope counts (R20) where `counted` says so.
(notes/assumptions: 25 DESIGN CHOICE) -/
def Chip.setMode (c : Chip) (g m b hi : Nat) (counted : Bool) : Chip :=
  let x := c.rope g
  let old := c.mode g
  let same := decide (old = m ∧ c.rd (Reg.Rope.BREAK_POS g) = b)
  let recent := x.changes.filter (fun t => decide (c.runNs - t < 10000000000))
  let x' : RopeSt := { x with
    since := if same then x.since else c.runNs
    changes := if counted && x.settled && !same then c.runNs :: recent else x.changes
    breakHi := hi
    cleanSince := if same then x.cleanSince else none }
  let c1 := ((c.setRope g x').wr (Reg.Rope.MODE g) m).wr (Reg.Rope.BREAK_POS g) b
  (if m = 1 ∧ old ≠ 1 then (c1.inc Reg.Recov.SPLIT_EVENTS).set Reg.Recov.SPLIT_SEEN else c1).countModes

/-- Rope `g` goes to DOWN. -/
def Chip.ropeDown (c : Chip) (g : Nat) (counted : Bool) : Chip :=
  let c1 := c.setMode g 3 0 0 counted
  c1.setRope g { c1.rope g with goingDown := 0 }

/-! ### MODE_DECIDE (R316, R24, R25) -/

/-- The break positions that the reports since the last decision and the rope's own lanes give (R316): notices give none.
(notes/assumptions: 25 DESIGN CHOICE) -/
def Chip.breakPositions (c : Chip) (g : Nat) : List Nat :=
  let n := c.population g
  let cells := ((c.rope g).breaks.filter (fun x => !x.notice && decide (x.cell < n))).map (fun x => x.cell + x.port)
  let a := if c.ridgeUp (homeOf g) && !c.on (Reg.RLane.LANE_UP g 0) then [0] else []
  let b := if c.ridgeUp (partnerOf (homeOf g)) && !c.on (Reg.RLane.LANE_UP g 1) then [n] else []
  cells ++ a ++ b

/-- SPLIT at `b` for a break, with its fault (R316). (notes/assumptions: 25 DESIGN CHOICE) -/
def Chip.splitAt (c : Chip) (g b hi : Nat) (counted : Bool) : Chip :=
  if c.mode g = 1 ∧ c.rd (Reg.Rope.BREAK_POS g) = b then c.setMode g 1 b hi counted
  else ((c.setMode g 1 b hi counted).lastRecovery 1 g b).raiseRope g 0x41 (b + 256 * hi)

/-- A Ridge that served its partner's ropes serves none any more: ACTIVE again, and the home engines take their regions back on
the full path (R26, R322). -/
def Chip.endService (c : Chip) (home : Nat) : Chip :=
  let left := c.populated.any (fun g => decide (homeOf g = home ∧ c.mode g = 2))
  if left ∨ c.ridge (partnerOf home) ≠ 3 then c
  else
    [2 * home, 2 * home + 1].foldl (fun c r => c.setRreg r { c.rreg r with takeover := true }) (c.wr (ridgeReg (partnerOf home)) 2)

/-- Rope mode control of rope `g` at MODE_DECIDE. (notes/assumptions: 25 DESIGN CHOICE) -/
def Chip.decide1 (c : Chip) (g : Nat) : Chip :=
  let x := c.rope g
  let n := c.population g
  let home := homeOf g
  let partner := partnerOf home
  let linkUp := c.on (linkReg (home / 2))
  let m := c.mode g
  let ps := c.breakPositions g
  let lo := ps.foldl min n
  let hi := ps.foldl max 0
  let settle (c : Chip) : Chip :=
    let y := c.rope g
    let held := decide (c.card.lanes.healHold * 1000000 ≤ c.runNs - y.since)
    c.setRope g { y with
      breaks := [], settled := y.settled || held
      cleanSince := if ps = [] then some (y.cleanSince.getD c.runNs) else none }
  if x.goingDown = 2 then settle (c.ropeDown g true)
  else if m = 3 then
    if x.comingUp = false then c.setRope g { x with breaks := [] }
    else
      let c1 := c.setRope g { x with comingUp := false, settled := false, changes := [] }
      let c2 := if c1.ridgeUp home = false then
          if c1.ridgeUp partner then c1.setMode g 2 0 hi false else c1
        else if c1.ridgeUp partner = false ∨ linkUp = false then c1.setMode g 1 n n false
        else if ps = [] then c1.setMode g 0 0 0 false
        else c1.splitAt g lo hi false
      settle c2
  else if c.ridgeUp home = false then
    if c.ridgeUp partner = false then c.setRope g { x with breaks := [] }
    else if m = 2 then
      settle (c.setMode g 2 (c.rd (Reg.Rope.BREAK_POS g)) (max x.breakHi hi) true)
    else
      let from0 := if m = 1 then max x.breakHi (c.rd (Reg.Rope.BREAK_POS g)) else 0
      let c1 := ((c.setMode g 2 (if m = 1 then c.rd (Reg.Rope.BREAK_POS g) else 0) from0 true).lastRecovery 3 g
        (c.rd (Reg.Rope.BREAK_POS g))).wr (ridgeReg partner) 3
      settle c1
  else if c.ridgeUp partner = false ∨ linkUp = false then
    if m = 1 ∧ c.rd (Reg.Rope.BREAK_POS g) = n then settle c
    else if m = 2 then settle c
    else settle (((c.setMode g 1 n n true).lastRecovery 5 g n).raiseRope g 0x41 (n + 256 * n))
  else if m = 2 then
    if ps.all (fun b => decide (b = 0)) then settle c else (settle (c.splitAt g lo hi true)).endService home
  else if ps = [] then settle c
  else settle (c.splitAt g lo hi true)

/-- MODE_DECIDE (R316), 1.5 µs before the end of each frame. -/
def execModeDecide (dt : Nat) (s : State) : Host.Outcome State Fault Refusal :=
  s.run fun c0 =>
    let c := c0.advance dt
    c.populated.foldl (fun c g => c.decide1 g) c

/-- ROPE_HEAL (R20, R317): at a MODE_DECIDE, the failed path has run clean for HEAL_HOLD. -/
def execRopeHeal (dt : Nat) (g : RopeIx) (s : State) : Host.Outcome State Fault Refusal :=
  s.run fun c0 =>
    let c := c0.advance dt
    let x := c.rope g
    let m := c.mode g
    match x.cleanSince with
    | none => c
    | some t =>
      if (m = 1 ∨ m = 2) ∧ c.breakPositions g = [] ∧ c.card.lanes.healHold * 1000000 ≤ c.runNs - t ∧
          c.ridgeUp (homeOf g) = true ∧ c.ridgeUp (partnerOf (homeOf g)) = true ∧ c.on (linkReg (homeOf g / 2)) = true then
        let c1 := ((c.setMode g 0 0 0 true).inc Reg.Recov.HEAL_EVENTS).lastRecovery (if m = 1 then 2 else 4) g
          (c.rd (Reg.Rope.BREAK_POS g))
        if m = 2 then c1.endService (homeOf g) else c1
      else c

/-- ROPE_UNSTABLE (R20): more than four counted changes within 10 s place the rope in DOWN, with a fault at severity 5. -/
def execRopeUnstable (dt : Nat) (g : RopeIx) (s : State) : Host.Outcome State Fault Refusal :=
  s.run fun c0 =>
    let c := c0.advance dt
    let k := ((c.rope g).changes.filter (fun t => decide (c.runNs - t < 10000000000))).length
    if 4 < k ∧ c.mode g ≠ 3 then
      let c1 := (((c.ropeDown g false).lastRecovery 7 g (c.rd (Reg.Rope.BREAK_POS g))).set Reg.Recov.ROPE_DOWN_SEEN).raiseAt 2 g
        0x42 k 5
      { c1 with faults := { c1.faults with fencedRopes := (g.val :: c1.faults.fencedRopes).eraseDups } }
    else c

/-! ### Rope service (R318) -/

/-- Does a lane test run or start on rope `g`? -/
def Chip.underTest (c : Chip) (g : Nat) : Bool :=
  let t := c.laneTest (g / 32)
  (t.running || t.starting) && decide (t.rope = g % 32)

/-- ROPE_DOWN_GO (R318). -/
def execRopeDownGo (p : PortIx) (s : State) : Host.Outcome State Fault Refusal :=
  s.run fun c =>
    let res := Reg.Recov.ROPE_RESULT p
    let g := c.rd (Reg.Recov.ROPE_SEL p)
    let r := g / 32
    let own := ((c.ropeCells g).filter (fun a => c.isInsertable a)).length
    if c.has p .maint = false then c.refuseTo p res 3
    else if c.population g = 0 then c.wr res 6
    else if c.mode g = 3 ∨ (c.rope g).goingDown ≠ 0 then c.wr res 2
    else if c.blocked r = false ∧ c.rdI (Reg.RegionRed.REDUNDANCY r) < own then c.wr res 4
    else (c.setRope g { c.rope g with goingDown := 1 }).wr res 1

/-- Does a held entry keep rope `g` down: one of the rope at 4 or more, or one of its cells at 5 or more (R318)? -/
def Chip.ropeEntryHeld (c : Chip) (g : Nat) : Bool :=
  c.faults.held.any (fun e => decide (e.level = 2 ∧ e.source = g ∧ 4 ≤ e.counts) || decide (e.level = 1 ∧ e.source / 64 = g ∧ 5 ≤ e.counts))

/-- ROPE_UP_GO (R318, R343): the rope comes up at the next MODE_DECIDE; its fence ends. -/
def execRopeUpGo (p : PortIx) (s : State) : Host.Outcome State Fault Refusal :=
  s.run fun c =>
    let res := Reg.Recov.ROPE_RESULT p
    let g := c.rd (Reg.Recov.ROPE_SEL p)
    if c.has p .maint = false then c.refuseTo p res 3
    else if c.population g = 0 then c.wr res 6
    else if c.mode g ≠ 3 ∨ (c.rope g).comingUp = true ∨ c.underTest g = true then c.wr res 2
    else if c.ropeEntryHeld g then c.wr res 5
    else
      let c1 := (c.setRope g { c.rope g with comingUp := true }).wr res 1
      { c1 with faults := { c1.faults with fencedRopes := c1.faults.fencedRopes.filter (fun x => decide (x ≠ g)) } }

/-! ### Ridges (R320 to R322) -/

/-- The rope ends that Ridge `d` holds: end A of its own ropes, end B of its partner's. -/
def Chip.endsOf (c : Chip) (d : Nat) : List (Nat × Nat) :=
  c.populated.filterMap (fun g => if homeOf g = d then some (g, 0) else if homeOf g = partnerOf d then some (g, 1) else none)

/-- Ridge `d` is declared lost and held in reset: its lanes are down, and the rank of its regions is rebuilt from fresh reports
(R320, R321). (notes/assumptions: 25 DESIGN CHOICE) -/
def Chip.loseRidge (c : Chip) (d detail : Nat) : Chip :=
  if c.ridgeUp d = false then c
  else
    let c1 := (((c.wr (ridgeReg d) 4).inc Reg.Recov.TRAVERSE_EVENTS).set Reg.Recov.TRAVERSE_SEEN).raise 4 d 0x70 detail
    let c2 := (c1.endsOf d).foldl (fun c e =>
      ((((c.clr (Reg.RLane.LANE_UP e.1 e.2)).clr (Reg.RLane.BLOCK_LOCKED e.1 e.2)).clr (Reg.RLane.PLL_LOCKED e.1 e.2)).set
        (Reg.RLane.LOCK_LOST e.1 e.2)).unclean e.1) c1
    [2 * d, 2 * d + 1].foldl (fun c r =>
      let x := c.rreg r
      c.setRreg r { x with takeover := true, phase := if x.phase < 4 then 0 else x.phase }) c2

/-- RIDGE_FAILURE (R320): `detail` is 0 for the status exchange, 1 for the transmit synthesiser, 2 for the temperature. -/
def execRidgeFailure (d : RidgeIx) (detail : Fin 3) (s : State) : Host.Outcome State Fault Refusal :=
  s.run fun c => c.loseRidge d detail

/-- RIDGE_RESTART (R322): refused while the Ridge is at 105 °C or above or its partner is lost. -/
def execRidgeRestart (p : PortIx) (s : State) : Host.Outcome State Fault Refusal :=
  s.run fun c =>
    let res := Reg.Recov.RIDGE_RESULT p
    let d := c.rd (Reg.Recov.RIDGE_SEL p)
    if c.has p .maint = false then c.refuseTo p res 4
    else if c.ridge d ≠ 4 ∨ c.ridge (partnerOf d) = 4 ∨ 105 * 16 ≤ mapGet 0 c.recov.dieTemps d ∨
        (findKey d c.recov.restarting).isSome = true then c.wr res 3
    else { c with recov := { c.recov with restarting := insertKey d p.val c.recov.restarting } }.wr res 1

/-- RIDGE_SELF_TEST_DONE (R322): a Ridge that passes is in service again and its lanes lock; one that fails stays lost. -/
def execRidgeSelfTestDone (d : RidgeIx) (ok : Bool) (s : State) : Host.Outcome State Fault Refusal :=
  s.runFused fun f c =>
    match findKey d.val c.recov.restarting with
    | none => c
    | some p =>
      let c1 := { c with recov := { c.recov with restarting := eraseKey d.val c.recov.restarting } }
      if ok then
        (((c1.wr (ridgeReg d) (if d.val = 3 ∧ f.variant = 0 then 1 else 2)).putBit Reg.Flt.RIDGES_FENCED d.val false)).wr
          (Reg.Recov.RIDGE_RESULT p) 2
      else c1.wr (Reg.Recov.RIDGE_RESULT p) 5

/-! ### Die-to-die links (R319) -/

/-- A link goes out of service. -/
def Chip.loseLink (c : Chip) (k : Nat) : Chip :=
  if c.on (linkReg k) then (c.clr (linkReg k)).raise 4 (0x10 + k) 0x71 0 else c

/-- DIE_TO_DIE_LINK_LOST (R319): k = 0 is the link 0↔1, 1 the link 2↔3. The ropes take SPLIT at n at the next MODE_DECIDE. -/
def execDieToDieLinkLost (k : Fin 2) (s : State) : Host.Outcome State Fault Refusal := s.run fun c => c.loseLink k

/-- DIE_TO_DIE_LINK_UP (R319): the ropes heal under R317. A fenced link stays out of service (R334). -/
def execDieToDieLinkUp (k : Fin 2) (s : State) : Host.Outcome State Fault Refusal :=
  s.run fun c => if bits (c.rd Reg.Flt.LINKS_FENCED) k 1 = 1 then c else c.set (linkReg k)

/-! ### Control planes (R26, R323) -/

/-- The in-service bit of control plane `k`. -/
def planeReg (k : Nat) : Fld := if k = 0 then Reg.Die.PLANE0_OK else Reg.Die.PLANE1_OK

/-- A plane fails: the active one's outputs are blocked until the failover, the spare goes out of service with its fault; either is
then resynchronised, unless a fence keeps it out. (notes/assumptions: 25 DESIGN CHOICE) -/
def Chip.losePlane (c : Chip) (k : Nat) (resync : Bool) : Chip :=
  if c.on (planeReg k) = false then c
  else
    let c1 := (c.clr (planeReg k)).when resync (fun c => c.set Reg.Die.RESYNC)
    if c.rd Reg.Die.ACTIVE_PLANE = k then { c1 with recov := { c1.recov with outputsBlocked := true } }
    else c1.raise 4 (0x110 + k) 0x73 0

/-- LOCKSTEP_MISMATCH (R323). -/
def execLockstepMismatch (k : Fin 2) (s : State) : Host.Outcome State Fault Refusal := s.run fun c => c.losePlane k true

/-- PLANE_FAILOVER (R26, R323): at the frame boundary the spare becomes active; the fault names the failed plane. The rank
engines then take the full path, and their weights from the last targets (R126, R128). (notes/assumptions: 25 DESIGN CHOICE) -/
def execPlaneFailover (s : State) : Host.Outcome State Fault Refusal :=
  s.run fun c =>
    let old := c.rd Reg.Die.ACTIVE_PLANE
    let new := 1 - old
    if c.recov.outputsBlocked && c.on (planeReg new) then
      let c1 := { c with recov := { c.recov with outputsBlocked := false } }.wr Reg.Die.ACTIVE_PLANE new
      (((c1.inc Reg.Recov.FAILOVER_COUNT).set Reg.Recov.FAILOVER_SEEN).lastRecovery 6 (c.rd Reg.Recov.LAST_ROPE)
        (c.rd Reg.Recov.LAST_BREAK_POS)).raise 4 (0x110 + old) 0x72 new |> fun c =>
          (List.range 8).foldl (fun c r => c.setRreg r { c.rreg r with takeover := true }) c
    else c

/-- PLANE_RESYNC_DONE (R26): the plane being resynchronised is the new spare. -/
def execPlaneResyncDone (s : State) : Host.Outcome State Fault Refusal :=
  s.run fun c =>
    if c.on Reg.Die.RESYNC then
      let k := 1 - c.rd Reg.Die.ACTIVE_PLANE
      if c.on (planeReg k) || decide (bits (c.rd Reg.Flt.PLANES_FENCED) k 1 = 1) then c
      else (c.clr Reg.Die.RESYNC).set (planeReg k)
    else c

end Sys2Proof.Machine
end

