-- ==== Sys2Proof/Machine/Recorder.lean ====
section
/-! DEFINITION. The disturbance recorder (chapter 16): channels and their records (R349 to R351), captures of cells (R352), triggers
(R353, R358), buffers (R354 to R356), rate reduction (R357), and delivery to the ports (R360, R389). -/

namespace Sys2Proof.Machine

/-! ### Records -/

/-- The 16 bytes of a record (R351). -/
def RecRow.bytes (r : RecRow) : List Nat :=
  leBytes 4 (r.at0 % 2 ^ 32) ++ leBytes 2 (r.source % 2 ^ 14) ++
    [r.typ % 256, bit r.raw + 2 * bit r.stale + 4 * bit r.injected + 32 * (r.level % 8)] ++ leBytes 4 r.value ++ leBytes 4 r.frame

/-- Buffer `b`. -/
def Chip.recBuf (c : Chip) (b : Nat) : RecBuf := mapGet RecBuf.free c.recorder.bufs b

/-- Replace buffer `b`. -/
def Chip.setRecBuf (c : Chip) (b : Nat) (x : RecBuf) : Chip :=
  let c1 := { c with recorder := { c.recorder with bufs := mapSet RecBuf.free c.recorder.bufs b x } }
  c1.wr Reg.Rec.BUFS_HELD ((c1.recorder.bufs.filter (fun e => decide (e.2.state = 3))).length)

/-- What the recorder keeps of channel `i`. -/
def Chip.chanRec (c : Chip) (i : Nat) : ChanRec := mapGet ChanRec.idle c.recorder.chans i

/-- Replace what the recorder keeps of channel `i`. -/
def Chip.setChanRec (c : Chip) (i : Nat) (x : ChanRec) : Chip :=
  { c with recorder := { c.recorder with chans := mapSet ChanRec.idle c.recorder.chans i x } }

/-- Buffers in use (R354). -/
def Chip.nBuffers (c : Chip) : Nat := 2 ^ c.rd Reg.Rec.N_BUF_LOG2

/-- Records in the pre-trigger ring of a buffer, and in its post part. -/
def Chip.preRecords (c : Chip) : Nat := 4194304 / c.nBuffers * c.rd Reg.Rec.PRE_SHARE / 100

/-- Records in the post part of a buffer. -/
def Chip.postRecords (c : Chip) : Nat := 4194304 / c.nBuffers - c.preRecords

/-- The value of a source now, whether it is a raw word, and whether it is fresh (R349, R350). -/
def Chip.recValue (c : Chip) : RecSrc → Nat × Bool × Bool
  | .slotOut j => ((c.slot j).out, false, true)
  | .slotFb j => ((c.slot j).fbNow, false, decide ((c.slot j).fbAge = 0))
  | .sensor a ch => (fInt (toSigned 16 ((c.posn a).sens ch)), false, decide ((c.posn a).age = 0))
  | .region r k =>
    let x := c.rreg r
    let fresh := decide (x.done = some (c.frameAfter (-1)))
    match k with
    | 0 => (x.eArm, false, fresh)
    | 1 => (fRat x.vAvail (2 ^ 24), false, fresh)
    | 2 => (fInt (c.rd (Reg.RegionRed.N_INSERTABLE r)), false, fresh)
    | 3 => (c.rd (Reg.RegLoop.REF_V0 r), false, true)
    | 4 => (c.rd (Reg.RegLoop.REF_VH r), false, true)
    | 5 => (c.rd (Reg.RegLoop.REF_V1 r), false, true)
    | _ => (c.rd (Reg.RegLoop.I_ARM_PRED r), false, true)
  | .angle n => (c.rd (Reg.Angle.ANGLE n), true, c.on (Reg.Angle.VALID n))
  | .report a k =>
    let p := c.posn a
    let v : Int := match k with
      | 0 => (p.vCap : Int)
      | 1 => toSigned 16 p.iCell
      | 2 => (p.vPack : Int)
      | 3 => toSigned 16 p.iPack
      | 4 => toSigned 16 p.iDcdc
      | 5 => toSigned 16 p.tStage
      | 6 => toSigned 16 p.tPack
      | _ => (p.status : Int)
    (fInt v, false, decide (p.age = 0))
  | .digital k =>
    (match k with
      | 0 => c.rd Reg.Ord.BLOCKED
      | 1 => (1 - c.rd Reg.Flt.TRIP) + 2 * (1 - c.rd Reg.Flt.FAULT_N_LOW)
      | _ => c.rd Reg.Saf.SO_ON, true, true)
  | .ropeModes r => (((List.range 16).map (fun k => c.mode (32 * r + k) * 4 ^ k)).sum, true, true)

/-! ### Writing -/

/-- A record enters the ring of the buffer in use; a full ring loses its oldest record, which its channel's shadow keeps.
(notes/assumptions: 29 DEDUCED) -/
def Chip.toRing (c : Chip) (b : Nat) (row : RecRow) : Chip :=
  let x := c.recBuf b
  let full := decide (c.preRecords ≤ x.ring.length)
  let c1 := c.setRecBuf b { x with
    ring := row :: (if full then x.ring.dropLast else x.ring)
    lost := if full then (x.ring.getLast?.map (fun r => r.at0)).or x.lost else x.lost }
  match (if full then x.ring.getLast? else none) with
  | some r => if r.typ ≤ 1 then c1.setChanRec r.source { c1.chanRec r.source with shadow := some r.value } else c1
  | none => c1

/-- A record in the window of R357. (notes/assumptions: 29 DEDUCED) -/
def Chip.countRow (c : Chip) (noReduce : Bool) : Chip :=
  let r := c.recorder
  { c with recorder := if noReduce then { r with nr := r.nr + 1 } else { r with rd := r.rd + 1 } }

/-- A recording buffer takes a record. The post part that is full ends the recording early (POST_PART_FULL, below). -/
def Chip.writeRow (c : Chip) (row : RecRow) : Chip :=
  let b := c.rd Reg.Rec.ACTIVE_BUF
  match c.rd Reg.Rec.REC_STATE with
  | 1 => c.toRing b row
  | 2 => c.toRing b row
  | 3 =>
    let x := c.recBuf b
    if x.post.length < c.postRecords then c.setRecBuf b { x with post := row :: x.post } else c
  | _ => c

/-- A record of the recorder itself at instant `at0`. -/
def Chip.mkRow (c : Chip) (at0 source typ value : Nat) (raw stale inj : Bool) (frame : Nat) : RecRow :=
  ⟨at0, source, typ, raw, stale, inj, c.rd Reg.Rec.RATE_LEVEL, value, frame⟩

/-- A record of channel `i` of type `typ`: its recorded value is renewed. -/
def Chip.chanRow (c : Chip) (i typ at0 frame : Nat) (v : Nat × Bool × Bool) : Chip :=
  (c.writeRow (c.mkRow at0 i typ v.1 v.2.1 (!v.2.2) false frame)).setChanRec i { c.chanRec i with rec0 := some v.1, quiet := 0 }

/-! ### The recording cycle (R354 to R356) -/

/-- Buffer `b` is taken: ARMING, with one CHANGE record for every channel (R350, R354). (notes/assumptions: 29 DEDUCED) -/
def Chip.takeBuf (c : Chip) (b : Nat) (rearm : Bool) : Chip :=
  let c1 := ((c.setRecBuf b { RecBuf.free with state := 1 }).wr Reg.Rec.ACTIVE_BUF b).wr Reg.Rec.REC_STATE 1
  let c2 := { c1 with recorder := { c1.recorder with
    takenAt := c1.runNs, rearm := rearm, winAt := c1.runNs, nr := 0, rd := 0 } }
  (List.range c2.card.recorder.chans.length).foldl (fun c i =>
    match c.card.recorder.chans[i]? with
    | some k => (c.chanRow i 0 c.nowNs c.frame (c.recValue k.src)).countRow k.noReduce
    | none => c) c2

/-- The first FREE buffer in ascending number. -/
def Chip.freeBuf (c : Chip) : Option Nat := (List.range c.nBuffers).find? (fun b => decide ((c.recBuf b).state = 0))

/-- Is any port's stream delivering buffer `b`? -/
def Chip.delivering (c : Chip) (b : Nat) : Bool := (List.range 4).any (fun p => (c.stream p 2).queue.contains b)

/-- The recorder takes a FREE buffer, or in FULL with OVERWRITE_OLDEST the oldest HELD one that no stream is delivering; else it is
FULL (R354, R356). (notes/assumptions: 29 DEDUCED) -/
def Chip.nextBuf (c : Chip) (rearm : Bool) : Chip :=
  match c.freeBuf with
  | some b => c.takeBuf b rearm
  | none =>
    let held := (List.range c.nBuffers).filter (fun b => decide ((c.recBuf b).state = 3) && !c.delivering b)
    let oldest := held.foldl (fun (o : Option Nat) b => match o with
      | none => some b
      | some k => if (c.recBuf b).seq < (c.recBuf k).seq then some b else some k) none
    let c1 := if c.rd Reg.Rec.REC_STATE = 4 then c else (c.wr Reg.Rec.REC_STATE 4).set Reg.Rec.FULL_SEEN
    match oldest with
    | some b => if c.on Reg.Rec.OVERWRITE_OLDEST then (c1.setRecBuf b RecBuf.free).takeBuf b false else c1
    | none => c1

/-- The post part ends: the buffer goes to CLOSING and the recorder re-arms (R354). -/
def Chip.endPost (c : Chip) (short : Bool) : Chip :=
  let b := c.rd Reg.Rec.ACTIVE_BUF
  (c.setRecBuf b { c.recBuf b with state := 2, closedAt := c.runNs, postShort := short }).nextBuf true

/-- POST_PART_FULL (R354, R355): a recording that has filled its post part ends with POST_SHORT. -/
def Chip.postFull (c : Chip) : Chip :=
  if c.rd Reg.Rec.REC_STATE = 3 ∧ c.postRecords ≤ (c.recBuf (c.rd Reg.Rec.ACTIVE_BUF)).post.length then c.endPost true else c

/-! ### Triggers (R353, R355, R358) -/

/-- A trigger of source code `code`: the instant, its frame, index, injected, and the fault message for a fault. Answers 1 taken,
2 marked in POST, 3 ignored. -/
def Chip.trigger (c : Chip) (code at0 frame index : Nat) (inj : Bool) (msg : Nat) : Nat × Chip :=
  let b := c.rd Reg.Rec.ACTIVE_BUF
  let ignore (cause : Nat) : Nat × Chip :=
    (3, ((c.inc Reg.Rec.TRIG_IGNORED).set Reg.Rec.IGNORED_SEEN).wr Reg.Rec.LAST_IGNORED_CAUSE cause)
  let mark (c : Chip) : Chip := (c.writeRow (c.mkRow at0 code 6 index false false inj frame)).countRow true
  match c.rd Reg.Rec.REC_STATE with
  | 1 => ignore (if c.recorder.rearm then 2 else 1)
  | 4 => ignore 3
  | 3 =>
    let c1 := mark c
    let x := c1.recBuf b
    let c2 := c1.setRecBuf b { x with
      triggers := satNat 16 (x.triggers + 1), trigAt := if x.trigFrame = frame then min x.trigAt at0 else x.trigAt }
    let r := c2.recorder
    (2, if c.on Reg.Rec.EXTEND then
        { c2 with recorder := { r with postEnd := min r.postMax (c.runAt at0 + c.rd Reg.Rec.POST_TIME * 1000000) } }
      else c2)
  | 2 =>
    let x := c.recBuf b
    let start := at0 - c.rd Reg.Rec.PRE_TIME * 1000000
    let out := x.ring.filter (fun r => decide (r.at0 < start))
    let short := match x.lost with
      | some t => decide (start < t)
      | none => false
    let from0 := if short then ((x.ring.getLast?.map (fun r => r.at0)).getD start) else start
    -- the ring newest first: the last record of a channel that is discarded is the first one found
    let c1 := (List.range c.card.recorder.chans.length).foldl (fun c i =>
      match out.find? (fun r => decide (r.source = i ∧ r.typ ≤ 1)) with
      | some r => c.setChanRec i { c.chanRec i with shadow := some r.value }
      | none => c) c
    let c1' := c1.setRecBuf b { x with
      ring := x.ring.filter (fun r => decide (start ≤ r.at0)), seq := c1.recorder.seq, injected := inj, preShort := short
      triggers := 1, trigAt := at0, cause := code, trigFrame := frame, index := index, msg := msg, from0 := from0 }
    let c2 := { c1' with recorder := { c1'.recorder with
      seq := (c1'.recorder.seq + 1) % 2 ^ 32, postEnd := c.runAt at0 + c.rd Reg.Rec.POST_TIME * 1000000
      postMax := c.runAt at0 + 4 * c.rd Reg.Rec.POST_TIME * 1000000, winAt := c.runAt at0, nr := 0, rd := 0 } }
    let c3 := (c2.wr Reg.Rec.REC_STATE 3).set Reg.Rec.TRIGGERED_SEEN
    let each (c : Chip) (f : Chip → Nat → RecChan → Chip) : Chip :=
      (List.range c.card.recorder.chans.length).foldl (fun c i =>
        match c.card.recorder.chans[i]? with
        | some k => f c i k
        | none => c) c
    let c4 := each c3 (fun c i k =>
      let v := c.recValue k.src
      let base := ((c.chanRec i).shadow).getD (((c.recBuf b).ring.reverse.find? (fun r => decide (r.source = i ∧ r.typ ≤ 1))).map
        (fun r => r.value) |>.getD v.1)
      c.writeRow (c.mkRow from0 i 2 base v.2.1 false false (c.frameAfter (-(((at0 - from0) / c.period : Nat) : Int)))))
    let c5 := each c4 (fun c i k =>
      let v := c.recValue k.src
      c.writeRow (c.mkRow at0 i 3 v.1 v.2.1 (!v.2.2) false frame))
    (1, (mark c5).postFull)
  | _ => (3, c)

/-- FAULT_TRIGGER (R353): a logged fault writes its record, and triggers where its kind and severity do. -/
def Chip.recordFault (c : Chip) (seq kind eff msg : Nat) (inj : Bool) : Chip :=
  let row := c.mkRow c.nowNs (seq % 2 ^ 14) 5 (msg / 2 ^ 32) false false inj (msg % 2 ^ 32)
  let c1 := if c.rd Reg.Rec.REC_STATE = 0 ∨ c.rd Reg.Rec.REC_STATE = 4 then c else (c.writeRow row).countRow true
  if bits c.card.recorder.kindMask kind 1 = 1 ∧ c.rd Reg.Rec.TRIG_MIN_SEV ≤ eff ∧ (inj = false ∨ c.on Reg.Rec.INJ_TRIGGER = true) then
    (c1.trigger 1 c.nowNs c.frame (msg / 2 ^ 32) inj msg).2
  else c1.postFull

/-! ### Sampling (R350, R353) -/

/-- Does a change of a sampled value exceed the deadband? A raw word changes with any bit. (notes/assumptions: 29 DEDUCED) -/
def RecChan.moved (k : RecChan) (raw : Bool) (was now : Nat) : Bool :=
  if raw then decide (was ≠ now) else fLt k.deadband (fAbs (fSub now was))

/-- The condition of level trigger `t` on a sample (R353): `step` is the sample interval as binary32 seconds.
(notes/assumptions: 29 DEDUCED) -/
def Chip.ltHolds (c : Chip) (t v : Nat) (prev : Option Nat) (step : Nat) : Bool :=
  let hi := c.rd (Reg.Lt.LT_HI t)
  let lo := c.rd (Reg.Lt.LT_LO t)
  match c.rd (Reg.Lt.LT_MODE t) with
  | 1 => fLt hi v
  | 2 => fLt v lo
  | 3 => fLt hi v || fLt v lo
  | 4 => match prev with
    | some p => (Fp.mul (f32.dec hi) (f32.dec step)).lt (Fp.abs (f32.dec (fSub v p)))
    | none => false
  | _ => false

/-- The level triggers of channel `i` see a sample. -/
def Chip.evalTriggers (c : Chip) (i v : Nat) (prev : Option Nat) (step : Nat) : Chip :=
  (List.range 32).foldl (fun c t =>
    if c.rd (Reg.Lt.LT_CHANNEL t) = i ∧ c.rd (Reg.Lt.LT_MODE t) ≠ 0 then
      let holds := c.ltHolds t v prev step
      let x := mapGet LtSt.idle c.recorder.lts t
      let x' : LtSt := if holds then { x with run := x.run + 1 } else LtSt.idle
      { c with recorder := { c.recorder with lts := mapSet LtSt.idle c.recorder.lts t x' } }.wrB (Reg.Lt.LT_MET t) holds
    else c) c

/-- Level trigger `t` fires once its condition has held for LT_HOLD samples; the instant is that of the last of them (R353).
(notes/assumptions: 29 DEDUCED) -/
def Chip.fireLevel (c : Chip) (t : Nat) : Chip :=
  let x := mapGet LtSt.idle c.recorder.lts t
  if c.rd (Reg.Lt.LT_HOLD t) ≤ x.run ∧ 0 < x.run ∧ x.fired = false then
    let c1 := { c with recorder := { c.recorder with lts := mapSet LtSt.idle c.recorder.lts t { x with fired := true } } }.inc
      (Reg.Lt.LT_COUNT t)
    (c1.trigger 2 c.time.frameStart c.frame t false 0).2
  else c

/-- One channel at a frame start (R350). -/
def Chip.sampleChan (c : Chip) (i : Nat) (k : RecChan) : Chip :=
  let lvl := if k.noReduce then 0 else c.rd Reg.Rec.RATE_LEVEL
  let every := k.div * 2 ^ lvl
  if (c.frame + every - k.phase % every) % every ≠ 0 then c
  else
    let v := c.recValue k.src
    let x := c.chanRec i
    let c1 := (c.setChanRec i { x with sample := some v.1, quiet := x.quiet + 1 }).evalTriggers i v.1 x.sample
      (fRat (every * c.period : Nat) 1000000000)
    let moved := match x.rec0 with
      | some w => k.moved v.2.1 w v.1
      | none => true
    if moved then (c1.chanRow i 0 c.time.frameStart c.frame v).countRow k.noReduce
    else if k.heartbeat ≠ 0 ∧ k.heartbeat ≤ x.quiet + 1 then (c1.chanRow i 1 c.time.frameStart c.frame v).countRow k.noReduce
    else c1

/-- RECORDER_SAMPLE and the host orders that wait for the frame start, which come after the level triggers of the same frame (R350,
R353, R359). A recorder that is FULL takes the oldest HELD buffer here once no stream delivers it (R356).
(notes/assumptions: 29 DEDUCED) -/
def Chip.recorderFrame (c0 : Chip) : Chip :=
  if c0.rd Reg.Rec.REC_STATE = 0 then c0
  else
    let c := if c0.rd Reg.Rec.REC_STATE = 4 then c0.nextBuf false else c0
    let c1 := (List.range c.card.recorder.chans.length).foldl (fun c i =>
      match c.card.recorder.chans[i]? with
      | some k => c.sampleChan i k
      | none => c) c
    let ports := c1.recorder.orders
    let c1 := if ports = [] then c1 else (List.range 32).foldl (fun c t => c.fireLevel t) c1
    let c2 := { c1 with recorder := { c1.recorder with orders := [] } }
    (ports.foldl (fun c p =>
      let (r, c') := c.trigger 3 c.time.frameStart c.frame p false 0
      c'.wr (Reg.Rec.TRIG_RESULT p) r) c2).postFull

/-! ### Delivery (R360, R389) -/

/-- The records of a recording in index order. -/
def RecBuf.rows (x : RecBuf) : List RecRow := (x.post ++ x.ring).reverse

/-- The highest rate level in a recording. -/
def RecBuf.maxLevel (x : RecBuf) : Nat := (x.post ++ x.ring).foldl (fun m r => max m r.level) 0

/-- The payload of REC_HEAD. -/
def RecBuf.head (x : RecBuf) (b : Nat) : List Nat :=
  leBytes 4 x.seq ++ [b, bit x.injected + 2 * bit x.preShort + 4 * bit x.postShort + 8 * x.maxLevel, x.cause, 0]
    ++ leBytes 6 (x.trigAt / 1000000000) ++ [0, 0] ++ leBytes 4 (x.trigAt % 1000000000) ++ leBytes 4 x.trigFrame ++ leBytes 4 x.index
    ++ leBytes 8 x.msg ++ leBytes 4 x.rows.length ++ List.replicate 8 0

/-- The next record of the recording that port `p`'s stream is delivering: type, length, payload and the place after it. -/
def Chip.nextPiece (c : Chip) (p : Nat) : Option (Nat × Nat × List Nat × Option Nat) :=
  let s := c.stream p 2
  match s.queue with
  | [] => none
  | b :: _ =>
    let x := c.recBuf b
    let rows := x.rows
    if s.place = 0 then some (0x10, 64, x.head b, some 1)
    else
      let k := s.place - 1
      let n := min 14 (rows.length - k)
      if n = 0 then
        some (0x12, 32, leBytes 4 x.seq ++ leBytes 4 s.sent ++ [bit (!s.broken)] ++ List.replicate 7 0, none)
      else
        some (0x11, 32 + 16 * n, leBytes 4 x.seq ++ leBytes 4 k ++ leBytes 2 n ++ List.replicate 6 0
          ++ ((rows.drop k).take n).flatMap RecRow.bytes, some (k + n + 1))

/-- The delivery of port `p` moves past its next record, which was sent or dropped. -/
def Chip.passPiece (c : Chip) (p typ : Nat) (next : Option Nat) (payload : List Nat) (dropped : Bool) : Chip :=
  let s := c.stream p 2
  let n := if typ = 0x11 ∧ dropped = false then leAt payload 8 2 else 0
  match next with
  | some k => c.setStream p 2 { s with place := k, sent := s.sent + n, broken := s.broken || dropped }
  | none => c.setStream p 2 { s with queue := s.queue.drop 1, place := 0, sent := 0, broken := false }

/-- The stream buffer of port `p` takes records of the recording in delivery while it has room for them.
(notes/assumptions: 29 DEDUCED) -/
def Chip.fillRec (c : Chip) (p : Nat) : Nat → Chip
  | 0 => c
  | fuel + 1 =>
    if c.on (Reg.Strm.ACTIVE p 2) = false then c
    else
      match c.nextPiece p with
      | none => c
      | some (typ, len, payload, next) =>
        if bufUnits (c.stream p 2).buf * 16 + len ≤ 16384 then
          ((c.produce p 2 typ len payload).passPiece p typ next payload false).fillRec p fuel
        else c

/-- A HELD recording is to be delivered to port `p`. -/
def Chip.queueRec (c : Chip) (p b : Nat) : Chip :=
  if c.on (Reg.Strm.ACTIVE p 2) && c.has p .protect then
    let s := c.stream p 2
    (c.setStream p 2 { s with queue := s.queue ++ [b] }).fillRec p 512
  else c

/-- HELD recordings that port `p` has not had, in BD_SEQ order (R387). -/
def Chip.heldFor (c : Chip) (p : Nat) : List Nat :=
  sortOrd (fun a b => decide ((c.recBuf a).seq ≤ (c.recBuf b).seq))
    ((List.range c.nBuffers).filter (fun b => decide ((c.recBuf b).state = 3) && !(c.recBuf b).delivered.contains p))

/-- A buffer is freed: streams stop delivering it; a FULL recorder takes it at once (R359). -/
def Chip.freeRec (c : Chip) (b : Nat) : Chip :=
  let c1 := [0, 1, 2, 3].foldl (fun c p =>
    let s := c.stream p 2
    if s.queue.contains b then
      c.setStream p 2 { s with
        queue := s.queue.filter (fun k => decide (k ≠ b)), place := if s.queue.head? = some b then 0 else s.place
        sent := if s.queue.head? = some b then 0 else s.sent, broken := if s.queue.head? = some b then false else s.broken }
    else c) c
  let c2 := c1.setRecBuf b RecBuf.free
  if c2.rd Reg.Rec.REC_STATE = 4 then c2.takeBuf b false else c2

/-- Every attached port with PROTECT rights has the recording whole. -/
def Chip.deliveredAll (c : Chip) (b : Nat) : Bool :=
  let ports := (List.range 4).filter (fun p => c.has p .protect)
  decide (ports ≠ []) && ports.all (fun p => (c.recBuf b).delivered.contains p)

/-- A whole REC_END of recording `seq` has left for port `p`; with AUTO_RELEASE the buffer is freed once all have it (R356). -/
def Chip.deliveredTo (c : Chip) (p seq : Nat) : Chip :=
  match (List.range c.nBuffers).find? (fun b => decide ((c.recBuf b).state = 3 ∧ (c.recBuf b).seq = seq)) with
  | none => c
  | some b =>
    let x := c.recBuf b
    let c1 := c.setRecBuf b { x with delivered := (p :: x.delivered).eraseDups }
    if c1.on Reg.Rec.AUTO_RELEASE && c1.deliveredAll b then c1.freeRec b else c1

/-! ### Commands -/

/-- RATE_WINDOW_END (R357). (notes/assumptions: 29 DEDUCED) -/
def execRateWindowEnd (dt : Nat) (s : State) : Host.Outcome State Fault Refusal :=
  s.run fun c0 =>
    let c := c0.advance dt
    let st := c.rd Reg.Rec.REC_STATE
    let r := c.recorder
    if st = 0 ∨ st = 4 ∨ c.runNs < r.winAt + 1000000 then c
    else
      let lvl := c.rd Reg.Rec.RATE_LEVEL
      -- records per ms as a fraction: what the post part still takes over the time left at the window's end
      let (num, den) := if st = 3 then
          ((c.postRecords - (c.recBuf (c.rd Reg.Rec.ACTIVE_BUF)).post.length) * 1000000, r.postEnd - (r.winAt + 1000000))
        else (c.preRecords, c.rd Reg.Rec.PRE_TIME)
      -- NR + RD / 2^k > num / den
      let above (k : Nat) : Bool := decide (num * 2 ^ k < (r.nr * 2 ^ k + r.rd) * den)
      let up := (List.range (7 - lvl)).foldl (fun k _ => if above k && decide (lvl + k < 7) then k + 1 else k) 0
      let c1 := { c with recorder := { r with winAt := r.winAt + 1000000, nr := 0, rd := 0 } }
      let setTo (c : Chip) (l : Nat) : Chip :=
        let c1 := { c with recorder := { c.recorder with calm := 0 } }.wr Reg.Rec.RATE_LEVEL l
        ((c1.writeRow (c1.mkRow c1.nowNs 0 7 l false false false c1.frame)).countRow true).inc Reg.Rec.RATE_CHANGES
      if 0 < up then ((setTo c1 (lvl + up)).set Reg.Rec.RATE_REDUCED_SEEN).postFull
      else if 0 < lvl ∧ 4 * (r.nr + r.rd) * den ≤ num then
        if 10 ≤ r.calm + 1 then (setTo c1 (lvl - 1)).postFull else { c1 with recorder := { c1.recorder with calm := r.calm + 1 } }
      else { c1 with recorder := { c1.recorder with calm := 0 } }

/-- LEVEL_TRIGGER (R353): LT_HOLD consecutive samples meet the condition; the instant is that of the last of them. -/
def execLevelTrigger (t : Fin 32) (s : State) : Host.Outcome State Fault Refusal := s.run fun c => c.fireLevel t

/-- TRIG_GO (R353): from the start of the next frame. -/
def execTrigGo (p : PortIx) (s : State) : Host.Outcome State Fault Refusal :=
  s.run fun c =>
    if c.has p .protect = false then c.refuseTo p (Reg.Rec.TRIG_RESULT p) 4
    else { c with recorder := { c.recorder with orders := c.recorder.orders ++ [p.val] } }.wr (Reg.Rec.TRIG_RESULT p) 0

/-- RECORDER_TRIGGER_INSTR (R353): at the start of the frame of execution. -/
def execRecorderTriggerInstr (d : Fin 1024) (s : State) : Host.Outcome State Fault Refusal :=
  s.run fun c => (c.trigger 4 c.time.frameStart c.frame d false 0).2

/-- PRE_TIME_EXPIRY (R354). -/
def execPreTimeExpiry (dt : Nat) (s : State) : Host.Outcome State Fault Refusal :=
  s.run fun c0 =>
    let c := c0.advance dt
    if c.rd Reg.Rec.REC_STATE = 1 ∧ c.recorder.takenAt + c.rd Reg.Rec.PRE_TIME * 1000000 ≤ c.runNs then c.wr Reg.Rec.REC_STATE 2 else c

/-- POST_TIME_EXPIRY (R354). -/
def execPostTimeExpiry (dt : Nat) (s : State) : Host.Outcome State Fault Refusal :=
  s.run fun c0 =>
    let c := c0.advance dt
    if c.rd Reg.Rec.REC_STATE = 3 ∧ c.recorder.postEnd ≤ c.runNs then c.endPost false else c

/-- CLOSING_END (R356): 20 ms after its post part ended a buffer is HELD, and the streams deliver it. -/
def execClosingEnd (dt : Nat) (b : Fin 16) (s : State) : Host.Outcome State Fault Refusal :=
  s.run fun c0 =>
    let c := c0.advance dt
    let x := c.recBuf b
    if x.state = 2 ∧ x.closedAt + 20000000 ≤ c.runNs then
      let c1 := (c.setRecBuf b { x with state := 3 }).inc Reg.Rec.RECORDINGS
      let c2 := [0, 1, 2, 3].foldl (fun c p => c.queueRec p b) c1
      if c2.rd Reg.Rec.REC_STATE = 4 then c2.nextBuf false else c2
    else c

/-- REL_GO (R356). -/
def execRelGo (p : PortIx) (s : State) : Host.Outcome State Fault Refusal :=
  s.run fun c =>
    let res := Reg.Rec.REL_RESULT p
    let b := c.rd (Reg.Rec.REL_BUF p)
    if c.has p .protect = false then c.refuseTo p res 3
    else if (c.recBuf b).state = 3 then (c.freeRec b).wr res 1
    else c.wr res 2

/-- RD_W0_READ (R360): the record at RD_IDX of RD_BUF is latched, and RD_IDX counts on. (notes/assumptions: 29 DEDUCED) -/
def execRdW0Read (p : PortIx) (s : State) : Host.Outcome State Fault Refusal :=
  s.run fun c =>
    if c.has p .protect = false ∧ c.has p .maint = false then c
    else
      let x := c.recBuf (c.rd (Reg.Rec.RD_BUF p))
      let i := c.rd (Reg.Rec.RD_IDX p)
      let recording := decide (x.state = 2 ∨ x.state = 3 ∨ (x.state = 1 ∧ c.rd Reg.Rec.REC_STATE = 3))
      let row := if recording then x.rows[i]? else none
      let w := (row.map RecRow.bytes).getD []
      let res := if row.isSome then 0 else if x.state = 1 ∨ x.state = 2 then 2 else 1
      let put (c : Chip) (f : Fld) (v : Nat) : Chip := (c.wr f v).latchOwn f
      (put (put (put (put (put c (Reg.Rec.RD_W0 p) (leAt w 0 4)) (Reg.Rec.RD_W1 p) (leAt w 4 4)) (Reg.Rec.RD_W2 p) (leAt w 8 4))
        (Reg.Rec.RD_W3 p) (leAt w 12 4)) (Reg.Rec.RD_RESULT p) res).inc (Reg.Rec.RD_IDX p)

/-- The description of the buffer that port `p` has selected. -/
def Chip.showBuf (c : Chip) (p : Nat) : Chip :=
  let b := c.rd (Reg.Rec.BD_SEL p)
  let x := c.recBuf b
  ((((((((((((((((c.wr (Reg.Rec.BD_STATE p) x.state).wrB (Reg.Rec.BD_INJECTED p) x.injected).wrB (Reg.Rec.PRE_SHORT p) x.preShort).wrB
    (Reg.Rec.POST_SHORT p) x.postShort).wrB (Reg.Rec.BD_DELIVERED p) (decide (x.state = 3) && c.deliveredAll b)).wr
    (Reg.Rec.BD_MAX_LEVEL p) x.maxLevel).wr (Reg.Rec.BD_TRIGGERS p) x.triggers).wr (Reg.Rec.BD_SEQ p) x.seq).wr
    (Reg.Rec.BD_TRIG_NS p) (x.trigAt % 1000000000)).wr (Reg.Rec.BD_TRIG_SEC_LO p) (x.trigAt / 1000000000)).wr
    (Reg.Rec.BD_TRIG_SEC_HI p) (x.trigAt / 1000000000 / 2 ^ 32)).wr (Reg.Rec.BD_CAUSE p) x.cause).wr (Reg.Rec.BD_TRIG_FRAME p)
    x.trigFrame).wr (Reg.Rec.BD_INDEX p) x.index).wr (Reg.Rec.BD_FIRST_MSG_LO p) x.msg).wr (Reg.Rec.BD_FIRST_MSG_HI p)
    (x.msg / 2 ^ 32)).wr (Reg.Rec.BD_RECORDS p) x.rows.length

/-- The fields of the description, which one read of BD_STATE snapshots together. -/
def bdGroup (p : Nat) : List Fld :=
  [Reg.Rec.BD_STATE p, Reg.Rec.BD_INJECTED p, Reg.Rec.PRE_SHORT p, Reg.Rec.POST_SHORT p, Reg.Rec.BD_DELIVERED p, Reg.Rec.BD_MAX_LEVEL p,
    Reg.Rec.BD_TRIGGERS p, Reg.Rec.BD_SEQ p, Reg.Rec.BD_TRIG_NS p, Reg.Rec.BD_TRIG_SEC_LO p, Reg.Rec.BD_TRIG_SEC_HI p,
    Reg.Rec.BD_CAUSE p, Reg.Rec.BD_TRIG_FRAME p, Reg.Rec.BD_INDEX p, Reg.Rec.BD_FIRST_MSG_LO p, Reg.Rec.BD_FIRST_MSG_HI p,
    Reg.Rec.BD_RECORDS p]

/-- BD_STATE_READ (R5). -/
def execBdStateRead (p : PortIx) (s : State) : Host.Outcome State Fault Refusal :=
  s.run fun c => if c.has p .observe then (bdGroup p).foldl (fun c f => c.latchOwn f) (c.showBuf p) else c

/-- BULK_CELL_CAPTURE_RX (R352, R356): each entry becomes a CELL record, in the CLOSING buffer whose window holds the action, or in
the buffer that records now. (notes/assumptions: 29 DEDUCED) -/
def execBulkCellCaptureRx (dt : Nat) (blocks : List Byte) (s : State) : Host.Outcome State Fault Refusal :=
  s.run fun c0 =>
    let c := c0.advance dt
    match c.bulkIn (blocks.map BitVec.toNat) 4 with
    | none => c
    | some (a, r) =>
      let (new, c1) := c.ackBulk a r
      if !new then c1
      else
        let full (st : Nat) : Nat := ((c1.nowNs : Int) - signedDiff 32 c1.stamp st).toNat
        let at0 := full (leAt r.payload 4 4)
        let closing := (List.range c1.nBuffers).find? (fun b =>
          let x := c1.recBuf b
          decide (x.state = 2 ∧ x.from0 ≤ at0 ∧ c1.runAt at0 ≤ x.closedAt))
        ((List.range (r.payload.length / 8 - 1)).foldl (fun c k =>
          let w0 := leAt r.payload (8 + 8 * k) 4
          let w1 := leAt r.payload (12 + 8 * k) 4
          let t := full w1
          let row := c.mkRow t a 4 w0 true false false (c.frameAfter (-(((c.nowNs - t) / c.period : Nat) : Int)))
          match closing with
          | some b =>
            let x := c.recBuf b
            if x.post.length < c.postRecords then c.setRecBuf b { x with post := row :: x.post } else c
          | none =>
            if c.rd Reg.Rec.REC_STATE = 0 ∨ c.rd Reg.Rec.REC_STATE = 4 then c
            else ((c.writeRow row).countRow true).postFull) c1)

end Sys2Proof.Machine
end

