-- ==== Sys2Proof/Machine/Faults.lean ====
section
/-! DEFINITION. The fault collector (chapter 15): classes and severities (R329, R330), collection cycles and their order (R331,
R337), escalation (R336), reactions (R332 to R335), the first fault (R338), injection (R339, R340), the pins (R341, R342), unfencing
(R343) and the log (R345). -/

namespace Sys2Proof.Machine

/-! ### Classes (R329, R330) -/

/-- The level that a kind belongs to; 0 for a kind that is not listed (R329). -/
def kindLevel (k : Nat) : Nat :=
  if (1 ≤ k ∧ k ≤ 0x1A) ∨ k = 0x3F then 1
  else if (0x40 ≤ k ∧ k ≤ 0x43) ∨ k = 0x5F then 2
  else if (0x60 ≤ k ∧ k ≤ 0x61) ∨ k = 0x6F then 3
  else if (0x70 ≤ k ∧ k ≤ 0x7A) ∨ k = 0x8F then 4
  else if (0x90 ≤ k ∧ k ≤ 0x92) ∨ k = 0x9F then 5
  else if (0xA0 ≤ k ∧ k ≤ 0xA7) ∨ k = 0xCF then 6
  else 0

/-- The message bits of an arrival, REPEAT and ESCALATED clear (R328). -/
def Arrival.bits64 (m : Arrival) : Nat :=
  m.level * 2 ^ 60 + m.source * 2 ^ 44 + m.kind * 2 ^ 36 + bit m.injected * 2 ^ 35 + bit m.fenced * 2 ^ 32 + m.detail

/-- The arrival that 64 message bits stand for. -/
def msgArrival (w frame : Nat) (late : Bool) : Arrival :=
  ⟨bits w 60 4, bits w 44 16, bits w 36 8, bits w 0 32, decide (bits w 35 1 = 1), decide (bits w 32 1 = 1), late, 0, frame⟩

/-- A message of an unlisted kind, or of a kind of another level, becomes kind 0xFF with its upper word as detail (R329). -/
def Arrival.classed (m : Arrival) : Arrival :=
  if kindLevel m.kind = m.level ∧ m.level ≠ 0 then m
  else { m with kind := 0xFF, detail := m.bits64 / 2 ^ 32 % 2 ^ 32, minSev := 0 }

/-- Base severity of an occurrence: its class severity, or the higher one that a rule fixes for it; 2 for kind 0xFF (R329, R330). -/
def Chip.baseSev (c : Chip) (m : Arrival) : Nat := if m.kind = 0xFF then 2 else max (c.rd (Reg.Class.SEVERITY m.kind)) m.minSev

/-! ### Escalation (R336) -/

/-- An occurrence as the collector has judged it. -/
structure Judged where
  m : Arrival
  base : Nat
  eff : Nat
  repeated : Bool
  tableFull : Bool
  capped : Bool
  deriving DecidableEq, Repr

/-- Has an entry the key of this occurrence? -/
def HeldFault.isKey (e : HeldFault) (m : Arrival) : Bool :=
  decide (e.level = m.level ∧ e.kind = m.kind ∧ e.source = m.source ∧ e.injected = m.injected)

/-- The active table takes an occurrence (R336): what it is judged to be, and the table after it. An injected one is capped
unless LIVE_INJECTION is set (R339). (notes/assumptions: 31 DEDUCED) -/
def Chip.judgeFault (c : Chip) (held : List HeldFault) (m : Arrival) : Judged × List HeldFault :=
  let base := c.baseSev m
  let capped := m.injected && !c.on Reg.Flt.LIVE_INJECTION
  if c.on (Reg.Class.AUTO_ACK m.kind) ∨ base = 0 then (⟨m, base, base, false, false, capped⟩, held)
  else
    match held.find? (fun e => e.isKey m) with
    | some e =>
      let eff := min 7 (max base (e.eff + 1))
      (⟨m, base, eff, true, false, capped⟩,
        held.map (fun (x : HeldFault) => if x.isKey m then { x with eff := eff, count := x.count + 1, capped := capped } else x))
    | none =>
      if 1024 ≤ held.length then (⟨m, base, base, false, true, capped⟩, held)
      else (⟨m, base, base, false, false, capped⟩, held ++ [⟨m.level, m.kind, m.source, m.injected, base, 1, capped⟩])

/-- Judge the occurrences of a cycle in order. -/
def Chip.judgeFaults (c : Chip) : List HeldFault → List Arrival → List Judged × List HeldFault
  | held, [] => ([], held)
  | held, m :: ms =>
    let (j, held1) := c.judgeFault held m
    let (js, held2) := c.judgeFaults held1 ms
    (j :: js, held2)

/-- The severity that a fault's reactions and the FAULT_N pin take it at (R339). -/
def Judged.sev (j : Judged) : Nat := if j.capped then min 2 j.eff else j.eff

/-- The order of R337: does the first of two arrivals, with their provisional severities, come no later than the second? -/
def firstOrder (x y : Nat × Arrival) : Bool :=
  let (px, a) := x
  let (py, b) := y
  if a.injected ≠ b.injected then b.injected
  else if px ≠ py then decide (py < px)
  else if a.level ≠ b.level then decide (b.level < a.level)
  else if a.source ≠ b.source then decide (a.source < b.source)
  else decide (a.kind ≤ b.kind)

/-- The arrivals of a cycle in the order of R337. -/
def Chip.ordered (c : Chip) (held : List HeldFault) (l : List Arrival) : List Arrival :=
  (sortOrd firstOrder (l.map (fun m => ((c.judgeFault held m).1.eff, m)))).map (fun e => e.2)

/-! ### Reactions (R332 to R334) -/

/-- The regions of a source (R333). (notes/assumptions: 31 DEDUCED) -/
def faultRegions (level source : Nat) : Nat :=
  if level = 1 then 2 ^ (source / 2048 % 8)
  else if level = 2 then 2 ^ (source / 32 % 8)
  else if level = 3 then 2 ^ (source % 8)
  else if level = 4 ∧ source < 4 then 3 * 4 ^ source
  else if level = 4 ∧ (source = 0x10 ∨ source = 0x11) then (if source = 0x10 then 0x0F else 0xF0)
  else 0xFF

/-- A severity-6 reaction: every deblocked region is blocked, and BLOCK_ORIGIN holds the regions of the source that began the
block (R333). -/
def Chip.blockFrom (c : Chip) (level source : Nat) : Chip :=
  let c1 := if c.allBlocked && decide (c.rd Reg.Flt.BLOCK_ORIGIN ≠ 0) then c else c.wr Reg.Flt.BLOCK_ORIGIN (faultRegions level source)
  c1.blockRegions 0xFF

/-- Rope `g` is fenced (R335): BYPASS commands, then DOWN at a MODE_DECIDE. Answers whether it was not fenced before. -/
def Chip.fenceRope (c : Chip) (g : Nat) : Chip :=
  let c1 := { c with faults := { c.faults with fencedRopes := if g ∈ c.faults.fencedRopes then c.faults.fencedRopes
    else c.faults.fencedRopes ++ [g] } }
  if c1.mode g = 3 ∨ (c1.rope g).goingDown ≠ 0 then c1
  else c1.setRope g { c1.rope g with goingDown := 1, comingUp := false }

/-- A severity-4 reaction soft-fences the cell at `a` through FENCE_REQ (R224, R334), unless it is fenced already. -/
def Chip.fenceByFault (c : Chip) (a : Nat) (already : Bool) : Chip :=
  if already || decide (a ∈ c.faults.fencedCells) || decide ((c.posn a).state = 8) then c
  else
    ({ c with faults := { c.faults with fencedCells := c.faults.fencedCells ++ [a] } }).sendMgmt 1 a 0x08 2 7

/-- A unit of levels 4 to 6 that no register shows fenced is marked fenced. -/
def Chip.markFenced (c : Chip) (level source : Nat) : Chip :=
  if (level, source) ∈ c.faults.fencedUnits then c
  else { c with faults := { c.faults with fencedUnits := c.faults.fencedUnits ++ [(level, source)] } }

/-- Is the unit fenced by level and source, beyond cells and ropes? -/
def Chip.unitFenced (c : Chip) (level source : Nat) : Bool :=
  let on (f : Fld) (k : Nat) : Bool := decide (bits (c.rd f) k 1 = 1)
  if level = 4 then
    if source < 4 then on Reg.Flt.RIDGES_FENCED source
    else if source = 0x10 ∨ source = 0x11 then on Reg.Flt.LINKS_FENCED (source - 0x10)
    else if source = 0x110 ∨ source = 0x111 then on Reg.Flt.PLANES_FENCED (source - 0x110)
    else false
  else if level = 6 then
    if source < 4 then on Reg.Flt.HOSTS_FENCED source
    else if source = 0x10 then decide ((6, 0x10) ∈ c.faults.fencedUnits)
    else if 0x30 ≤ source ∧ source < 0x38 then (c.safIn (source - 0x30)).fenced
    else if source = 0x40 ∨ source = 0x41 then on Reg.Flt.CAN_FENCED (source - 0x40)
    else false
  else false

/-- Fence a unit of levels 2 to 6 (R334). A unit fenced already is left as it is. At level 5 and for the route card the reaction is
that of severity 3, a station derate, which `faultSummary` puts in force. -/
def Chip.fenceUnit (c : Chip) (level source : Nat) : Chip :=
  if level = 2 then c.fenceRope source
  else if level = 3 then c.blockFrom level source
  else if level = 5 ∨ c.unitFenced level source = true then c
  else if level = 4 then
    if source < 4 then (c.loseRidge source 0).putBit Reg.Flt.RIDGES_FENCED source true
    else if source = 0x10 ∨ source = 0x11 then (c.loseLink (source - 0x10)).putBit Reg.Flt.LINKS_FENCED (source - 0x10) true
    else if source = 0x110 ∨ source = 0x111 then
      (c.losePlane (source - 0x110) false).putBit Reg.Flt.PLANES_FENCED (source - 0x110) true
    else if source = 0x100 then (c.tripStation).set Reg.Flt.TRIP_SEEN
    else c
  else
    if source < 4 then c.suspend source
    else if source = 0x10 then (c.markFenced 6 0x10).rejectReference
    else if 0x30 ≤ source ∧ source < 0x38 then c.fenceInput (source - 0x30)
    else if source = 0x40 ∨ source = 0x41 then
      (c.canOffline (16384 + (source - 0x40))).putBit Reg.Flt.CAN_FENCED (source - 0x40) true
    else c

/-- Does a severity-4 reaction fence this source, so that its message carries FENCED? -/
def fencesSource (level source : Nat) : Bool :=
  decide (level ≤ 2) || (decide (level = 4) && decide (source < 4 ∨ source = 0x10 ∨ source = 0x11 ∨ source = 0x110 ∨ source = 0x111))
    || (decide (level = 6) && decide (source < 4 ∨ source = 0x10 ∨ (0x30 ≤ source ∧ source < 0x38) ∨ source = 0x40 ∨ source = 0x41))

/-- The reactions of an occurrence from severity 4 up, each severity after every one below it (R332, R334).
(notes/assumptions: 31 DEDUCED) -/
def Chip.react (c : Chip) (j : Judged) : Chip :=
  let m := j.m
  let sev := if m.kind = 0xFF then min 2 j.sev else j.sev
  let c1 :=
    if sev < 4 then c
    else if m.level = 1 then
      let c1 := c.fenceByFault m.source m.fenced
      if 5 ≤ sev then c1.fenceRope (m.source / 64) else c1
    else c.fenceUnit m.level m.source
  let c2 := if 6 ≤ sev then c1.blockFrom m.level m.source else c1
  if 7 ≤ sev then (c2.tripStation).set Reg.Flt.TRIP_SEEN else c2

/-! ### The log (R345) -/

/-- The message of a log entry with its final flags. -/
def LogEntry.msg (e : LogEntry) : Nat :=
  e.level * 2 ^ 60 + e.source * 2 ^ 44 + e.kind * 2 ^ 36 + bit e.injected * 2 ^ 35 + bit e.repeated * 2 ^ 34 + bit e.escalated * 2 ^ 33
    + bit e.fenced * 2 ^ 32 + e.detail

/-- The 16 bytes of a log entry. -/
def LogEntry.bytes (e : LogEntry) : List Nat :=
  leBytes 8 e.msg ++ leBytes 4 e.stamp ++ leBytes 2 (e.cycle % 65536)
    ++ [e.effSev + 8 * e.baseSev + 64 * bit e.sameCycle + 128 * bit e.first, bit e.capped + 2 * bit e.tableFull + 4 * bit e.late]

/-- An occurrence is counted, reacts, and is logged, streamed and recorded (R332, R345, R353). -/
def Chip.handle (c : Chip) (j : Judged) (same first : Bool) : Chip :=
  let m := j.m
  let c1 := c.inc (Reg.Class.CLASS_COUNT m.kind)
  let c2 := if m.injected then c1.inc Reg.Flt.INJECTED_COUNT else c1
  let c3 := if j.base < j.eff then (c2.inc Reg.Flt.ESCALATED_COUNT).set Reg.Flt.ESCALATED_SEEN else c2
  let c4 := if j.tableFull then c3.set Reg.Flt.TABLE_FULL_SEEN else c3
  if j.eff = 0 then c4
  else
    let c5 := c4.react j
    let fenced := m.fenced || (decide (4 ≤ j.sev ∧ m.kind ≠ 0xFF) && fencesSource m.level m.source)
    let e : LogEntry := ⟨m.level, m.source, m.kind, m.detail, m.injected, j.repeated, decide (j.base < j.eff), fenced, c5.stamp,
      c5.faults.cycle, j.eff, j.base, same, first, j.capped, j.tableFull, m.late⟩
    let seq := c5.rd Reg.Flt.LOG_HEAD
    let c6 := ({ c5 with faults := { c5.faults with log := (e :: c5.faults.log).take 16384 } }.inc Reg.Flt.LOG_HEAD).set
      Reg.Flt.NEW_FAULT_SEEN
    let c7 := if m.injected then c6.set Reg.Flt.INJECTED_SEEN else c6
    let c8 := if 2 ≤ j.eff then c7.produceAll 0 0x01 32 e.bytes else c7
    let c9 := (c8.recordFault seq m.kind j.eff e.msg m.injected).traceFault j.sev
    if m.kind = 0xFF then c9 else c9.faultReaction m.level m.kind

/-! ### Acknowledgement and unfencing at a cycle close (R331, R336, R343) -/

/-- One acknowledgement: the entries it names leave the table. -/
def Chip.acknowledge (c : Chip) (k : AckReq) : Chip :=
  let names (e : HeldFault) : Bool :=
    k.all || decide (e.level = k.level ∧ e.kind = k.kind ∧ e.source = k.source ∧ e.injected = k.injected)
  let hit := k.all || c.faults.held.any names
  ({ c with faults := { c.faults with held := c.faults.held.filter (fun e => !names e) } }).wr (Reg.Flt.ACK_RESULT k.port)
    (if hit then 1 else 2)

/-- Does a held entry of the unit count at 4 or more (R343)? (notes/assumptions: 32 DEDUCED) -/
def Chip.unitHeld (c : Chip) (level source : Nat) : Bool :=
  c.faults.held.any (fun e => decide (e.level = level ∧ e.source = source ∧ 4 ≤ e.counts))

/-- The policy's own fences of the cell at `a` end, and POLICY_UNFENCE_HOLD starts for their causes (R162, R164). -/
def Chip.liftPolicy (c : Chip) (a : Nat) : Chip :=
  let x := c.pol a
  let causes := (if x.packFenced then [x.fenceCause] else []) ++ (if x.cellFenced then [6] else [])
  let c1 := c.setPol a { x with
    packFenced := false, cellFenced := false, jumped := false, disagree := 0, barred := causes.map (fun k => (k, c.runNs)) ++
      x.barred.filter (fun e => decide (e.1 ∉ causes)) }
  if x.packFenced then c1.sendMgmt 1 a 0xD1 256 7 else c1

/-- The cell at `a` is no longer fenced for the WC8400. -/
def Chip.dropFence (c : Chip) (a : Nat) : Chip :=
  { c with faults := { c.faults with fencedCells := c.faults.fencedCells.filter (fun x => decide (x ≠ a)) } }

/-- A unit of levels 4 to 6 is unfenced (R343). -/
def Chip.liftUnit (c : Chip) (level source : Nat) : Chip :=
  if level = 4 then
    if source = 0x10 ∨ source = 0x11 then c.putBit Reg.Flt.LINKS_FENCED (source - 0x10) false
    else (c.putBit Reg.Flt.PLANES_FENCED (source - 0x110) false).set Reg.Die.RESYNC
  else if source < 4 then c.unsuspend source
  else if source = 0x10 then
    { c with faults := { c.faults with fencedUnits := c.faults.fencedUnits.filter (fun u => decide (u ≠ (6, 0x10))) } }
  else if 0x30 ≤ source ∧ source < 0x38 then
    c.setSafIn (source - 0x30) { c.safIn (source - 0x30) with fenced := false, cleanFrom := c.runNs }
  else (c.canOnline (16384 + (source - 0x40))).putBit Reg.Flt.CAN_FENCED (source - 0x40) false

/-- One unfence order, at the close of its cycle: port, level, index. (notes/assumptions: 32 DEDUCED) -/
def Chip.unfence1 (c : Chip) (o : Nat × Nat × Nat) : Chip :=
  let (p, level, ix) := o
  let res := Reg.Flt.UNFENCE_RESULT p
  if c.unitHeld level ix then c.wr res 2
  else if level = 1 then
    if (c.posn ix).state = 8 ∨ ix ∈ c.faults.fencedCells then
      let c1 := (c.liftPolicy ix).sendMgmt 1 ix 0x08 4 7
      { c1 with faults := { c1.faults with unfencing := c1.faults.unfencing ++ [(ix, p)] } }
    else if (c.pol ix).packFenced then (c.liftPolicy ix).wr res 1
    else c.wr res 2
  else if c.unitFenced level ix then (c.liftUnit level ix).wr res 1
  else c.wr res 2

/-- UNFENCE_REQ came back from the cell (R224, R343): refused by the condition of R224, or the cell's fence is gone. -/
def Chip.unfenceBack (c : Chip) (a result : Nat) : Chip :=
  match c.faults.unfencing.find? (fun e => decide (e.1 = a)) with
  | none => c
  | some e =>
    let c1 := { c with faults := { c.faults with unfencing := c.faults.unfencing.erase e } }
    let res := Reg.Flt.UNFENCE_RESULT e.2
    if result = 1 ∨ (result = 2 ∧ (c.posn a).state ≠ 8) then (c1.dropFence a).wr res 1
    else c1.wr res (if result = 2 then 4 else 2)

/-- The second entry of an injection through a cell came back (R340). -/
def Chip.injectBack (c : Chip) (a result : Nat) : Chip :=
  match c.faults.injecting.find? (fun e => decide (e.2 = a)) with
  | none => c
  | some e =>
    ({ c with faults := { c.faults with injecting := c.faults.injecting.erase e } }).wr (Reg.Flt.INJ_RESULT e.1)
      (if result = 1 then 1 else 2)

/-- What an entry that came back means, with those of this chapter: 6 an injection, 7 a fence or unfence. -/
def Chip.mgmtBack (c : Chip) (m : MgmtReq) (result data : Nat) : Chip :=
  if m.why = 6 then (if m.reg = 0xF4 then c.injectBack m.addr result else c)
  else if m.why = 7 then (if m.reg = 0x08 ∧ m.data = 4 then c.unfenceBack m.addr result else c)
  else c.mgmtReturn m result data

/-- A returned entry finds the one that was sent; RESULT 0, which says that the cell was not reached, repeats it up to three
times (R307). -/
def Chip.entryBack (c : Chip) (tag addr result data : Nat) : Chip :=
  let g := addr / 64
  let x := c.rope g
  match x.mgmtSent.find? (fun m => decide (m.tag = tag % 256) && decide (m.addr = addr)) with
  | none => c
  | some m =>
    let c1 := c.setRope g { x with mgmtSent := x.mgmtSent.erase m }
    if result = 0 ∧ m.repeats < 3 ∧ (m.why ≠ 1 ∨ m.reg ≠ 0x05 ∨ (c.posn addr).admState ≠ 3) then
      let y := c1.rope g
      c1.setRope g { y with mgmtOut := { m with repeats := m.repeats + 1 } :: y.mgmtOut }
    else c1.mgmtBack m result data

/-! ### The first-fault register (R338) -/

/-- FIRST_RESET empties the register. -/
def Chip.firstReset (c : Chip) (p : Nat) : Chip :=
  (((((((c.clr Reg.Flt.FIRST_MSG_LO).clr Reg.Flt.FIRST_MSG_HI).clr Reg.Flt.FIRST_STAMP).clr Reg.Flt.FIRST_FRAME).clr
    Reg.Flt.FIRST_SEV).clr Reg.Flt.FIRST_VALID).clr Reg.Flt.FIRST_COMPANIONS).wr (Reg.Flt.RESET_RESULT p) 1

/-- Which fault of a judged cycle the register takes, if it is empty: the first in order when a real one reaches FIRST_MIN_SEV, else
with live injection the first injected one when an injected one reaches it. -/
def Chip.firstPick (c : Chip) (js : List Judged) : Option Nat :=
  let min := c.rd Reg.Flt.FIRST_MIN_SEV
  if c.on Reg.Flt.FIRST_VALID then none
  else if js.any (fun j => decide (j.m.injected = false ∧ min ≤ j.eff)) then some 0
  else if c.on Reg.Flt.LIVE_INJECTION && js.any (fun j => decide (min ≤ j.eff)) then
    (List.range js.length).find? (fun i => ((js[i]?).map (fun j => j.m.injected)).getD false)
  else none

/-- The register takes a fault that has just been handled: its final message heads the log if it was logged.
(notes/assumptions: 32 DEDUCED) -/
def Chip.takeFirst (c : Chip) (j : Judged) (companions : Nat) : Chip :=
  let msg := match c.faults.log with
    | e :: _ => if j.eff = 0 then j.m.bits64 else e.msg
    | [] => j.m.bits64
  (((((((c.wr Reg.Flt.FIRST_MSG_LO msg).wr Reg.Flt.FIRST_MSG_HI (msg / 2 ^ 32)).wr Reg.Flt.FIRST_STAMP c.stamp).wr
    Reg.Flt.FIRST_FRAME j.m.frame).wr Reg.Flt.FIRST_SEV j.eff).set Reg.Flt.FIRST_VALID).wr Reg.Flt.FIRST_COMPANIONS
    (satNat 8 companions))

/-! ### The close of a cycle (R331) -/

/-- Handle the faults of a cycle in order. -/
def Chip.handleAll (c : Chip) (first : Option Nat) (n : Nat) : Nat → List Judged → Chip
  | _, [] => c
  | i, j :: js =>
    let here := decide (first = some i)
    let c1 := c.handle j (decide (1 < n)) here
    (if here then c1.takeFirst j (n - 1) else c1).handleAll first n (i + 1) js

/-- FAULT_N goes low for 2 ms; a pulse that runs is restarted (R341). -/
def Chip.pulseFaultN (c : Chip) : Chip :=
  ({ c with faults := { c.faults with pulseEnd := some (c.runNs + 2000000) } }.set Reg.Flt.FAULT_N_LOW).set Reg.Flt.PULSE_RUNNING

/-- One TRIP_RESET, after the faults of its cycle (R331, R342, R346). -/
def Chip.tripReset (c : Chip) (p : Nat) : Chip :=
  if c.faults.held.any (fun e => decide (e.counts = 7)) || c.on Reg.Saf.TRIP_DEMAND || c.faults.tripOrdered then
    c.wr (Reg.Flt.RESET_RESULT p) 2
  else (c.clr Reg.Flt.TRIP).wr (Reg.Flt.RESET_RESULT p) 1

/-- The summary registers follow the table and the fences (R334, R344, R347). -/
def Chip.faultSummary (c : Chip) : Chip :=
  let held := c.faults.held
  let top := held.foldl (fun m (e : HeldFault) => max m e.counts) 0
  let cells := (c.pos.filter (fun e => decide (e.2.state = 8 ∨ e.1 ∈ c.faults.fencedCells))).length
    + (c.faults.fencedCells.filter (fun a => decide ((c.posn a) = PosSt.idle))).length
  let c1 := ((((c.wr Reg.Flt.ACTIVE_ENTRIES held.length).wrB Reg.Flt.TABLE_FULL (decide (1024 ≤ held.length))).wr
    Reg.Flt.UNACK_MAX_SEV top).wrB Reg.Flt.BLOCK_ACTIVE (decide (6 ≤ top))).wrB Reg.Flt.DERATE_ACTIVE
    (held.any (fun e => decide (2 ≤ e.level ∧ e.kind ≠ 0xFF ∧ 3 ≤ e.counts)))
  ((c1.wr Reg.Flt.CELLS_FENCED cells).wr Reg.Flt.ROPES_FENCED c1.faults.fencedRopes.length).setScale

/-- COLLECTION_CYCLE_CLOSE (R331): acknowledgements, unfence orders and FIRST_RESET; the faults in first-fault order; TRIP_RESET.
(notes/assumptions: 31 DEDUCED) -/
def Chip.closeCycle (c : Chip) : Chip :=
  let f := c.faults
  let c0 := { c with faults := { f with arrivals := [], acks := [], unfences := [], firstResets := [], tripResets := [] } }
  let c1 := f.firstResets.foldl (fun c p => c.firstReset p)
    (f.unfences.foldl (fun c o => c.unfence1 o) (f.acks.foldl (fun c k => c.acknowledge k) c0))
  let ms := f.arrivals.map Arrival.classed
  let (js, held) := c1.judgeFaults c1.faults.held (c1.ordered c1.faults.held ms)
  let first := c1.firstPick js
  let c2 := { c1 with faults := { c1.faults with held := held } }.handleAll first js.length 0 js
  let c3 := if js.any (fun j => decide (c2.rd Reg.Flt.FAULT_PIN_SEV ≤ j.sev)) then c2.pulseFaultN else c2
  let c4 := (f.tripResets.foldl (fun c p => c.tripReset p) c3)
  { c4 with faults := { c4.faults with tripOrdered := false, cycle := c4.faults.cycle + 1 } }.faultSummary

/-! ### Commands -/

/-- FAULT_MESSAGE_RX (R328, R331): the message joins the cycle in progress; the collector sets REPEAT and ESCALATED itself. -/
def execFaultMessageRx (msg : BitVec 64) (frame : Word) (late : Bool) (s : State) : Host.Outcome State Fault Refusal :=
  s.run fun c => c.receive (msgArrival msg.toNat frame.toNat late)

/-- An acknowledgement of port `p`, of one key or of all: it acts at the close of the cycle (R331, R336, R347).
(notes/assumptions: 32 DEDUCED) -/
def Chip.ackOrder (c : Chip) (p : Nat) (all : Bool) : Chip :=
  if c.has p .protect = false ∧ c.has p .maint = false then c.refuseTo p (Reg.Flt.ACK_RESULT p) 3
  else
    let k : AckReq := ⟨p, all, c.rd (Reg.Flt.ACK_LEVEL p), c.rd (Reg.Flt.ACK_KIND p), c.rd (Reg.Flt.ACK_SOURCE p),
      c.on (Reg.Flt.ACK_INJ p)⟩
    ({ c with faults := { c.faults with acks := c.faults.acks ++ [k] } }).wr (Reg.Flt.ACK_RESULT p) 0

/-- ACK_GO (R336). -/
def execAckGo (p : PortIx) (s : State) : Host.Outcome State Fault Refusal := s.run fun c => c.ackOrder p false

/-- ACK_ALL (R336). (notes/assumptions: 32 DEDUCED) -/
def execAckAll (p : PortIx) (s : State) : Host.Outcome State Fault Refusal := s.run fun c => c.ackOrder p true

/-- FIRST_RESET (R331, R338). -/
def execFirstReset (p : PortIx) (s : State) : Host.Outcome State Fault Refusal :=
  s.run fun c =>
    if c.has p .protect = false then c.refuseTo p (Reg.Flt.RESET_RESULT p) 3
    else ({ c with faults := { c.faults with firstResets := c.faults.firstResets ++ [p.val] } }).wr (Reg.Flt.RESET_RESULT p) 0

/-- TRIP_RESET (R331, R342). -/
def execTripReset (p : PortIx) (s : State) : Host.Outcome State Fault Refusal :=
  s.run fun c =>
    if c.has p .protect = false then c.refuseTo p (Reg.Flt.RESET_RESULT p) 3
    else ({ c with faults := { c.faults with tripResets := c.faults.tripResets ++ [p.val] } }).wr (Reg.Flt.RESET_RESULT p) 0

/-- INJ_GO (R340): level 1 through the named cell, other levels into the cycle in progress. (notes/assumptions: 32 DEDUCED) -/
def execInjGo (p : PortIx) (s : State) : Host.Outcome State Fault Refusal :=
  s.run fun c =>
    let res := Reg.Flt.INJ_RESULT p
    if c.has p .protect = false ∧ c.has p .maint = false then c.refuseTo p res 3
    else if c.faults.injecting.any (fun e => decide (e.1 = p.val)) then c.wr res 4
    else
      let w := c.rd (Reg.Flt.INJ_MSG_LO p) + c.rd (Reg.Flt.INJ_MSG_HI p) * 2 ^ 32
      let m := msgArrival w c.frame false
      if m.level = 0 ∨ 6 < m.level then c.wr res 2
      else if m.level = 1 then
        if level1Kind m.kind = false ∨ 16384 ≤ m.source ∨ c.population (m.source / 64) ≤ m.source % 64 then c.wr res 2
        else
          let c1 := ((c.sendMgmt 1 m.source 0xF3 m.detail 6).sendMgmt 1 m.source 0xF4 (m.kind + 0x100) 6).wr res 0
          { c1 with faults := { c1.faults with injecting := c1.faults.injecting ++ [(p.val, m.source)] } }
      else (c.receive { m with injected := true, fenced := false }).wr res 1

/-- CELL_INJ_GO (R348). -/
def execCellInjGo (a : CellAddr) (s : State) : Host.Outcome State Fault Refusal := s.run fun c => c.cellInject a

/-- UNFENCE_GO (R331, R343): it acts at the close of the cycle. An unsatisfied two-hand function, where the card ties unfences to
one, refuses it (R365). (notes/assumptions: 30 DEDUCED) -/
def execUnfenceGo (p : PortIx) (s : State) : Host.Outcome State Fault Refusal :=
  s.run fun c =>
    let res := Reg.Flt.UNFENCE_RESULT p
    let level := c.rd (Reg.Flt.UNFENCE_LEVEL p)
    let ix := c.rd (Reg.Flt.UNFENCE_INDEX p)
    if c.has p .maint = false then c.refuseTo p res 3
    else if c.twoHandOk 1 = false then c.wr res 2
    else if level = 2 ∨ (level = 4 ∧ ix < 4) then c.wr res 5
    else ({ c with faults := { c.faults with unfences := c.faults.unfences ++ [(p.val, level, ix)] } }).wr res 0

/-- FAULT_HOLD_WRITE (R341, R346): a pulse that runs keeps FAULT_N low to its end. -/
def execFaultHoldWrite (p : PortIx) (v : Bool) (s : State) : Host.Outcome State Fault Refusal :=
  s.run fun c =>
    if c.has p .protect = false then c.refuse p
    else
      let c1 := c.wrB Reg.Flt.FAULT_HOLD v
      c1.wrB Reg.Flt.FAULT_N_LOW (v || c1.on Reg.Flt.PULSE_RUNNING)

/-- FAULT_N_PULSE_END (R341). -/
def execFaultNPulseEnd (dt : Nat) (s : State) : Host.Outcome State Fault Refusal :=
  s.run fun c0 =>
    let c := c0.advance dt
    match c.faults.pulseEnd with
    | some t =>
      if t ≤ c.runNs then
        (({ c with faults := { c.faults with pulseEnd := none } }).clr Reg.Flt.PULSE_RUNNING).wr Reg.Flt.FAULT_N_LOW
          (c.rd Reg.Flt.FAULT_HOLD)
      else c
    | none => c

/-- FIRST_MSG_LO_READ (R5, R347). -/
def execFirstMsgLoRead (p : PortIx) (s : State) : Host.Outcome State Fault Refusal :=
  s.run fun c =>
    if c.has p .observe = false then c
    else [Reg.Flt.FIRST_MSG_LO, Reg.Flt.FIRST_MSG_HI, Reg.Flt.FIRST_STAMP, Reg.Flt.FIRST_FRAME, Reg.Flt.FIRST_SEV,
      Reg.Flt.FIRST_VALID, Reg.Flt.FIRST_COMPANIONS].foldl (fun c f => c.latch p f) c

/-- LOG_W0_READ (R5, R345). -/
def execLogW0Read (p : PortIx) (s : State) : Host.Outcome State Fault Refusal :=
  s.run fun c =>
    if c.has p .observe = false then c
    else
      let sel := c.rd (Reg.Flt.LOG_SEL p)
      let head := c.rd Reg.Flt.LOG_HEAD
      let res := ringPlace head sel 16384
      let e := if res = 0 then c.faults.log[(signedDiff 32 head sel).toNat - 1]? else none
      let w := (e.map LogEntry.bytes).getD []
      let put (c : Chip) (f : Fld) (v : Nat) : Chip := (c.wr f v).latchOwn f
      put (put (put (put (put c (Reg.Flt.LOG_W0 p) (leAt w 0 4)) (Reg.Flt.LOG_W1 p) (leAt w 4 4)) (Reg.Flt.LOG_W2 p) (leAt w 8 4))
        (Reg.Flt.LOG_W3 p) (leAt w 12 4)) (Reg.Flt.LOG_RESULT p) res

/-- HEAD_LO_READ of a cell (R5, R348): its head message is latched. -/
def execHeadLoRead (a : CellAddr) (s : State) : Host.Outcome State Fault Refusal := s.run fun c => (c.cellSnapshot a 0xF1).2.2

end Sys2Proof.Machine
end

