-- ==== Sys2Proof/Machine/Streams.lean ====
section
/-! DEFINITION. The DMA streams of the ports (R387 to R392): enabling, rings, records and their PAD, the head mirror, writes in
flight and the stream vectors. -/

namespace Sys2Proof.Machine

/-- A record as it is written into the ring (R388): its header and payload. -/
def StreamRec.bytes (r : StreamRec) (st : Nat) : List Nat :=
  (leBytes 4 r.seq ++ leBytes 2 r.len ++ [st % 8, r.typ] ++ leBytes 4 r.gap ++ leBytes 4 r.stamp ++ r.payload
    ++ List.replicate 240 0).take r.len

/-- The DMA writes of a record at `addr`: one per Max Payload Size (R390). (notes/assumptions: 41 DESIGN CHOICE) -/
def dmaWrites (mps addr : Nat) (bytes : List Nat) : List (Nat × List Nat) :=
  (List.range ((bytes.length + mps - 1) / mps)).map (fun k => (addr + k * mps, (bytes.drop (k * mps)).take mps))

/-- The writes in flight of port `p` change. -/
def Chip.setInFlight (c : Chip) (p : Nat) (l : List (Nat × List Nat)) : Chip :=
  let c1 := (c.setPort p { c.port p with inFlight := l }).wr (Reg.Port.IN_FLIGHT p) l.length
  if c1.rd (Reg.Port.IN_FLIGHT_PEAK p) < l.length then c1.wr (Reg.Port.IN_FLIGHT_PEAK p) l.length else c1

/-- Base of the ring and address of the head mirror of a stream. -/
def Chip.ringBase (c : Chip) (p st : Nat) : Nat := c.rd (Reg.Strm.RING_BASE_LO p st) + c.rd (Reg.Strm.RING_BASE_HI p st) * 2 ^ 32

/-- Address of the head mirror of a stream. -/
def Chip.headAddr (c : Chip) (p st : Nat) : Nat := c.rd (Reg.Strm.HEAD_ADDR_LO p st) + c.rd (Reg.Strm.HEAD_ADDR_HI p st) * 2 ^ 32

/-- Free space of a ring (R388). (notes/assumptions: 41 DESIGN CHOICE) -/
def Chip.ringFree (c : Chip) (p st : Nat) : Nat :=
  let size := 2 ^ c.rd (Reg.Strm.RING_SIZE_LOG2 p st)
  size - (c.rd (Reg.Strm.WR_PTR p st) + size - c.rd (Reg.Strm.RD_PTR p st) % size) % size

/-- The stream's vector counts a record written (R392). -/
def Chip.signalRecord (c : Chip) (p st : Nat) : Chip :=
  let x := c.stream p st
  let thresh := c.rd (Reg.Strm.INT_THRESH p st)
  if thresh ≠ 0 ∧ thresh ≤ x.unsignalled + 1 then (c.setStream p st { x with unsignalled := 0 }).irq p (st + 1)
  else c.setStream p st { x with unsignalled := x.unsignalled + 1, firstAt := if x.unsignalled = 0 then c.runNs else x.firstAt }

/-- The oldest record of the buffer goes into the ring, if the ring and the engine have room for it: a PAD first where it would
wrap, then the record, then the head mirror. A ring is never filled to its last byte, because WR_PTR = RD_PTR says empty.
(notes/assumptions: 41 DESIGN CHOICE) -/
def Chip.writeRecord (c : Chip) (p st : Nat) : Chip :=
  let x := c.stream p st
  match x.buf with
  | [] => c
  | r :: rest =>
    let size := 2 ^ c.rd (Reg.Strm.RING_SIZE_LOG2 p st)
    let w := c.rd (Reg.Strm.WR_PTR p st)
    let pad := if size < w + r.len then size - w else 0
    let base := c.ringBase p st
    let mps := max 16 (c.port p).maxPayload
    let padRec : StreamRec := ⟨r.seq, pad, 0xFF, 0, c.stamp, []⟩
    let at0 := if pad = 0 then w else 0
    let w' := (at0 + r.len) % size
    let writes := (if pad = 0 then [] else dmaWrites mps (base + w) (padRec.bytes st)) ++ dmaWrites mps (base + at0) (r.bytes st)
      ++ [(c.headAddr p st, leBytes 8 w')]
    let fl := (c.port p).inFlight ++ writes
    if c.on (Reg.Strm.ACTIVE p st) = false ∨ c.ringFree p st ≤ pad + r.len ∨ 256 < fl.length then c
    else
      let c1 := (((c.setStream p st { x with buf := rest }).wr (Reg.Strm.BUF_LEVEL p st) (bufUnits rest)).wr
        (Reg.Strm.WR_PTR p st) w').inc (Reg.Strm.RECORDS_SENT p st)
      let c2 := (c1.setInFlight p fl).signalRecord p st
      let c3 := if st = 2 ∧ r.typ = 0x12 ∧ leAt r.payload 8 1 = 1 then c2.deliveredTo p (leAt r.payload 0 4) else c2
      if st = 2 then c3.fillRec p 512 else c3

/-- STREAM_ENABLE (R387). A stream that is ACTIVE stays as it is. -/
def execStreamEnable (p : PortIx) (st : StreamIx) (s : State) : Host.Outcome State Fault Refusal :=
  s.run fun c =>
    let res := Reg.Strm.STREAM_RESULT p st
    let size := c.rd (Reg.Strm.RING_SIZE_LOG2 p st)
    if c.attached p = false then c.wr res 4
    else if c.has p (streamRight st) = false then c.refuseTo p res 2
    else if c.on (Reg.Strm.ACTIVE p st) then c
    else if c.ringBase p st % 4096 ≠ 0 ∨ size < 12 ∨ 24 < size ∨ c.headAddr p st % 8 ≠ 0 then c.wr res 3
    else
      let c1 := ((((((((c.set (Reg.Strm.ENABLE p st)).set (Reg.Strm.ACTIVE p st)).clr (Reg.Strm.WR_PTR p st)).clr
        (Reg.Strm.RD_PTR p st)).clr (Reg.Strm.BUF_LEVEL p st)).clr (Reg.Strm.BUF_PEAK p st)).setStream p st StreamSt.idle)).wr res 1
      if st.val = 2 then (c1.setStream p 2 { StreamSt.idle with queue := c1.heldFor p }).fillRec p 512 else c1

/-- A stream ends: it produces nothing more, and its buffer is discarded. -/
def Chip.endStream (c : Chip) (p st : Nat) : Chip :=
  ((((c.clr (Reg.Strm.ENABLE p st)).clr (Reg.Strm.ACTIVE p st)).clr (Reg.Strm.BUF_LEVEL p st))).setStream p st StreamSt.idle

/-- RD_PTR_WRITE (R377, R388): a write of an attached port. (notes/assumptions: 22 DEDUCED) -/
def execRdPtrWrite (p : PortIx) (st : StreamIx) (v : Word) (s : State) : Host.Outcome State Fault Refusal :=
  s.run fun c => if c.attached p then c.wr (Reg.Strm.RD_PTR p st) v.toNat else c.refuse p

/-- STREAM_RECORD_WRITE (R388, R390). -/
def execStreamRecordWrite (dt : Nat) (p : PortIx) (st : StreamIx) (s : State) : Host.Outcome State Fault Refusal :=
  s.run fun c0 => (c0.advance dt).writeRecord p st

/-- STREAM_RECORD_DROP (R388, R389): a record of `len` bytes that finds the buffer full is dropped whole and counted. On the
RECORDER stream it is the next record of the recording in delivery. -/
def execStreamRecordDrop (p : PortIx) (st : StreamIx) (len : Nat) (s : State) : Host.Outcome State Fault Refusal :=
  s.run fun c =>
    let full (n : Nat) : Bool := decide (16384 < bufUnits (c.stream p st).buf * 16 + n)
    if st.val = 2 then
      match c.nextPiece p with
      | some (typ, n, payload, next) =>
        if full n then ((c.produce p 2 typ n payload).passPiece p typ next payload true).fillRec p 512 else c
      | none => c
    else if full len then c.produce p st 0 len [] else c

/-- DMA_ACK (R390): the oldest write in flight is acknowledged. -/
def execDmaAck (p : PortIx) (s : State) : Host.Outcome State Fault Refusal :=
  s.run fun c => c.setInFlight p ((c.port p).inFlight.drop 1)

/-- INT_DELAY_EXPIRY (R392). (notes/assumptions: 44 DEDUCED) -/
def execIntDelayExpiry (dt : Nat) (p : PortIx) (st : StreamIx) (s : State) : Host.Outcome State Fault Refusal :=
  s.run fun c0 =>
    let c := c0.advance dt
    let x := c.stream p st
    if 0 < x.unsignalled ∧ x.firstAt + c.rd (Reg.Strm.INT_DELAY p st) * 1000 ≤ c.runNs then
      (c.setStream p st { x with unsignalled := 0 }).irq p (st + 1)
    else c

end Sys2Proof.Machine
end

