-- ==== Sys2Proof/Machine/Frames.lean ====
section
/-! DEFINITION. The frames of the WC8400: what it does at a frame start and what it launches (R88 to R91, R96, R104, R107, R108, R115),
the echoes and the path delays (R51, R106, R307), the frames that come back (R100 to R103, R105, R120, R315) and the close of their
reports (R111, R123, R331). -/

namespace Sys2Proof.Machine

/-! ### What is launched (R88, R115) -/

/-- Does a rope lane test wait for its start frame on rope `g` (R81)? -/
def Chip.testStarts (c : Chip) (g : Nat) : Bool :=
  let t := c.laneTest (g / 32)
  t.starting && decide (t.rope = g % 32)

/-- Does end `e` of rope `g` launch frames: its lane is UP and the mode of the rope has it send (R88, R115)? A DOWN rope whose lane
test is being written into its cells takes frames from end A (R81). -/
def Chip.sendsFrame (c : Chip) (g e : Nat) : Bool :=
  let b := c.rd (Reg.Rope.BREAK_POS g)
  c.on (Reg.RLane.LANE_UP g e) &&
    match c.mode g with
    | 0 => true
    | 1 => if e = 0 then decide (b ≠ 0) else decide (b ≠ c.population g)
    | 2 => decide (e = 1)
    | _ => decide (e = 0) && c.testStarts g

/-- Is end `e` the one whose frames carry the commands of the cell at `a` (R115)? -/
def Chip.servedBy (c : Chip) (a e : Nat) : Bool :=
  let g := a / 64
  let b := c.rd (Reg.Rope.BREAK_POS g)
  match c.mode g with
  | 0 => decide (e = 0)
  | 1 => if e = 0 then decide (a % 64 < b) else decide (max b (c.rope g).breakHi ≤ a % 64)
  | 2 => decide (e = 1)
  | _ => decide (e = 0)

/-- ROT of the cairn block of frame `n` (R91). The model keeps E in whole nanoseconds. (notes/assumptions: 10 DEDUCED) -/
def Chip.cairnRot (c : Chip) (n : Nat) : Nat :=
  let i := n % 16
  let sec := c.time.epoch / 1000000000
  let ns := c.time.epoch % 1000000000
  if i % 8 < 4 then c.rd (Reg.Angle.ANGLE (i % 8)) / 65536
  else if i = 4 then sec % 65536
  else if i = 5 then sec / 2 ^ 16 % 65536
  else if i = 6 then sec / 2 ^ 32 % 65536
  else if i = 7 then ns % 65536
  else if i = 12 then ns / 65536 % 16384
  else if i = 14 then c.rd Reg.Card.ROUTE_TAG
  else 0

/-- The cairn block of the frame in progress from end `e`, launched `early` 2^-8 ns before the frame start (R89 to R92).
(notes/assumptions: 13 DESIGN CHOICE) -/
def Chip.cairnOf (c : Chip) (e early : Nat) : Cairn where
  valid := ([0, 1, 2, 3].map (fun k => 2 ^ k * c.rd (Reg.Angle.VALID k))).sum
  frame20 := c.on Reg.Time.FRAME_20US
  timeValid := c.on Reg.Time.TIME_VALID
  epochReset := decide (0 < c.time.epochResetLeft)
  fromB := decide (e = 1)
  frameNum := c.frame
  launchEarly := early
  angleReset := ([0, 1, 2, 3].map (fun k => 2 ^ k * bit (decide (0 < (c.chan k).resetLeft)))).sum
  angleLo := [0, 1, 2, 3].map (fun k => c.rd (Reg.Angle.ANGLE k) % 65536)
  rate24 := [0, 1, 2, 3].map (fun k => ofSigned 24 (divRound (c.rdI (Reg.Angle.RATE k)) 256))
  rot := c.cairnRot c.frame

/-- Slot `s` of the frame in progress from end `e` of rope `g` (R96, R111, R115): the command handed over for this frame where this end
carries the cell's commands, else an EMPTY slot; all zero from the population on. -/
def Chip.slotOf (c : Chip) (g e s : Nat) : List Nat :=
  let a := 64 * g + s
  if c.population g ≤ s then List.replicate 32 0
  else
    let x := mapGet ⟨0, []⟩ c.slots a
    if c.servedBy a e && decide (x.frame = c.frame) && decide (x.bytes ≠ []) then x.bytes else (CmdBlk.none0 a).bytes

/-- Does the frame in progress from end `e` of rope `g` place a bulk grant (R108)? (notes/assumptions: 37 DEDUCED) -/
def Chip.placesGrant (c : Chip) (g e : Nat) : Bool :=
  (List.range (c.population g)).any (fun s => decide (leAt (c.slotOf g e s) 28 2 / 1024 ≠ 0))

/-- The positions that the frame in progress probes from each end of rope `g` (R51, R307): the round robin, 64 times each in 100 ms, and
the position that is being admitted. (notes/assumptions: 28 DEDUCED) -/
def Chip.probesOf (c : Chip) (g : Nat) : List Nat :=
  let n := c.population g
  let w := c.frame % (100000000 / c.period)
  let turn := if w < 64 * n then [w % n] else []
  turn ++ ((List.range n).filter (fun k =>
    let p := c.posn (64 * g + k)
    decide (2 ≤ p.admState ∧ p.admState ≤ 4) && decide (k ∉ turn))).take 1

/-- The entries that go into the frame in progress: those sent in it, then the probes, then NOPs, sixteen in all (R104, R106).
(notes/assumptions: 28 DEDUCED) -/
def Chip.entriesOf (c : Chip) (g e : Nat) : List (List Nat) :=
  let sent := (c.rope g).mgmtSent.filter (fun m => decide (m.frame = c.frame) && c.servedBy m.addr e)
  let l : List MgmtEntry := sent.map (fun (m : MgmtReq) => MgmtEntry.mk m.op m.tag m.addr m.reg 0 m.epoch m.data)
  let p : List MgmtEntry := (c.probesOf g).map (fun k =>
    ⟨4, c.frame % 256, 64 * g + k, 0, 0, if (c.posn (64 * g + k)).admState < 4 then 0 else (c.posn (64 * g + k)).epochRec, 0⟩)
  ((l ++ p ++ List.replicate 16 (MgmtEntry.mk 0 0 0 0 0 0 0)).take 16).map MgmtEntry.bytes

/-- The control frame that end `e` of rope `g` launched in the frame in progress, block 0 first (R88): cairn block, slots, management
area, trailer with an empty ACCEPT_MAP, FRAME_END of 294 blocks. Empty where it launched none. -/
def Chip.launchedFrame (c : Chip) (g e : Nat) : List Nat :=
  match (c.rope g).cairns.getD e [] with
  | [] => []
  | cairn => cairn ++ (List.range 64).flatMap (fun s => c.slotOf g e s) ++ (c.entriesOf g e).flatten ++ List.replicate 8 0 ++
      [0x87, 38, 1, 0, 0x7F, 0, 0, 0]

/-- The bulk frame that followed it (R108): BULK_START, a body of zeros, FRAME_END. Empty where end `e` placed no grant. -/
def Chip.launchedBulk (c : Chip) (g e : Nat) : List Nat :=
  match (c.rope g).bulkLen.getD e 0 with
  | 0 => []
  | l => (0x66 :: leBytes 4 c.frame ++ leBytes 2 l ++ [e]) ++ List.replicate (8 * (l - 2)) 0 ++
      [0x87, l % 256, l / 256, 0, 0x7F, 0, 0, 0]

/-- Waiting entries that find room in a frame, and those that stay: `room` places, of which admission may use `adm` (R304).
(notes/assumptions: 28 DEDUCED) -/
def takeEntries (mine : MgmtReq → Bool) : Nat → Nat → List MgmtReq → List MgmtReq × List MgmtReq
  | _, _, [] => ([], [])
  | room, adm, m :: l =>
    if mine m && decide (0 < room) && (decide (m.why ≠ 1) || decide (0 < adm)) then
      let r := takeEntries mine (room - 1) (if m.why = 1 then adm - 1 else adm) l
      (m :: r.1, r.2)
    else
      let r := takeEntries mine room adm l
      (r.1, m :: r.2)

/-- End `e` of rope `g` launches its frame, if it sends one: its waiting management entries find places, one of the sixteen being kept
for the round-robin probe (R88, R104, R304). -/
def Chip.launchEnd (c : Chip) (g early e : Nat) : Chip :=
  let x := c.rope g
  if c.sendsFrame g e then
    let (out, stay) := takeEntries (fun m => c.servedBy m.addr e) 15 12 x.mgmtOut
    let at0 := (c.time.frameStart * 256 - early) / 256 % 2 ^ 32
    c.setRope g { x with
      mgmtOut := stay, mgmtSent := x.mgmtSent ++ out.map (fun m => { m with frame := c.frame })
      launched := x.launched.set e at0, cairns := x.cairns.set e (c.cairnOf e early).bytes
      bulkLen := if c.placesGrant g e then x.bulkLen else x.bulkLen.set e 0 }
  else c.setRope g { x with cairns := x.cairns.set e [], bulkLen := x.bulkLen.set e 0 }

/-- Both ends of rope `g` launch (R88). -/
def Chip.launchRope (c : Chip) (early : List Nat) (g : Nat) : Chip :=
  (c.launchEnd g (early.getD (2 * g) 0) 0).launchEnd g (early.getD (2 * g + 1) 0) 1

/-! ### The frame start -/

/-- FRAME_NUM and the frame start move on by one frame; where FRAME_NUM wraps in its own epoch, E moves on with it (R90). -/
def Chip.nextFrame (c : Chip) : Chip :=
  let t := c.time
  let wraps := decide (t.nextNum = 0) && decide (t.nextStart = t.epoch + 2 ^ 32 * c.period)
  { c.wr Reg.Time.FRAME_NUM t.nextNum with time := { t with
    frameStart := t.nextStart, nextStart := t.nextStart + c.period, nextNum := (t.nextNum + 1) % 2 ^ 32
    epoch := if wraps then t.epoch + 2 ^ 32 * c.period else t.epoch } }

/-- One frame of EPOCH_RESET has been launched (R91). -/
def Chip.countReset (c : Chip) : Chip := { c with time := { c.time with epochResetLeft := c.time.epochResetLeft - 1 } }

/-- FRAME_START (R88): the frame number moves on; the angle channels, the sweep and the lane tests follow it; the FRAME descriptors due
are activated; the recorder samples; both ends of every rope launch. `m0` and `m1` are the trackers of grid channels 0 and 1 (R55), `early`
the LAUNCH_EARLY of each rope end. -/
def execFrameStart (dt : Nat) (m0 m1 : Option (Int × Nat)) (early : List (Fin 3277)) (s : State) : Host.Outcome State Fault Refusal :=
  s.run fun c0 =>
    let c := c0.advance dt
    if c.nowNs < c.time.nextStart then c
    else
      let c1 := c.nextFrame.agePps.stepAngles (c.time.nextStart - c.time.frameStart) m0 m1
      let c2 := c1.stepSweep (c1.rd (Reg.Angle.SEGMENT 3)) (!c1.on (Reg.Angle.RAMPING 3) && !(c1.chan 3).pendingStart)
      let c3 := ((c2.stepTests.activateFrame).recorderFrame)
      (c3.populated.foldl (fun c g => c.launchRope (early.map Fin.val) g) c3).countReset

/-! ### Echoes and path delays (R51, R106, R307) -/

/-- An echo of the cell at `a` has come to end `e`, `rt` 2^-8 ns after its probe, WAIT taken off. -/
def Chip.countEcho (c : Chip) (a e : Nat) (rt : Int) : Chip :=
  let p := c.posn a
  if e = 0 then c.setAt a { p with echoA := (p.echoA.1 + 1, p.echoA.2 + rt) }
  else c.setAt a { p with echoB := (p.echoB.1 + 1, p.echoB.2 + rt) }

/-- The DELAY registers of an admitted cell that were left 0, because their end did not reach it at its admission, are written once 8
echoes have come from that end (R307). -/
def Chip.lateDelay (c : Chip) (a e : Nat) : Chip :=
  let p := c.posn a
  let x := if e = 0 then p.echoA else p.echoB
  if p.admState = 6 ∧ (if e = 0 then p.delayA else p.delayB) = 0 ∧ 8 ≤ x.1 ∧ c.endReaches a e = true then
    let d := c.pathDelay a e x.1 x.2
    (c.setAt a (if e = 0 then { p with delayA := d } else { p with delayB := d })).sendMgmt 1 a (if e = 0 then 0x14 else 0x15) d 2
  else c

/-- ECHO_RX (R106): an echo block at end `e` of rope `g`, `rt` 2^-8 ns after its probe left. One whose CRC fails is discarded. -/
def execEchoRx (g : RopeIx) (e : EndIx) (bytes : List Byte) (rt : Nat) (s : State) : Host.Outcome State Fault Refusal :=
  s.run fun c =>
    match Echo.read (bytes.map BitVec.toNat) with
    | none => c
    | some x =>
      let a := 64 * g.val + x.addr % 64
      if c.population g ≤ x.addr % 64 then c
      else ((c.countEcho a e ((rt : Int) - x.wait)).admDelays a).lateDelay a e

/-- The echoes of a position since the last average give its delays; a changed one is written into an admitted cell (R51, R52). -/
def Chip.averageDelay (c : Chip) (a : Nat) : Chip :=
  let p := c.posn a
  if p.admState = 6 then
    let one (c : Chip) (e : Nat) : Chip :=
      let x := if e = 0 then p.echoA else p.echoB
      let q := c.posn a
      if x.1 = 0 then c
      else
        let d := c.pathDelay a e x.1 x.2
        if (if e = 0 then q.delayA else q.delayB) = d then c
        else (c.setAt a (if e = 0 then { q with delayA := d } else { q with delayB := d })).sendMgmt 1 a
          (if e = 0 then 0x14 else 0x15) d 2
    let c2 := one (one c 0) 1
    c2.setAt a { c2.posn a with echoA := (0, 0), echoB := (0, 0) }
  else c

/-- DELAY_AVERAGE_PERIOD (R51). -/
def execDelayAveragePeriod (s : State) : Host.Outcome State Fault Refusal :=
  s.run fun c => (c.populated.flatMap c.ropeCells).foldl (fun c a => c.averageDelay a) c

/-! ### Frames that come back -/

/-- The message of a report, as the collector takes it (R102, R328): its source is the position that the slot gives. -/
def reportMsg (a w f : Nat) (late : Bool) : Arrival :=
  let m := msgArrival w f late
  { m with
    source := if m.level = 2 then a / 64 else a
    detail := if m.level = 2 ∧ m.kind = 0x40 then m.detail / 64 * 64 + a % 64 else m.detail }

/-- FAULT_MSG of an intact report (R102): acknowledged, and passed to the collector unless its toggle is that of the last message passed
from the same cell and epoch. (notes/assumptions: 37 DEDUCED) -/
def Chip.reportFault (c : Chip) (a f : Nat) (late : Bool) (x : Report) : Chip :=
  let p := c.posn a
  let t := bits x.status 12 1
  if bits x.status 11 1 = 0 then c.setAt a { p with ackToggle := none }
  else
    let c1 := c.setAt a { p with ackToggle := some t, lastToggle := some (t, x.epoch) }
    if p.lastToggle = some (t, x.epoch) then c1 else c1.receive (reportMsg a x.msg f late)

/-- A fresh report counts for the sensor checks of the loop engine (R180) and for a pack whose current is being run down (R268). -/
def Chip.countFresh (c : Chip) (a : Nat) : Chip :=
  let c1 := if c.isSensor a then c.countSensor a else c
  let x := c1.xch a
  if x.state = 1 then
    let small := decide ((toSigned 16 (c1.posn a).iPack).natAbs ≤ c1.rd (Reg.Idb.PORT_OPEN_I a))
    c1.putXch a { x with low := if small then x.low + 1 else 0 }
  else c1

/-- Report word 11 brings SOC and BMS status flags (R101, R255, R264). -/
def Chip.reportBms (c : Chip) (a f rot : Nat) : Chip :=
  if f % 16 = 11 ∧ c.isSensor a = false then (c.putXch a { c.xch a with flags := rot / 65536 }).bmsArrived a else c

/-- An intact report of the cell at `a` for frame `f` in time for its cutoff (R100, R103, R123): the copy of the frame that carries the
cell's commands goes before the other. A report is fresh with the cell's epoch and SAMPLE_VALID.
(notes/assumptions: 37 DEDUCED) -/
def Chip.takeReport (c : Chip) (a f : Nat) (main : Bool) (x : Report) : Chip :=
  let p := c.posn a
  if p.lastReport = some f ∧ (p.copyMain = true ∨ main = false) then c
  else
    let fresh := decide (x.epoch = p.epochRec) && decide (bits x.status 10 1 = 1)
    let again := decide (p.freshFrame = some f)
    let p1 : PosSt := { p with
      state := x.status % 16, lastReport := some f, copyMain := main, status := x.status
      cmdOk := decide (bits x.status 4 1 = 1), rots := insertKey (f % 16) x.rot p.rots }
    let m (k : Nat) : Nat := x.meas.getD k 0
    let p2 : PosSt := if fresh then
        { p1 with
          freshFrame := some f, age := 0, vCap := m 0, iCell := m 1, vPack := m 2, iPack := m 3, iDcdc := m 4, tStage := m 5, tPack := m 6 }
      else p1
    let c1 := (c.setAt a p2).countAdm (regionOf a)
    let c2 := if fresh && !again then c1.countFresh a else c1
    (c2.reportBms a f x.rot).admReport a (x.status % 16) x.epoch

/-- Frames between the start of frame `f` and now, and whether its cutoff has passed (R111): 2.0 µs into the next frame.
(notes/assumptions: 15 DEDUCED) -/
def Chip.cutoffPassed (c : Chip) (f : Nat) : Bool :=
  let d := signedDiff 32 c.frame f
  decide (1 < d) || (decide (d = 1) && decide (2000 ≤ c.sinceFrame))

/-- One slot that a cell wrote, received at a rope end (R102, R103, R120). (notes/assumptions: 15 DEDUCED, 37 DEDUCED) -/
def Chip.reportIn (c : Chip) (g f fromEnd k : Nat) (bytes : List Nat) : Chip :=
  let a := 64 * g + k
  if c.population g ≤ k then c
  else
    match Report.read bytes with
    | none => c.inc (Reg.Rope.REPORT_CRC_ERR g)
    | some x =>
      let late := c.cutoffPassed f
      let c1 := if late then c else c.takeReport a f (c.servedBy a fromEnd) x
      c1.reportFault a f late x

/-- A returned management entry whose CRC passes goes to whoever sent it (R105). -/
def Chip.entryIn (c : Chip) (bytes : List Nat) : Chip :=
  match MgmtEntry.read bytes with
  | some m => if m.op = 1 ∨ m.op = 2 ∨ m.op = 3 then c.entryBack m.tag m.addr m.result m.data else c
  | none => c

/-- The trailer (R107, R120): HOPS of the last frame of each end, TURNED_AT of one that came back to its own end. More hops than the rope
has cells is a fault (R329). (notes/assumptions: 37 DEDUCED) -/
def Chip.trailerIn (c : Chip) (g e fromEnd hops turned : Nat) : Chip :=
  let c1 := c.wr (if fromEnd = 0 then Reg.Rope.HOPS_A g else Reg.Rope.HOPS_B g) hops
  let c2 := if e = fromEnd then c1.wr (if e = 0 then Reg.Rope.TURNED_A g else Reg.Rope.TURNED_B g) turned else c1
  if c.population g < hops then c2.raiseRope g 0x43 hops else c2

/-- The number of the frame that has come back: its cairn block's, or where HDR_CRC fails the frame in progress once it can have come back,
else the one before (R88: a frame lasts 3,763.2 ns). -/
def Chip.frameOf (c : Chip) (x : Option Cairn) : Nat :=
  match x with
  | some y => y.frameNum
  | none => if 3763 ≤ c.sinceFrame then c.frame else (c.frame + (2 ^ 32 - 1)) % 2 ^ 32

/-- RIDGE_FRAME_RX (R315): a frame at end `e` of rope `g`. `reports` are the slots that some cell wrote, `entries` the management area,
`hops` and `turned` the trailer. A DOWN rope passes no report. -/
def execRidgeFrameRx (dt : Nat) (g : RopeIx) (e : EndIx) (cairn : List Byte) (reports : List (Fin 64 × List Byte))
    (entries : List (List Byte)) (hops turned : Byte) (s : State) : Host.Outcome State Fault Refusal :=
  s.run fun c0 =>
    let c := c0.advance dt
    let bs := cairn.map BitVec.toNat
    let x := Cairn.read bs
    let fromEnd := bits (bs.getD 1 0) 7 1
    let f := c.frameOf x
    let c1 := if x.isNone then c.inc (Reg.Rope.CAIRN_ERR g) else c
    let c2 := if c1.mode g = 3 then c1
      else reports.foldl (fun c r => c.reportIn g f fromEnd r.1 (r.2.map BitVec.toNat)) c1
    let c3 := entries.foldl (fun c b => c.entryIn (b.map BitVec.toNat)) c2
    c3.trailerIn g e fromEnd hops.toNat (turned.toNat % 128)

/-! ### REPORT_CUTOFF (R111) -/

/-- The report of frame `n` of the cell at `a` closes (R120, R122, R123, R316): AGE, a missing report, and whether the cell held a command
in the frame. (notes/assumptions: 37 DEDUCED) -/
def Chip.closeReport (c : Chip) (n a : Nat) : Chip :=
  let p := c.posn a
  let came := decide (p.lastReport = some n)
  let fresh := decide (p.freshFrame = some n)
  let c1 := if came || decide (c.mode (a / 64) = 3) then c else c.inc (Reg.Rope.REPORT_MISSING (a / 64))
  let c2 := c1.setAt a { p with
    age := if fresh then 0 else min 15 (p.age + 1), quiet := if came then 0 else min 255 (p.quiet + 1) }
  if fresh = false ∨ p.admState ≠ 6 then c2
  else if p.cmdOk then
    if 0 < p.gap then (c2.noteGap a p.gap).setAt a { c2.posn a with gap := 0 } else c2
  else (c2.setAt a { c2.posn a with gap := p.gap + 1 }).cellMissed a

/-- Entries sent in frame `n` or before that have not come back count as unanswered (R105, R307). -/
def Chip.closeEntries (c : Chip) (n g : Nat) : Chip :=
  let lost := (c.rope g).mgmtSent.filter (fun m => decide (0 ≤ signedDiff 32 n m.frame))
  lost.foldl (fun c m => c.entryBack m.tag m.addr 0 0) c

/-- REPORT_CUTOFF (R111, R331): 2.0 µs into the frame the reports of the frame before close, the rank engines start, and the collection
cycle closes. -/
def execReportCutoff (dt : Nat) (s : State) : Host.Outcome State Fault Refusal :=
  s.run fun c0 =>
    let c := c0.advance dt
    let n := c.frameAfter (-1)
    let c1 := (c.populated.flatMap c.ropeCells).foldl (fun c a => c.closeReport n a) c
    let c2 := c1.populated.foldl (fun c g => c.closeEntries n g) c1
    let c3 := (List.range 8).foldl (fun c r => c.setRreg r { c.rreg r with phase := 1 }) c2.policyCutoff
    (c3.hwEvent 0x42).closeCycle

end Sys2Proof.Machine
end

