-- ==== Sys2Proof/Machine/Validate.lean ====
section
/-! DEFINITION. The route card validator, as far as a card in the form of Card.lean shows what it checks (R400, R401): each check
answers the conflict code and the index of the first offending object. A conflict of the image itself (its section table, or a part
that a card in this form does not show) comes to the machine with the command (notes/assumptions/20.md). -/

namespace Sys2Proof.Machine

/-- A conflict: its code, and CONFLICT_DETAIL. (notes/assumptions: 20 DESIGN CHOICE) -/
abbrev Conflict := Option (Nat × Nat)

/-- The check with this code fails at the first object of `l` that is `bad`. -/
def firstBad (code : Nat) (l : List Nat) (bad : Nat → Bool) : Conflict := (l.find? bad).map (fun i => (code, i))

/-- The check with this code fails, with detail `d`, where `bad` holds. -/
def checkOne (code d : Nat) (bad : Bool) : Conflict := if bad then some (code, d) else none

/-- Is `v` outside `lo` to `hi`? -/
def outside (lo hi v : Nat) : Bool := decide (v < lo ∨ hi < v)

/-- Is a signed `v` outside `lo` to `hi`? -/
def outsideI (lo hi v : Int) : Bool := decide (v < lo ∨ hi < v)

/-- What the card gives register field `f`, or its default. -/
def Card.fld (k : Card) (f : Fld) : Nat := mapGet f.reset k.loads f.key

/-- Does the card give register field `f` at all? -/
def Card.gives (k : Card) (f : Fld) : Bool := (findKey f.key k.loads).isSome

/-- The population the card gives a rope. -/
def Card.pop (k : Card) (g : Nat) : Nat := k.fld (Reg.Rope.POPULATION g)

/-- Does rope `g` carry a battery cell? -/
def Card.batteryRope (k : Card) (g : Nat) : Bool := (List.range (min 64 (k.pop g))).any (fun i => !k.sensors.contains (64 * g + i))

/-- Does region `r` carry battery cells? -/
def Card.batteryRegion (k : Card) (r : Nat) : Bool := (List.range 32).any (fun i => k.batteryRope (32 * r + i))

/-- The regions that carry battery cells. -/
def Card.batteryRegions (k : Card) : List Nat := (List.range 8).filter k.batteryRegion

/-! ### Station, time and lanes -/

/-- Checks 0x0101, 0x0102 and 0x0105 (R14, R17, R20, R22). -/
def Card.checkStation (k : Card) (four : Bool) : List Conflict :=
  let used := (List.range 256).filter (fun g => decide (0 < k.pop g))
  let far (g : Nat) : Bool := !four && decide (192 ≤ g)
  [firstBad 0x0101 used far,
    firstBad 0x0101 (k.sensors ++ k.admission.cells.map (fun e => e.1)) (fun a => far (a / 64)),
    firstBad 0x0102 used (fun g => decide (64 < k.pop g)),
    firstBad 0x0102 k.sensors (fun a => decide (k.pop (a / 64) ≤ a % 64)),
    checkOne 0x0105 0 (outside 100 60000 k.lanes.healHold),
    firstBad 0x0105 k.batteryRegions (fun r =>
      !k.gives (Reg.RegionRed.N_MIN r) || outside 1 2048 (k.fld (Reg.RegionRed.N_MIN r)) ||
        !k.gives (Reg.RegionRed.REDUNDANCY_WARN r) || outside 0 2048 (k.fld (Reg.RegionRed.REDUNDANCY_WARN r)))]

/-- Following the sources of the locked channels from `n` for `fuel` steps still ends on a locked channel (R57). -/
def locksOn (chans : List (Nat × AngleCfg)) (n : Nat) : Nat → Bool
  | 0 => decide ((mapGet AngleCfg.unused chans n).kind = 3)
  | fuel + 1 =>
    let x := mapGet AngleCfg.unused chans n
    if x.kind = 3 then locksOn chans x.source fuel else false

/-- Checks 0x0201, 0x0202 and 0x0203 (R39, R40, R42, R43, R46, R55 to R57, R61). -/
def Card.checkTime (k : Card) : List Conflict :=
  let t := k.time
  let cfg (n : Nat) : AngleCfg := mapGet AngleCfg.unused t.chans n
  [checkOne 0x0201 0 (decide (t.refMode = none) || (decide (t.refMode = some 0) && t.refBefore) ||
      decide (4 ≤ t.refMode.getD 0)),
    checkOne 0x0201 0 (outside 1 200 t.slewMax || outside 10000 1000000000 t.refReject || outside 1 604800 t.holdoverLimit ||
      outside 20 1000 t.lockWin || outside 0 8000 t.lateWindow),
    firstBad 0x0201 (List.range 16) (fun n =>
      let x := cfg n
      match x.kind with
      | 1 => decide (x.vGridNom = none) || outside 50 500 x.lockWin || outside 1500 4500 x.unlockWin || outside 5 30 x.bandwidth ||
          outside 5 50 x.gridMin || decide (x.nominalHz ≠ 50 ∧ x.nominalHz ≠ 60)
      | 2 => decide (x.endAction = none ∨ 16 < x.segs.length) || x.segs.any (fun g => outside 1 16777216 g.duration)
      | 3 => outsideI (-64) 64 x.mult || decide (x.mult = 0)
      | _ => false),
    firstBad 0x0202 (List.range 16) (fun n => locksOn t.chans n 16),
    checkOne 0x0203 0 (t.staticDates.any (fun d => decide ((if d.1 then 2 ^ 31 else 2100000000) ≤ d.2)))]

/-- Check 0x0301 (R76, R77, R86); its index is the global rope. -/
def Card.checkLanes (k : Card) : List Conflict :=
  [firstBad 0x0301 (k.lanes.ends.map (fun e => e.1 / 2)) (fun g => [0, 1].any (fun e =>
      let x := mapGet CardEnd.blank k.lanes.ends (2 * g + e)
      !txEqValid x.txEq || decide (8 < x.accept.length ∨ x.waveMax < x.waveMin))),
    firstBad 0x0301 (List.range 256) (fun g => decide (k.fld (Reg.RLane.ERR_LIMIT_VALUE g 0) = 0 ∨ k.fld (Reg.RLane.ERR_LIMIT_VALUE g 1) = 0))]

/-! ### Modulation and policy -/

/-- Checks 0x0501 to 0x0503 (R126, R142), per region that carries battery cells. -/
def Card.checkModulation (k : Card) : List Conflict :=
  let f (g : Nat → Fld) (r : Nat) : Nat := k.fld (g r)
  let lo := f Reg.Modp.V_INS_MIN
  let hi := f Reg.Modp.V_INS_MAX
  let vs (r : Nat) : Nat := mapGet 0 k.vSet r
  [firstBad 0x0501 k.batteryRegions (fun r => decide (hi r < lo r + 4 * f Reg.Modp.W_MAX r)),
    firstBad 0x0502 k.batteryRegions (fun r => decide ((if k.time.frame20 then 6000 else 3000) < f Reg.Modp.DEAD_TIME r + f Reg.Modp.MIN_PULSE r)),
    firstBad 0x0503 k.batteryRegions (fun r =>
      !k.gives (Reg.Modp.V_INS_MIN r) || !k.gives (Reg.Modp.V_INS_MAX r) || outside 10000 60000 (lo r) || outside 10000 60000 (hi r) ||
        decide (hi r ≤ lo r) || outside (lo r) (hi r) (vs r) || outside 10000 60000 (vs r) ||
        outside 1 8 (f Reg.Modp.STALE_LIMIT r) || outside 0 1200 (f Reg.Modp.W_MAX r) || outside 1 100 (f Reg.Modp.W_SLEW r) ||
        outside 0 5000 (f Reg.Modp.I_DIR_HYST r) || outside 0 100000 (f Reg.Modp.POL_HYST r) ||
        outsideI (-2000) 2000 (toSigned 12 (f Reg.Modp.T_COMP r)) || outside 0 15 (f Reg.Modp.SWAP_MAX r) ||
        outside 1 2000 (f Reg.Modp.SWAP_HYST r) || outside 250 2500 (f Reg.Modp.DEAD_TIME r) ||
        outside 500 2500 (f Reg.Modp.MIN_PULSE r) || outside 0 8 (f Reg.Modp.COND_TABLE r))]

/-- Is a policy parameter out of its range, or a relation of R166 broken? -/
def CardPolicy.bad (p : CardPolicy) : Bool :=
  [(0, 5000, p.socMin), (5000, 10000, p.socMax), (0, 2000, p.socTaper), (900, 1000, p.etaCh), (0, 100000, p.socBmsGain),
    (100, 5000, p.socDisagree), (1, 3600, p.socDisagreeTime), (10, 60000, p.bmsStale), (0, 500, p.kWt), (1100, 4000, p.rrEol),
    (1, 1024, p.healthAlpha), (3600, 2592000, p.healthMaxAge), (0, 10000, p.hInit), (0, 10000, p.hDerateMin), (0, 5000, p.hFence),
    (50, 1000, p.rrJump), (500, 1000, p.qEolFrac), (0, 16000, p.kSoc), (0, 16000, p.kCost), (0, 16000, p.kHealth),
    (10, 1000, p.mMin), (1000, 4000, p.mMax), (1, 65535, p.costRef), (0, 1000000, p.qLow), (0, 5000, p.regionSkew),
    (1, 2000, p.iSlew), (20, 32000, p.iMaxAbs), (0, 100, p.kFf), (0, 16, p.fenceMax), (0, 86400, p.unfenceHold),
    (1, 65535, p.costDefault), (0, 2 ^ 32 - 1, p.quotaDefault)].any (fun (e : Nat × Nat × Nat) => outside e.1 e.2.1 e.2.2) ||
  [(-640, 960, p.tChZero), (-640, 960, p.tChFull), (320, 1280, p.tHiFull), (320, 1280, p.tHiZero), (640, 1440, p.tPackFence),
    (0, 2400, p.tStageW0), (960, 2400, p.tStageFence), (-500, 0, p.rrTcoef)].any (fun (e : Int × Int × Int) => outsideI e.1 e.2.1 e.2.2) ||
  decide (p.socMax ≤ p.socMin + 2 * p.socTaper ∨ p.tChFull ≤ p.tChZero ∨ p.tHiZero ≤ p.tHiFull ∨ p.mMax < p.mMin)

/-! ### Loops -/

/-- The cell a source reads, if it is a sensor. -/
def LoopSrc.cell : LoopSrc → Option Nat
  | .sensor a _ => some a
  | _ => none

/-- The slot a source reads, if it is one. -/
def LoopSrc.slotNo : LoopSrc → Option Nat
  | .slot j => some j
  | _ => none

/-- Every source that the signals of a slot name. -/
def SlotDef.sources (d : SlotDef) : List LoopSrc :=
  (d.fb ++ d.ref ++ d.ff ++ d.term ++ d.track).flatMap (fun t => t.src :: (t.alt.toList ++ (match t.tab with
    | .drop _ i => [i]
    | _ => [])))

/-- A sensor source whose rope carries a battery cell or more than 8 cells (R168), or that is no fitted WN140-S. -/
def Card.badSensor (k : Card) (a : Nat) : Bool := k.batteryRope (a / 64) || decide (8 < k.pop (a / 64)) || !k.sensors.contains a

/-- A slot parameter out of its range (R189). -/
def SlotDef.bad (d : SlotDef) : Bool :=
  outside 1 100 d.div || decide (d.div ≤ d.phase) ||
    [d.kp, d.ki, d.iMin, d.iMax, d.outMin, d.outMax, d.outSlew, d.xchkTol].any (fun v => !f32Finite v) ||
    fLt d.iMax d.iMin || fLt d.outMax d.outMin || fLt d.outSlew 0 || fLt d.xchkTol 0 ||
    outside 1 4 d.fb.length || outside 1 4 d.ref.length || outside 0 4 d.ff.length || outside 0 1 d.term.length ||
    outside 1 16 d.missLimit || outside 1 16 d.lostLimit || outside 1 1000 d.recover || outside 1 10000 d.xchkFrames ||
    (decide (d.frozen ≠ 0) && outside 16 4096 d.frozen) || outside 0 255 d.serves

/-- Checks 0x0701 to 0x0704 (R168, R170, R183, R189). A card with a slot below 80 uses the standard loop set. -/
def Card.checkLoops (k : Card) : List Conflict :=
  let l := k.loop.slots
  let ix := l.map (fun e => e.1)
  let at0 (j : Nat) : Option SlotDef := findKey j l
  let srcs (j : Nat) : List LoopSrc := match at0 j with | some d => d.sources | none => []
  let ch2 := mapGet AngleCfg.unused k.time.chans 2
  [firstBad 0x0701 ix (fun j => (srcs j).any (fun x => match x.cell with | some a => k.badSensor a | none => false)),
    firstBad 0x0702 ix (fun j => (srcs j).any (fun x => match x.slotNo with | some i => !ix.contains i | none => false)),
    checkOne 0x0703 2 (ix.any (fun j => decide (j < 80)) && !(decide (ch2.kind = 3 ∧ ch2.source = 0 ∧ ch2.mult = -2))),
    firstBad 0x0704 ix (fun j => decide (128 ≤ j) || (match at0 j with | some d => d.bad | none => false)),
    firstBad 0x0704 (k.loop.dropTabs.map (fun e => e.1)) (fun t => outside 1 1000 (mapGet (0, []) k.loop.dropTabs t).1)]

/-! ### Tasks (R190, R203) -/

/-- The edges of the task graph. -/
def CardTasks.edges (t : CardTasks) : List (Nat × Nat) :=
  (List.range t.descs.length).flatMap (fun i => match t.descs[i]? with
    | some x => (t.succs x).map (fun j => (i, j))
    | none => [])

/-- What is left of a graph after its sources have been taken away `fuel` times: empty exactly if it has no cycle. -/
def peel (edges : List (Nat × Nat)) : Nat → List Nat → List Nat
  | 0, l => l
  | fuel + 1, l =>
    let m := l.filter (fun j => edges.any (fun e => decide (e.2 = j) && l.contains e.1))
    if m.length = l.length then l else peel edges fuel m

/-- A code of the table *Hardware events*, or 0. -/
def hwEventKnown (v : Nat) : Bool := decide (v = 0 ∨ 0x10 ≤ v ∧ v < 0x18 ∨ 0x20 ≤ v ∧ v < 0x28 ∨ 0x30 ≤ v ∧ v < 0x38 ∨ 0x40 ≤ v ∧ v ≤ 0x42)

/-- A field of a descriptor out of its range (R190). -/
def CardTasks.badDesc (t : CardTasks) (frame20 : Bool) (i : Nat) : Bool :=
  match t.descs[i]? with
  | none => false
  | some x =>
    decide (x.index ≠ i) || outside 0 63 x.flow || outside 0 7 x.priority || outside 0 15 x.depCount || outside 0 4095 x.engineMask ||
      !hwEventKnown x.hwPred || outside 0 15 x.succN || decide (t.succTable.length < x.succBase + x.succN) ||
      (if x.event then outside 1000 2000000000 x.timeout
       else outside 1 100 x.div || decide (x.div ≤ x.phase) || outside 1 (if frame20 then 20000 else 10000) x.deadlineOfs || x.hostCallable)

/-- Checks 0x0801 to 0x0805, 0x0807 and 0x0808 (R203). A number of FRAME descriptors above 384 is taken only as
far as it shows in a single frame of DIV 1; the schedule of 0x0806 and the frame cycle of 0x0805 come with the command. -/
def Card.checkTasks (k : Card) : List Conflict :=
  let t := k.tasks
  let ix := List.range t.descs.length
  let d (i : Nat) : Option TaskDesc := t.descs[i]?
  let ed := t.edges
  let ev (i : Nat) : Bool := match d i with | some x => x.event | none => false
  let kindOf (i : Nat) : Nat := match d i with | some x => t.flowKind x.flow | none => 0
  let flowOf (i : Nat) : Nat := match d i with | some x => x.flow | none => 0
  let mixed (e : Nat × Nat) : Bool :=
    match d e.1, d e.2 with
    | some x, some y => decide (x.event ≠ y.event) || (!x.event && decide (x.div ≠ y.div ∨ x.phase ≠ y.phase))
    | _, _ => true
  let from0 (i : Nat) : List (Nat × Nat) := ed.filter (fun e => decide (e.1 = i))
  let every := ix.filter (fun i => match d i with | some x => !x.event && decide (x.div = 1) | none => false)
  [firstBad 0x0807 ix (t.badDesc k.time.frame20),
    checkOne 0x0807 0 (decide (1024 < t.descs.length ∨ 4096 < t.succTable.length)),
    firstBad 0x0801 (peel ed (ix.length + 1) ix) (fun _ => true),
    firstBad 0x0802 ix (fun i => match d i with
      | some x => decide (x.depCount ≠ (ed.filter (fun e => decide (e.2 = i))).length + (if x.hwPred = 0 then 0 else 1))
      | none => false),
    firstBad 0x0803 ix (fun i => (from0 i).any mixed),
    firstBad 0x0804 ix (fun i => decide (kindOf i = 1 ∨ kindOf i = 3) && (from0 i).any (fun e => decide (flowOf e.2 = flowOf i ∧ e.2 < i))),
    firstBad 0x0805 (every.drop 384) (fun _ => true),
    firstBad 0x0805 ix (fun i => ev i && decide (128 < (t.reach [i] [i] 1024).length)),
    firstBad 0x0808 ix (fun i => match d i with | some x => x.hostCallable && !x.event | none => false),
    firstBad 0x0808 (t.dated.map (fun e => e.1) ++ t.reactions.map (fun e => e.2.2.1)) (fun i => !ev i)]

/-! ### Cells, packs, ledger, buses, admission -/

/-- What a list of configuration writes leaves at management address `reg`, or its reset value. -/
def lastWrite (l : List (Nat × Nat)) (reg reset : Nat) : Nat := l.foldl (fun v w => if w.1 = reg then w.2 else v) reset

/-- The plan memory that the writes leave: PLAN_IDX, which counts on with each PLAN_DATA, and the entries (R233). -/
def planMemory (l : List (Nat × Nat)) : List (Nat × Nat) :=
  (l.foldl (fun (s : Nat × List (Nat × Nat)) w =>
    if w.1 = 0x58 then (w.2 % 256, s.2) else if w.1 = 0x59 then ((s.1 + 1) % 256, insertKey s.1 w.2 s.2) else s) (0, [])).2

/-- FIRST and COUNT of plan `i` that the writes leave (R233). -/
def planPlace (l : List (Nat × Nat)) (i : Nat) : Nat × Nat :=
  let d := bits (lastWrite l (0x5A + i / 2) 0) (16 * (i % 2)) 16
  (d % 256, d / 256)

/-- The entries of plan `i` that the writes leave. -/
def planOf (l : List (Nat × Nat)) (i : Nat) : List Nat :=
  let (first, count) := planPlace l i
  (List.range count).map (fun k => mapGet 0 (planMemory l) (first + k))

/-- A plan entry with an invalid field value (R233). -/
def badEntry (e : Nat) : Bool :=
  decide (11 < bits e 0 4 ∨ 4 < bits e 5 3 ∨ bits e 9 1 ≠ 0) ||
    (if bits e 4 1 = 0 then decide (bits e 25 7 ≠ 0) else decide (6 < bits e 12 3 ∨ bits e 15 1 ≠ 0))

/-- The inputs of the role fields that the writes leave (R239, R240): five of a WN140-S, else seven, T_PACK only where an input
serves it. -/
def roleInputs (sensor : Bool) (l : List (Nat × Nat)) : List Nat :=
  let w := lastWrite l 0x56 0x06543210
  let n := if sensor then 5 else if bits w 28 2 = 0 then 7 else 6
  (List.range n).map (fun k => bits w (4 * k) 4)

/-- Two values of a list closer than `gap`. -/
def tooClose (gap : Nat) : List Nat → Bool
  | [] => false
  | x :: xs => xs.any (fun y => decide (x < y + gap ∧ y < x + gap)) || tooClose gap xs

/-- Does a plan of a position fail check 0x0A01 (R237)? The bound on angle entries is a matter of the rates of the whole card and comes
with the command. -/
def badPlan (frame20 sensor : Bool) (l : List (Nat × Nat)) (i : Nat) : Bool :=
  let es := planOf l i
  let time := es.filter (fun e => decide (bits e 4 1 = 0))
  let roles := roleInputs sensor l
  let vCap := roles.getD 0 0
  let iPack := roles.getD 3 0
  let slot (e : Nat) : Bool := decide (bits e 8 1 = 1)
  let slots := (time.filter (fun e => slot e && decide (bits e 0 4 = iPack))).length
  decide (es ≠ []) && (es.any badEntry || decide ((if frame20 then 80 else 40) < time.length) ||
    tooClose 250 (time.map (fun e => bits e 10 15)) || roles.any (fun r => !time.any (fun e => decide (bits e 0 4 = r))) ||
    (if sensor then es.any slot
     else es.any (fun e => decide (bits e 0 4 = vCap ∧ bits e 5 3 ≠ 0)) || outside 1 4 slots ||
      es.any (fun e => slot e && decide (bits e 0 4 ≠ iPack)) ||
      !time.any (fun e => decide (bits e 0 4 = bits (lastWrite l 0xA3 0) 16 4))))

/-- Check 0x0A01, by cell address. -/
def Card.checkCells (k : Card) : List Conflict :=
  [firstBad 0x0A01 (k.admission.cells.map (fun e => e.1)) (fun a =>
    (List.range 8).any (badPlan k.time.frame20 (k.sensors.contains a) (mapGet [] k.admission.cells a)))]

/-- Two role fields on one input, or PORT_FB_CH on that of V_PACK (0x1320). -/
def badRoles (sensor : Bool) (l : List (Nat × Nat)) : Bool :=
  let roles := roleInputs sensor l
  decide (roles.eraseDups.length < roles.length) || (!sensor && decide (bits (lastWrite l 0xD6 7) 0 4 = roles.getD 2 0))

/-- Two plans that share an entry, or a plan beyond entry 255 (0x1321). -/
def badDirectory (l : List (Nat × Nat)) : Bool :=
  let d := (List.range 8).map (planPlace l)
  d.any (fun x => decide (256 < x.1 + x.2)) || (List.range 8).any (fun i => (List.range i).any (fun j =>
    let x := planPlace l i
    let y := planPlace l j
    decide (0 < x.2 ∧ 0 < y.2 ∧ x.1 < y.1 + y.2 ∧ y.1 < x.1 + x.2)))

/-- Word `i` of a profile: the header is words 0 to 3, an entry has four words (R260). -/
def profWord (l : List Nat) (i : Nat) : Nat := l.getD i 0

/-- Is transmit item `e` (1 or 2) of a profile used? -/
def txUsed (l : List Nat) (e : Nat) : Bool := decide (bits (profWord l (4 * e)) 0 29 ≠ 0)

/-- A profile that fails check 0x0B01 (R260): N_SIGNALS, or a field of its header or of an item in use. -/
def badProfile (l : List Nat) : Bool :=
  let w := profWord l
  let n := bits (w 1) 0 8
  decide (29 < n ∨ bits (w 1) 8 8 = 0 ∨ 1 < bits (w 1) 16 8 ∨ bits (w 1) 24 8 ≠ 0 ∨ w 2 ≠ 0 ∨ w 3 ≠ 0) ||
    [1, 2].any (fun e => txUsed l e && decide (bits (w (4 * e)) 30 2 ≠ 0 ∨ 8 < bits (w (4 * e + 1)) 0 8 ∨
      bits (w (4 * e + 1)) 8 8 = 0 ∨ bits (w (4 * e + 1)) 16 16 ≠ 0)) ||
    (List.range n).any (fun i => decide (bits (w (4 * (3 + i))) 30 2 ≠ 0))

/-- Check 0x0B01, by PROFILE_ID. -/
def Card.checkProfiles (k : Card) : List Conflict :=
  [firstBad 0x0B01 (k.pack.profiles.map (fun e => e.1)) (fun i =>
    let l := mapGet [] k.pack.profiles i
    badProfile l || decide (bits (profWord l 0) 0 16 ≠ i))]

/-- Check 0x0C01 (R288), by cell address. -/
def Card.checkLedger (k : Card) : List Conflict :=
  [firstBad 0x0C01 (k.admission.cells.map (fun e => e.1)) (fun a =>
    outside 10 600 (lastWrite (mapGet [] k.admission.cells a) 0xE5 60))]

/-- Check 0x0B02 (R453). -/
def Card.checkStages (k : Card) : List Conflict :=
  let l := k.pack.stages
  [(l.find? (fun x => outside 1 0xFFFF x.stageType || outside 10 65535 x.cCell || outside 0 1 x.bypPattern ||
      decide (1 < (l.filter (fun y => decide (y.stageType = x.stageType))).length))).map (fun x => (0x0B02, x.stageType)),
    checkOne 0x0B02 0 (decide (16 < l.length)),
    firstBad 0x0B02 k.batteryRegions (fun r => !l.any (fun x => decide (some x.stageType = findKey r k.pack.regionStage)))]

/-- Check 0x0D01 of the station channels and of the pack profiles (R290). No data rate lies below an arbitration rate: the slowest is
the fastest of those. -/
def Card.checkBuses (k : Card) : List Conflict :=
  [firstBad 0x0D01 (k.can.channels.map (fun e => e.1)) (fun c =>
      let x := mapGet CardCanCh.blank k.can.channels c
      outside 1 4 x.arbRate || outside 0 4 x.dataRate),
    firstBad 0x0D01 (k.pack.profiles.map (fun e => e.1)) (fun i =>
      let w := profWord (mapGet [] k.pack.profiles i) 0
      outside 1 4 (bits w 16 8) || outside 0 4 (bits w 24 8))]

/-- Check 0x0E01 (R327). -/
def CardAdmit.bad (x : CardAdmit) : Bool :=
  outside 1 16 x.retryMax || outside 100 10000 x.backoffMin || outside 1000 600000 x.backoffMax || decide (x.backoffMax < x.backoffMin)

/-! ### Fault classes, recorder, safety, hosts -/

/-- Kinds with their default severity and the lowest permitted one (R329). -/
def classTable : List (Nat × Nat × Nat) :=
  [(0x01, 1, 0), (0x02, 1, 0), (0x03, 2, 0), (0x04, 1, 0), (0x05, 4, 4), (0x06, 4, 4), (0x07, 2, 0), (0x08, 5, 5), (0x09, 1, 0),
    (0x0A, 2, 0), (0x0B, 2, 0), (0x0C, 4, 4), (0x0D, 2, 0), (0x0E, 2, 0), (0x0F, 2, 0), (0x10, 2, 0), (0x11, 2, 0), (0x12, 3, 0),
    (0x13, 2, 0), (0x14, 2, 0), (0x15, 2, 0), (0x16, 3, 2), (0x17, 2, 0), (0x18, 2, 0), (0x19, 2, 0), (0x1A, 2, 0)] ++
  [(0x40, 2, 0), (0x41, 2, 0), (0x42, 5, 5), (0x43, 2, 0), (0x60, 2, 0), (0x61, 6, 6), (0x70, 2, 0), (0x71, 2, 0), (0x72, 2, 0),
    (0x73, 2, 0), (0x74, 2, 0), (0x75, 1, 0), (0x76, 3, 0), (0x77, 2, 0), (0x78, 2, 0), (0x79, 2, 0), (0x7A, 2, 0), (0x90, 7, 6),
    (0x91, 7, 6), (0x92, 2, 0)] ++
  [(0xA0, 1, 0), (0xA1, 2, 0), (0xA2, 1, 0), (0xA3, 3, 0), (0xA4, 2, 0), (0xA5, 2, 0), (0xA6, 2, 0), (0xA7, 2, 0), (0x3F, 2, 0),
    (0x5F, 2, 0), (0x6F, 2, 0), (0x8F, 2, 0), (0x9F, 2, 0), (0xCF, 2, 0), (0xFF, 2, 2)]

/-- The severity the card gives a class. -/
def Card.severity (k : Card) (e : Nat × Nat × Nat) : Nat := mapGet e.2.1 k.loads (Reg.Class.SEVERITY e.1).key

/-- A severity below the lowest permitted one, above 7, or a changed fixed one (R330). -/
def Card.badClass (k : Card) (e : Nat × Nat × Nat) : Bool :=
  decide (k.severity e < e.2.2 ∨ 7 < k.severity e) || (decide (e.1 = 0x0C ∨ e.1 = 0x42) && decide (k.severity e ≠ e.2.1))

/-- Checks 0x0103, 0x0104, 0x0F01 and 0x0F02 (R22, R27, R330, R454). -/
def Card.checkFaults (k : Card) : List Conflict :=
  [(classTable.find? k.badClass).map (fun e =>
      (if e.1 = 0x61 then 0x0103 else if e.1 = 0x90 ∨ e.1 = 0x91 then 0x0104 else 0x0F01, e.1)),
    checkOne 0x0F02 0 (outside 0 7 (k.fld Reg.Flt.FAULT_PIN_SEV) || outside 0 7 (k.fld Reg.Flt.FIRST_MIN_SEV) ||
      outside 0 100 (k.fld Reg.Flt.FAULT_DERATE) || outside 0 1 (k.fld Reg.Flt.LIVE_INJECTION))]

/-- Check 0x1001 (R349, R354). -/
def Card.checkRecorder (k : Card) : List Conflict :=
  let l := k.recorder.chans
  [checkOne 0x1001 0 (decide (64 < (l.filter (fun x => x.noReduce)).length ∨ 512 < l.length)),
    checkOne 0x1001 0 (outside 0 4 (k.fld Reg.Rec.N_BUF_LOG2) || outside 1 10000 (k.fld Reg.Rec.PRE_TIME) ||
      outside 1 60000 (k.fld Reg.Rec.POST_TIME) || outside 5 75 (k.fld Reg.Rec.PRE_SHARE))]

/-- What the card gives input `x`: FUNCTION; PULSED and OUT_MASK with their defaults of R361. -/
def Card.input (k : Card) (x : Nat) : Nat × Nat × Nat :=
  let fn := k.fld (Reg.SafIn.FUNCTION x)
  (fn, mapGet (if fn = 1 ∨ fn = 2 then 1 else 0) k.loads (Reg.SafIn.PULSED x).key,
    mapGet (if fn = 0 then 0 else 3) k.loads (Reg.SafIn.OUT_MASK x).key)

/-- Check 0x1101 (R361, R365); FUNCTION is 1 E_STOP, 2 GUARD, 3 TWO_HAND, 4 OSSD. -/
def Card.checkSafety (k : Card) : List Conflict :=
  [firstBad 0x1101 (List.range 8) (fun x =>
      let i := k.input x
      let mate := if x % 2 = 0 then x + 1 else x - 1
      decide (i.1 ≠ 0) && (decide (4 < i.1) || decide (i.1 = 4 ∧ i.2.1 = 1) || decide (i.1 = 3 ∧ (k.input mate).1 ≠ 3) ||
        decide (i.1 = 1 ∧ i.2.2 = 0) || decide (i.1 ≤ 2 ∧ i.2.1 = 0 ∧ k.fld (Reg.SafIn.DEGRADE_ALLOWED x) = 1) ||
        outside 1 5 (k.fld (Reg.SafIn.FILTER x)) || outside 10 1000 (k.fld (Reg.SafIn.DISC_TIME x))))]

/-- Is envelope `i` (0 P, 1 Q, 2 UDC, 3 VAC, 4 P_BATT) incomplete, out of range or in breach of R394? -/
def Card.badEnvelope (k : Card) (i : Nat) : Bool :=
  let signed := decide (i ≠ 2 ∧ i ≠ 3)
  let v (f : Fld) : Int := if signed then toSigned 32 (k.fld f) else (k.fld f : Int)
  let lo := v (Reg.Env.ENV_MIN i)
  let hi := v (Reg.Env.ENV_MAX i)
  let fb := v (Reg.Env.ENV_FALLBACK i)
  let top : Int := if i = 2 then 1200000 else if i = 3 then 1000000 else 2000000
  !k.gives (Reg.Env.ENV_MIN i) || !k.gives (Reg.Env.ENV_MAX i) || !k.gives (Reg.Env.ENV_RATE i) ||
    (!signed && !k.gives (Reg.Env.ENV_FALLBACK i)) ||
    outsideI (if signed then -top else 0) (if signed then 0 else top) lo || outsideI 0 top hi ||
    outside 1 10000000 (k.fld (Reg.Env.ENV_RATE i)) || decide (hi < lo) || outsideI lo hi fb

/-- Checks 0x1201 and 0x1202 (R376, R394). -/
def Card.checkHosts (k : Card) : List Conflict :=
  let holders := (List.range 4).filter (fun p => decide (bits (k.fld (Reg.Port.RIGHTS p)) 0 1 = 1))
  [firstBad 0x1201 (holders.drop 2) (fun _ => true), firstBad 0x1202 (List.range 5) k.badEnvelope]

/-- Two dated activations of one descriptor, both by time, less than its TIMEOUT apart (0x1315). -/
def CardTasks.datesClose (t : CardTasks) (i : Nat) : Bool :=
  match t.descs[i]? with
  | some x => tooClose x.timeout ((t.dated.filter (fun e => decide (e.1 = i ∧ e.2.1 = none))).map (fun e => e.2.2))
  | none => false

/-- Checks across sections, in the order of their codes (R401). Those that need the tasks' instructions or the users of an angle channel
(0x1311, 0x1313) come with the command. -/
def Card.checkAcross (k : Card) : List Conflict :=
  let ix := k.loop.slots.map (fun e => e.1)
  let cells := k.admission.cells.map (fun e => e.1)
  let writes (a : Nat) : List (Nat × Nat) := mapGet [] k.admission.cells a
  let tasks := k.can.channels.filterMap (fun e => e.2.task)
  let ev (i : Nat) : Bool := match k.tasks.descs[i]? with | some x => x.event | none => false
  [firstBad 0x1310 ix (fun j => decide (1 < (ix.filter (fun i => decide (i = j))).length)),
    firstBad 0x1312 (List.range 32) (fun t =>
      decide (k.fld (Reg.Lt.LT_MODE t) ≠ 0 ∧ k.recorder.chans.length ≤ k.fld (Reg.Lt.LT_CHANNEL t))),
    firstBad 0x1314 tasks (fun i => !ev i || decide (1 < (tasks.filter (fun j => decide (j = i))).length)),
    checkOne 0x1315 0 (decide (256 < k.tasks.dated.length)),
    firstBad 0x1315 (k.tasks.dated.map (fun e => e.1)) k.tasks.datesClose,
    firstBad 0x1320 cells (fun a => badRoles (k.sensors.contains a) (writes a)),
    firstBad 0x1321 cells (fun a => badDirectory (writes a)),
    firstBad 0x1322 (k.pack.profiles.map (fun e => e.1)) (fun i =>
      let l := mapGet [] k.pack.profiles i
      txUsed l 1 && txUsed l 2 && decide (bits (profWord l 4) 0 30 = bits (profWord l 8) 0 30))]

/-- The first check that fails, in the order of the sections that R395 names and then across them (R400).
(notes/assumptions: 20 DESIGN CHOICE) -/
def Card.conflict (k : Card) (four : Bool) : Conflict :=
  (k.checkStation four ++ k.checkTime ++ k.checkLanes ++ k.checkModulation ++ [checkOne 0x0601 0 k.policy.bad] ++ k.checkLoops ++
    k.checkTasks ++ k.checkCells ++ k.checkStages ++ k.checkProfiles ++ k.checkLedger ++ k.checkBuses ++ [checkOne 0x0E01 0 k.admission.bad] ++ k.checkFaults ++ k.checkRecorder ++
    k.checkSafety ++ k.checkHosts ++ k.checkAcross).findSome? id

end Sys2Proof.Machine
end

