-- ==== Sys2Proof/Machine/CardLoad.lean ====
section
/-! DEFINITION. The two flash devices and the images on them (R395, R396), and what CONFIGURE and the switch of R407 load from a
card into the registers that show its parameters (R402, R408). -/

namespace Sys2Proof.Machine

/-! ### Flash pages, headers and commit records -/

/-- Page `n` of 256 bytes of copy `k`. -/
def Chip.page (c : Chip) (k n : Nat) : List Nat := mapGet erasedPage c.flash (k * 262144 + n)

/-- Copy `k` with `bytes` as its page `n`. -/
def Chip.setPage (c : Chip) (k n : Nat) (bytes : List Nat) : Chip :=
  { c with flash := mapSet erasedPage c.flash (k * 262144 + n) bytes }

/-- Copy `k` with the `m` pages from page `n` erased. -/
def Chip.erasePages (c : Chip) (k n m : Nat) : Chip :=
  let base := k * 262144 + n
  { c with flash := c.flash.filter (fun e => !decide (base ≤ e.1 ∧ e.1 < base + m)) }

/-- The route card header of copy `k`. -/
def Chip.header (c : Chip) (k : Nat) : List Nat := c.page k 0

/-- The header check of conflict code 0x1301 (R395). -/
def headerOk (h : List Nat) : Bool :=
  let len := leAt h 8 4
  decide (leAt h 0 4 = 0x31525743 ∧ leAt h 4 2 = 1 ∧ leAt h 6 2 = 256 ∧ 4096 ≤ len ∧ len ≤ 33554432 ∧ len % 4096 = 0) &&
    decide (leAt h 16 1 ≤ 63 ∧ leAt h 17 1 < 4 ∧ leAt h 18 4 = 0 ∧ leAt h 22 2 < 16 ∧ 1 ≤ leAt h 28 4 ∧ leAt h 28 4 ≤ 64) &&
    ((h.drop 128).take 8).any (fun b => decide (b ≠ 0xFF)) && ((h.drop 136).take 8).any (fun b => decide (b ≠ 0xFF)) &&
    (h.drop 144).all (fun b => decide (b = 0))

/-- FLAGS bit `i` of a header: 0 FIELD_CLOSE_ALLOWED, 1 CLOSE_CELLS, 2 BURN_ROLLBACK, 3 BURN_KEY. -/
def headerFlag (h : List Nat) (i : Nat) : Bool := decide (bits (leAt h 22 2) i 1 = 1)

/-- The accepted steppings (major, minor) listed in the eight bytes from `off`. -/
def steppingList (h : List Nat) (off : Nat) : List (Nat × Nat) :=
  (((h.drop off).take 8).filter (fun b => decide (b ≠ 0xFF))).map (fun b => (b / 16, b % 16))

/-- The SHA-256 of the PUBLIC_KEY of a header, as the fuses hold it. -/
def keyHashOf (h : List Nat) : Nat := leNat (sha256 ((h.drop 64).take 64))

/-- DIGEST of copy `k`: bytes 0 to 31 of the trailer, which is the last 128 bytes of the image. -/
def Chip.digest (c : Chip) (k : Nat) : List Nat := ((c.page k (leAt (c.header k) 8 4 / 256 - 1)).drop 128).take 32

/-- Has copy `k` a valid commit record (R396)? -/
def Chip.committed (c : Chip) (k : Nat) : Bool :=
  let r := c.page k 131072
  decide (leAt r 40 2 = crc16 (r.take 40) ∧ leAt r 4 4 = leAt (c.header k) 12 4 ∧ (r.drop 8).take 32 = c.digest k)

/-- The commit record of copy `k` is written (R396). -/
def Chip.writeCommit (c : Chip) (k : Nat) : Chip :=
  let b := leBytes 4 0x544D4D43 ++ leBytes 4 (leAt (c.header k) 12 4) ++ c.digest k
  c.setPage k 131072 (b ++ leBytes 2 (crc16 b) ++ List.replicate 214 0xFF)

/-- The commit record of copy `k` is erased. -/
def Chip.eraseCommit (c : Chip) (k : Nat) : Chip := c.erasePages k 131072 16

/-- COPY_A_STATUS and COPY_B_STATUS. (notes/assumptions: 42 DEDUCED) -/
def copyStatus (k : Nat) : Fld := if k = 0 then Reg.Card.COPY_A_STATUS else Reg.Card.COPY_B_STATUS

/-- CARD_SEQ_A and CARD_SEQ_B. -/
def copySeq (k : Nat) : Fld := if k = 0 then Reg.Card.CARD_SEQ_A else Reg.Card.CARD_SEQ_B

/-! ### Registers that show the card -/

/-- The register fields that show a parameter of the card as it is. -/
def cardFields : List Fld :=
  (List.range 8).flatMap (fun r => [Reg.RegionRed.N_MIN r, Reg.RegionRed.REDUNDANCY_WARN r, Reg.Modp.V_INS_MIN r, Reg.Modp.V_INS_MAX r,
    Reg.Modp.DEAD_TIME r, Reg.Modp.MIN_PULSE r, Reg.Modp.T_COMP r, Reg.Modp.STALE_LIMIT r, Reg.Modp.SWAP_MAX r, Reg.Modp.POL_MODE r,
    Reg.Modp.SWAP_HYST r, Reg.Modp.I_DIR_HYST r, Reg.Modp.W_MAX r, Reg.Modp.W_SLEW r, Reg.Modp.POL_HYST r]) ++
  (List.range 256).flatMap (fun g => [Reg.Rope.POPULATION g, Reg.RLane.ERR_LIMIT_VALUE g 0, Reg.RLane.ERR_LIMIT_VALUE g 1]) ++
  [Reg.Trace.TRACE_FREEZE_SEV, Reg.Trace.TRACE_POST, Reg.Sweep.EXC_AMP, Reg.Sweep.HEALTH_POINT, Reg.Sweep.POINTS,
    Reg.Flt.FAULT_PIN_SEV, Reg.Flt.FIRST_MIN_SEV, Reg.Flt.LIVE_INJECTION, Reg.Flt.FAULT_DERATE, Reg.Rec.N_BUF_LOG2, Reg.Rec.PRE_TIME,
    Reg.Rec.POST_TIME, Reg.Rec.PRE_SHARE, Reg.Rec.EXTEND, Reg.Rec.AUTO_RELEASE, Reg.Rec.OVERWRITE_OLDEST, Reg.Rec.INJ_TRIGGER,
    Reg.Rec.TRIG_MIN_SEV, Reg.Saf.TP_PERIOD, Reg.Saf.TP_WIDTH, Reg.Saf.DEGRADED_POWER, Reg.Saf.DEGRADED_TIME, Reg.Saf.FB_TIME,
    Reg.Saf.TWO_HAND_ORDERS, Reg.Saf.OFF_DELAY0, Reg.Saf.OFF_DELAY1, Reg.Ord.ORDER_HOLD_MS] ++
  (List.range 32).flatMap (fun t => [Reg.Lt.LT_CHANNEL t, Reg.Lt.LT_MODE t, Reg.Lt.LT_HOLD t, Reg.Lt.LT_HI t, Reg.Lt.LT_LO t]) ++
  (List.range 8).flatMap (fun x => [Reg.SafIn.FUNCTION x, Reg.SafIn.PULSED x, Reg.SafIn.TRIP_ON_DEMAND x, Reg.SafIn.AUTO_RESET x,
    Reg.SafIn.DEGRADE_ALLOWED x, Reg.SafIn.OUT_MASK x, Reg.SafIn.FILTER x, Reg.SafIn.DISC_TIME x]) ++
  (List.range 4).flatMap (fun p => [Reg.Port.RIGHTS p, Reg.Port.WATCHDOG_MS p]) ++
  (List.range 5).flatMap (fun i => [Reg.Env.ENV_MIN i, Reg.Env.ENV_MAX i, Reg.Env.ENV_RATE i, Reg.Env.ENV_FALLBACK i])

/-- The fields of `cardFields` take what the card gives them; the others of them return to their defaults. -/
def Chip.loadFields (c : Chip) (k : Card) : Chip :=
  let c1 := { c with regs := c.regs.filter (fun e => !cardFields.any (fun f => decide (f.key = e.1))) }
  k.loads.foldl (fun c e => match cardFields.find? (fun f => decide (f.key = e.1)) with
    | some f => c.wr f e.2
    | none => c) c1

/-- The time section and the angle channels (R42 to R46, R54 to R58). -/
def Chip.loadTime (c : Chip) (k : Card) : Chip :=
  let t := k.time
  let c1 := (((c.wr Reg.Time.REF_MODE (t.refMode.getD 0)).wrB Reg.Time.FRAME_20US t.frame20).wr Reg.Time.LATE_WINDOW t.lateWindow).wr
    Reg.Time.PTP_DOMAIN t.ptpDomain
  (List.range 16).foldl (fun c n =>
    let x := mapGet AngleCfg.unused t.chans n
    (((((c.wr (Reg.Angle.KIND n) x.kind).wrB (Reg.Angle.LOSS_ACTION n) x.gate).wrB (Reg.Angle.SYNC_EN n) x.syncEn).wr
      (Reg.Angle.LOCK_SOURCE n) x.source).wrI (Reg.Angle.LOCK_MULT n) x.mult).wr (Reg.Angle.LOCK_OFFSET n) x.offset) c1

/-- The TX_EQ setting of the lane at end `e` of rope `g` (R78). -/
def Chip.loadLane (c : Chip) (k : Card) (g e : Nat) : Chip :=
  let w := (mapGet CardEnd.blank k.lanes.ends (2 * g + e)).txEq
  ((c.wr (Reg.RLane.C_PRE g e) (bits w 0 4)).wr (Reg.RLane.C_MAIN g e) (bits w 4 6)).wr (Reg.RLane.C_POST g e) (bits w 10 5)

/-- The fault classes (R330): AUTO_ACK defaults to 1 where the severity is 0 or 1. -/
def Chip.loadClasses (c : Chip) (k : Card) : Chip :=
  classTable.foldl (fun c e =>
    let sev := k.severity e
    ((c.wr (Reg.Class.SEVERITY e.1) sev).wr (Reg.Class.AUTO_ACK e.1)
      (mapGet (bit (decide (sev ≤ 1))) k.loads (Reg.Class.AUTO_ACK e.1).key)).wr (Reg.Class.MIN_SEV e.1) e.2.2) c

/-- The defaults of R361 that depend on FUNCTION, and what is always so for E_STOP. -/
def Chip.loadInputs (c : Chip) (k : Card) : Chip :=
  (List.range 8).foldl (fun c x =>
    let i := k.input x
    let c1 := (c.wr (Reg.SafIn.PULSED x) i.2.1).wr (Reg.SafIn.OUT_MASK x) i.2.2
    if i.1 = 1 then (c1.set (Reg.SafIn.TRIP_ON_DEMAND x)).clr (Reg.SafIn.AUTO_RESET x) else c1) c

/-- The counts of what the card uses, the station channels' rates, and the conduction-drop tables, 8 where there is none (R142). -/
def Chip.loadUsed (c : Chip) (k : Card) : Chip :=
  let d := k.tasks.descs
  let c1 := (((c.wr Reg.Trace.DESCRIPTORS_USED d.length).wr Reg.Trace.FLOWS_USED ((d.map (fun x => x.flow)).eraseDups.length)).wr
    Reg.Rec.CHANNELS_USED k.recorder.chans.length).wr Reg.Loop.SLOTS_USED k.loop.slots.length
  let c2 := [0, 1].foldl (fun c n =>
    let x := mapGet CardCanCh.blank k.can.channels n
    (((c.wr (Reg.Can.ARB_RATE (16384 + n)) x.arbRate).wr (Reg.Can.DATA_RATE (16384 + n)) x.dataRate).wr (Reg.Can.TX_ORDER (16384 + n))
      x.txOrder).wr (Reg.StCan.FILTERS_USED n) x.filters.length) c1
  (List.range 8).foldl (fun c r => c.wr (Reg.Modp.COND_TABLE r) (mapGet 8 k.loads (Reg.Modp.COND_TABLE r).key)) c2

/-- The card as its image has it: CLOSE_CELLS and WN_STEPPINGS stand in the header (R395). -/
def Card.withHeader (k : Card) (h : List Nat) : Card :=
  { k with admission := { k.admission with closeCells := headerFlag h 1, steppings := steppingList h 136 } }

/-- The card of copy `k` becomes the active card: its parameters, its slots in TRACK (R176), and the summary block. -/
def Chip.loadCard (c : Chip) (k : Nat) (card : Card) : Chip :=
  let h := c.header k
  let x := card.withHeader h
  let c1 := ((((({ c with card := x }.loadFields x).loadTime x).loadClasses x).loadInputs x).loadUsed x)
  let c2 := (c1.populated).foldl (fun c g => (c.loadLane x g 0).loadLane x g 1) c1
  let slots := x.loop.slots.foldl (fun l (e : Nat × SlotDef) => mapSet SlotSt.idle l e.1 { SlotSt.idle with mode := 3 }) []
  let c3 := { c2 with loop := { LoopSt.idle with slots := slots } }
  let c4 := (((((c3.wr Reg.Card.ACTIVE_COPY k).wr Reg.Card.CARD_SEQ (leAt h 12 4)).wr Reg.Card.IMAGE_LEN (leAt h 8 4)).wr
    Reg.Card.ROUTE_TAG (leAt (c.digest k) 0 2)).wr Reg.Card.ROLLBACK_LEVEL (leAt h 16 1)).wr Reg.Card.COMPILER_VERSION (leAt h 24 4)
  (List.range 8).foldl (fun c j => c.wr (Reg.Card.DIGEST j) (leAt (c3.digest k) (4 * j) 4)) c4

/-- The fuses that a validated card blows: KEY_HASH and KEY_BOUND (R398), and the rollback level (R399). -/
def Fuses.burn (f : Fuses) (h : List Nat) : Fuses :=
  let f1 := if headerFlag h 3 && !f.keyBound then { f with keyHash := keyHashOf h, keyBound := true } else f
  if headerFlag h 2 && decide (f1.rollback < leAt h 16 1) then { f1 with rollback := leAt h 16 1 } else f1

/-- The validator's finding on the card of a header (R400, R401): TARGET, what the image itself shows, then the checks of the card.
(notes/assumptions: 20 DESIGN CHOICE) -/
def cardFinding (f : Fuses) (h : List Nat) (image : Option (Nat × Nat)) (card : Card) : Conflict :=
  if bits (leAt h 17 1) (if f.variant = 1 then 1 else 0) 1 = 0 then some (0x1304, 0)
  else match image with
    | some x => some x
    | none => card.conflict (decide (f.variant = 1))

end Sys2Proof.Machine
end

