-- ==== Sys2Proof/Machine/Startup.lean ====
section
/-! DEFINITION. Start-up from the release of reset to RUN (R397 to R404), HALT and its exit, resets by pin and by supply (R423,
R435), and what the package reports: supplies, temperatures and fuses (R27, R409, R423, R428). -/

namespace Sys2Proof.Machine

/-! ### Reset and HALT -/

/-- A page that a failed or an interrupted operation has touched: what it holds is not defined.
(notes/assumptions: 2 DESIGN CHOICE) -/
def Chip.spoilPage (c : Chip) (k n : Nat) : Chip :=
  { c.setPage k n ((List.range 256).map (fun i => Config.freeValue (c.free + i) % 256)) with free := c.free + 256 }

/-- The pages of an operation that fails or is cut off: an erase has touched its sector, a program its page, a read nothing. -/
def Chip.spoilJob (c : Chip) (j : FlashJob) : Chip :=
  match j.op with
  | 0 => (List.range 256).foldl (fun c i => c.spoilPage j.copy (j.addr / 65536 * 256 + i)) c
  | 1 => c.spoilPage j.copy (j.addr / 256)
  | _ => c

/-- The WC8400 enters reset: every part of it is as `Chip.reset` has it. What belongs to the cells (their registers lie above those of
the ports), the flash devices, and the supplies that are low keep their state. A flash operation that runs is cut off (R435).
(notes/assumptions: 42 DEDUCED) -/
def Chip.wcReset (c0 : Chip) : Chip :=
  let c := match c0.start.job with
    | some j => c0.spoilJob j
    | none => c0
  { Chip.reset with
    regs := c.regs.filter (fun e => decide (8 * 33554432 ≤ e.1))
    clanes := c.clanes
    ctime := c.ctime
    ccmd := c.ccmd
    gates := c.gates
    meas := c.meas
    corrs := c.corrs
    packs := c.packs
    ledgers := c.ledgers
    cans := c.cans.filter (fun e => decide (e.1 < 16384))
    bcs := c.bcs
    captures := c.captures
    parts := c.parts
    recov := { RecovSt.reset with supplyLow := c.recov.supplyLow }
    flash := c.flash
    free := c.free }

/-- The device halts with a code (R404). -/
def Chip.halt (c : Chip) (code : Nat) : Chip := (c.wr Reg.Card.START_STATE 8).wr Reg.Card.HALT_CODE code

/-- It halts in HALT_CONFIG with a conflict (R400). -/
def Chip.haltConfig (c : Chip) (x : Nat × Nat) : Chip :=
  (((c.wr Reg.Card.CONFLICT_CODE x.1).wr Reg.Card.CONFLICT_DETAIL x.2).wr (copyStatus (c.rd Reg.Card.ACTIVE_COPY)) 4).halt 6

/-- Is the device in this START_STATE? -/
def Chip.inState (c : Chip) (n : Nat) : Bool := decide (c.rd Reg.Card.START_STATE = n)

/-- WC_RESET_RELEASE (R402, R409, R422): RESET_N rises with every supply up. `ok` says whether every fuse agrees with its redundant
copy. TEST_MODE other than 0 before field closure enters a factory test mode. (notes/assumptions: 7 DESIGN CHOICE) -/
def execWcResetRelease (testMode : Fin 4) (ok : Bool) (s : State) : Host.Outcome State Fault Refusal :=
  if s.chip.inState 0 = false ∨ s.chip.recov.supplyLow ≠ [] then .next s
  else if testMode.val ≠ 0 ∧ s.fuses.fieldClosed = false then .fault .factoryTestMode
  else s.run fun c => if ok then c.wr Reg.Card.START_STATE 1 else c.halt 1

/-- SELF_TEST_DONE (R403): whether the Summit common logic, the safety block and the recorder memory pass, and the planes and Ridges that
fail. -/
def execSelfTestDone (summit safety : Bool) (planes : List (Fin 2)) (ridges : List RidgeIx) (recorder : Bool) (s : State) :
    Host.Outcome State Fault Refusal :=
  s.run fun c =>
    if c.inState 1 = false then c
    else if summit = false ∨ safety = false ∨ (planes.contains 0 && planes.contains 1) = true then c.halt 2
    else
      { c with start := { c.start with
        badRidges := ridges.map (fun (d : Fin 4) => d.val), badPlanes := planes.map (fun (k : Fin 2) => k.val), recorderBad := !recorder } }.wr
        Reg.Card.START_STATE 2

/-! ### CARD_READ (R397) -/

/-- What start-up knows of a copy: it can be read and is not blank; its header passes 0x1301 and its ROLLBACK_LEVEL is not below the
fuses; it has a valid commit record; its signature, digest and key pass; its CARD_SEQ. -/
structure CopyView where
  readable : Bool
  eligible : Bool
  committed : Bool
  passes : Bool
  seq : Nat
  deriving DecidableEq, Repr

/-- Copy `k`; `ok` says whether the flash can be read, `sig` whether the digest matches and SIGNATURE verifies with PUBLIC_KEY. -/
def Chip.viewCopy (f : Fuses) (c : Chip) (k : Nat) (ok sig : Bool) : CopyView :=
  let h := c.header k
  let there := ok && decide (h ≠ erasedPage)
  ⟨there, there && headerOk h && decide (f.rollback ≤ leAt h 16 1), there && c.committed k,
    sig && (!f.keyBound || decide (keyHashOf h = f.keyHash)), if there then leAt h 12 4 else 0⟩

/-- Is `x`, beside the other copy `y`, a candidate? -/
def CopyView.candidate (x y : CopyView) : Bool := x.eligible && (x.committed || !y.committed)

/-- The status of `x` after start-up, `reached` saying whether its signature was verified. (notes/assumptions: 42 DEDUCED) -/
def CopyView.status (x y : CopyView) (reached : Bool) : Nat :=
  if x.readable = false then 0 else if x.eligible = false then 4
  else if x.candidate y = false ∨ reached = false then 1
  else if x.passes = false then 4 else if x.committed then 3 else 2

/-- CARD_READ_DONE (R397): the candidates are tried in descending CARD_SEQ, copy A first on a tie; the first that passes is selected.
(notes/assumptions: 20 DESIGN CHOICE, 42 DEDUCED) -/
def execCardReadDone (readA readB sigA sigB : Bool) (s : State) : Host.Outcome State Fault Refusal :=
  s.runFused fun f c =>
    if c.inState 2 = false then c
    else
      let a := c.viewCopy f 0 readA sigA
      let b := c.viewCopy f 1 readB sigB
      let ca := a.candidate b
      let cb := b.candidate a
      let aFirst := decide (b.seq ≤ a.seq)
      let aReached := ca && (aFirst || !(cb && b.passes))
      let bReached := cb && (!aFirst || !(ca && a.passes))
      let c1 := (((c.wr (copyStatus 0) (a.status b aReached)).wr (copyStatus 1) (b.status a bReached)).wr (copySeq 0) a.seq).wr
        (copySeq 1) b.seq
      if readA = false ∧ readB = false then c1.halt 3
      else if (aReached && a.passes) = true then (c1.wr Reg.Card.ACTIVE_COPY 0).wr Reg.Card.START_STATE 3
      else if (bReached && b.passes) = true then (c1.wr Reg.Card.ACTIVE_COPY 1).wr Reg.Card.START_STATE 3
      else c1.halt 4

/-! ### VALIDATE and CONFIGURE (R400, R402) -/

/-- VALIDATE_DONE (R3, R400): the selected copy's card. `image` is the conflict that its image shows, if any.
(notes/assumptions: 20 DESIGN CHOICE) -/
def execValidateDone (image : Option (Fin 65536 × Word)) (card : Card) (s : State) : Host.Outcome State Fault Refusal :=
  s.runFused fun f c =>
    if c.inState 3 = false then c
    else
      let h := c.header (c.rd Reg.Card.ACTIVE_COPY)
      if (f.stepMajor, f.stepMinor) ∉ steppingList h 128 then c.halt 5
      else match cardFinding f h (image.map (fun e => (e.1.val, e.2.toNat))) card with
        | some x => c.haltConfig x
        | none => { c with start := { c.start with card := some card } }.wr Reg.Card.START_STATE 4

/-- The Ridges, planes and links come into service; what failed its self-test is lost from the first frame, or out of service, with its
fault (R26, R403). (notes/assumptions: 25 DESIGN CHOICE) -/
def Chip.startDies (f : Fuses) (c : Chip) : Chip :=
  let c1 := [0, 1, 2, 3].foldl (fun c d => c.wr (ridgeReg d) (if d = 3 ∧ f.variant = 0 then 1 else 2)) c
  let c2 := ((((c1.set Reg.Die.LINK01_UP).set Reg.Die.LINK23_UP).set Reg.Die.PLANE0_OK).set Reg.Die.PLANE1_OK).wr Reg.Die.ACTIVE_PLANE
    (if c.start.badPlanes.contains 0 then 1 else 0)
  let c3 := c.start.badRidges.foldl (fun c d => c.loseRidge d 0) c2
  c.start.badPlanes.foldl (fun c k => (c.clr (planeReg k)).raise 4 (0x110 + k) 0x73 0) c3

/-- A level-5 fault whose kind, source and detail the specification does not give (R403): free values.
(notes/assumptions: 2 DESIGN CHOICE) -/
def Chip.raiseUnnamed (c : Chip) : Chip :=
  let (kind, c1) := c.drawFree
  let (source, c2) := c1.drawFree
  let (detail, c3) := c2.drawFree
  c3.raise 5 (source % 65536) (kind % 256) detail

/-- CONFIGURE_DONE (R398, R399, R402, R403): the card is loaded, its commit record written if absent, and the fuses blown that it asks
for; a safety block configuration that does not read back halts the device. (notes/assumptions: 42 DEDUCED) -/
def execConfigureDone (readBack : Bool) (s : State) : Host.Outcome State Fault Refusal :=
  s.blow fun f c =>
    match c.start.card with
    | none => (f, c)
    | some card =>
      if c.inState 4 = false then (f, c)
      else if readBack = false then (f, c.halt 2)
      else
        let k := c.rd Reg.Card.ACTIVE_COPY
        let c1 := (c.loadCard k card).startDies f
        let c2 := if c1.committed k then c1 else (c1.writeCommit k).wr (copyStatus k) 3
        let c3 := if c.start.recorderBad then c2.raiseUnnamed else c2
        let c4 := c3.populated.foldl (fun c g => c.setRope g { c.rope g with comingUp := true }) c3
        (f.burn (c.header k),
          ((({ c4 with start := { c4.start with card := none } }.countModes).set Reg.Saf.SAFETY_OK).clr Reg.Saf.TRIP_DEMAND).wr
            Reg.Card.START_STATE 5)

/-! ### LINKS and RUN -/

/-- Every populated position awaits its cell (R304); the others are unused. -/
def Chip.awaitCells (c : Chip) : Chip :=
  let c1 := (c.populated.flatMap c.ropeCells).foldl (fun c a =>
    if (c.posn a).admState = 0 then c.setAt a { c.posn a with admState := 1, since := c.runNs } else c) c
  ((List.range 8).foldl (fun c r => c.countAdm r) c1).showAdms

/-- LINKS_DONE (R402): RUN. TRIP_N is released unless the safety block demands a trip, the recorder arms, the station channels go
online, and admission begins. -/
def execLinksDone (ms : Nat) (s : State) : Host.Outcome State Fault Refusal :=
  s.run fun c =>
    if c.inState 5 = false then c
    else
      let c1 := (c.wr Reg.Card.START_STATE 6).wr Reg.Card.STARTUP_MS (satNat 32 ms)
      let c2 := if c1.on Reg.Saf.TRIP_DEMAND then c1 else c1.clr Reg.Flt.TRIP
      let c3 := if c2.start.recorderBad then c2 else c2.takeBuf 0 false
      ((c3.canOnline 16384).canOnline 16385).awaitCells

/-- RESTART_GO (R404): accepted only in HALT, from a LINKED port; a flash operation that runs completes first (R408).
(notes/assumptions: 42 DEDUCED) -/
def execRestartGo (p : PortIx) (s : State) : Host.Outcome State Fault Refusal :=
  s.run fun c =>
    if c.inState 8 = false ∨ c.rd (Reg.Port.PORT_STATE p) ≠ 1 then c
    else if c.start.job.isSome then { c with start := { c.start with restartDue := true } }
    else c.wcReset

/-! ### Resets by pin and supply (R423, R435) -/

/-- WC_RESET_N_ASSERTED (R435). -/
def execWcResetNAsserted (s : State) : Host.Outcome State Fault Refusal := s.run fun c => c.wcReset

/-- SUPPLY_BELOW_RESET (R423): `k` is the supply, in the order of R27. No fault is raised. -/
def execSupplyBelowReset (k : Fin 5) (s : State) : Host.Outcome State Fault Refusal :=
  s.run fun c =>
    let r := c.wcReset
    { r with recov := { r.recov with supplyLow := (k.val :: c.recov.supplyLow).eraseDups } }

/-- WC_SUPPLY_RETURN (R423): the supply is back; the device starts from RESET once none is low and RESET_N is released.
(notes/assumptions: 42 DEDUCED) -/
def execWcSupplyReturn (k : Fin 5) (s : State) : Host.Outcome State Fault Refusal :=
  s.run fun c => { c with recov := { c.recov with supplyLow := c.recov.supplyLow.filter (fun x => decide (x ≠ k.val)) } }

/-- SUPPLY_OUT_OF_RANGE (R27, R423): VDD_CORE, VDD_SD, VDDA_SD, VDD_IO18 and VDD_IO33 have the indices 1 to 5. -/
def execSupplyOutOfRange (k : Fin 5) (mv : Nat) (s : State) : Host.Outcome State Fault Refusal :=
  s.run fun c => c.raise 5 (k.val + 1) 0x90 mv

/-- VS24_OUT_OF_WINDOW (R33, R423): either supply of the safety block is a failure of its self-test, cause 8. -/
def execVs24OutOfWindow (k : Fin 2) (s : State) : Host.Outcome State Fault Refusal :=
  s.run fun c =>
    let _ := k
    c.safetyFails

/-- FUSE_INTEGRITY_FAILURE (R27, R409). -/
def execFuseIntegrityFailure (row : Nat) (s : State) : Host.Outcome State Fault Refusal :=
  s.run fun c => c.raise 5 0x20 0x91 row

/-! ### Die temperatures (R428) -/

/-- The warning of a die is raised at 110 °C and clears at 105 °C. (notes/assumptions: 42 DEDUCED) -/
def Chip.tempWarning (c : Chip) (die : Nat) (t : Int) : Chip :=
  if 110 * 16 ≤ t ∧ die ∉ c.recov.warned then
    { c with recov := { c.recov with warned := die :: c.recov.warned } }.raise 5 (0x10 + die) 0x92 (ofSigned 32 t)
  else if t ≤ 105 * 16 then { c with recov := { c.recov with warned := c.recov.warned.filter (fun x => decide (x ≠ die)) } }
  else c

/-- DIE_TEMP_SAMPLE (R27, R33, R428): `t` in 1/16 °C; die 4 is the Summit. -/
def execDieTempSample (die : Fin 5) (t : Int) (s : State) : Host.Outcome State Fault Refusal :=
  s.run fun c =>
    let c1 := { c with recov := { c.recov with dieTemps := mapSet 0 c.recov.dieTemps die.val t } }.tempWarning die.val t
    if t < 125 * 16 then c1
    else if die.val < 4 then c1.loseRidge die.val 2
    else c1.tripStation

end Sys2Proof.Machine
end

