-- ==== Sys2Proof/Machine/Provision.lean ====
section
/-! DEFINITION. The flash interface (R405), re-provisioning and the switch to a new card (R406 to R408), and the closing of the field
fuses (R410, R411). -/

namespace Sys2Proof.Machine

/-! ### Flash operations (R405) -/

/-- A flash order of port `p`: 0 ERASE, 1 PROGRAM, 2 READ. In HALT every LINKED port may order on either copy; else it takes MAINT, and
only the copy that is not active. One operation runs at a time, and none starts during provisioning (R408).
(notes/assumptions: 42 DEDUCED) -/
def Chip.flashOrder (c : Chip) (p op : Nat) : Chip :=
  let res := Reg.Card.FLASH_RESULT p
  let k := c.rd (Reg.Card.FLASH_COPY p)
  let halted := c.inState 8
  if halted = true ∧ c.rd (Reg.Port.PORT_STATE p) ≠ 1 then c.refuseTo p res 4
  else if halted = false ∧ c.has p .maint = false then c.refuseTo p res 4
  else if halted = false ∧ c.inState 6 = false ∧ c.inState 7 = false then c.wr res 5
  else if halted = false ∧ k = c.rd Reg.Card.ACTIVE_COPY then c.wr res 3
  else if c.start.job.isSome = true ∨ c.inState 7 = true then c.wr res 5
  else
    let page := (List.range 64).flatMap (fun j => leBytes 4 (c.rd (Reg.Card.FLASH_PAGE p j)))
    let c1 := { c with start := { c.start with job := some ⟨p, op, k, c.rd (Reg.Card.FLASH_ADDR p), if op = 1 then page else []⟩ } }.wr res 1
    if op = 2 then c1 else (c1.eraseCommit k).wr (copyStatus k) 0

/-- ERASE_GO (R405). -/
def execEraseGo (p : PortIx) (s : State) : Host.Outcome State Fault Refusal := s.run fun c => c.flashOrder p 0

/-- PROGRAM_GO (R405). -/
def execProgramGo (p : PortIx) (s : State) : Host.Outcome State Fault Refusal := s.run fun c => c.flashOrder p 1

/-- READ_GO (R405). -/
def execReadGo (p : PortIx) (s : State) : Host.Outcome State Fault Refusal := s.run fun c => c.flashOrder p 2

/-- What the operation in progress leaves on the flash, or in the port's page registers. -/
def Chip.flashEffect (c : Chip) (j : FlashJob) (ok : Bool) : Chip :=
  let n := j.addr / 256
  if ok = false then c.spoilJob j
  else match j.op with
  | 0 => c.erasePages j.copy (j.addr / 65536 * 256) 256
  | 1 => c.setPage j.copy n ((List.range 256).map (fun i => (c.page j.copy n).getD i 0xFF &&& j.page.getD i 0xFF))
  | _ => (List.range 64).foldl (fun c i => c.wr (Reg.Card.FLASH_PAGE j.port i) (leAt (c.page j.copy n) (4 * i) 4)) c

/-- FLASH_OP_DONE (R405): the operation completes, or ends in a flash error; a restart that waited for it follows (R408). -/
def execFlashOpDone (ok : Bool) (s : State) : Host.Outcome State Fault Refusal :=
  s.run fun c =>
    match c.start.job with
    | none => c
    | some j =>
      let c1 := { c.flashEffect j ok with start := { c.start with job := none, restartDue := false } }.wr (Reg.Card.FLASH_RESULT j.port)
        (if ok then 2 else 6)
      if c.start.restartDue then c1.wcReset else c1

/-! ### Provisioning (R406 to R408) -/

/-- PROVISION_GO (R406). -/
def execProvisionGo (p : PortIx) (s : State) : Host.Outcome State Fault Refusal :=
  s.run fun c =>
    let res := Reg.Card.PROV_RESULT p
    if c.has p .maint = false then c.refuseTo p res 4
    else if c.inState 6 = false ∨ c.allBlocked = false ∨ c.rd Reg.Xchg.XCHG_ACTIVE ≠ 0 ∨ c.cal.running ≠ none then c.wr res 3
    else { c with start := { c.start with provPort := some p.val } }.wr Reg.Card.START_STATE 7 |>.wr res 1

/-- A provisioning ends with a result at the port that ordered it; RUN again. -/
def Chip.endProvision (c : Chip) (res : Nat) : Chip :=
  let c1 := match c.start.provPort with
    | some p => c.wr (Reg.Card.PROV_RESULT p) res
    | none => c
  { c1 with start := { c1.start with provPort := none } }.wr Reg.Card.START_STATE 6

/-- It ends with a conflict (R406). -/
def Chip.provisionConflict (c : Chip) (x : Nat × Nat) : Chip :=
  ((c.wr Reg.Card.PROV_CONFLICT_CODE x.1).wr Reg.Card.PROV_CONFLICT_DETAIL x.2).endProvision 6

/-- The lane settings and module acceptance of a rope under a card. -/
def Card.ropeEnds (k : Card) (g : Nat) : CardEnd × CardEnd :=
  (mapGet CardEnd.blank k.lanes.ends (2 * g), mapGet CardEnd.blank k.lanes.ends (2 * g + 1))

/-- Ropes at the switch: one whose settings change, or that is new, passes through DOWN; one that the card no longer uses stays there. -/
def Chip.switchRopes (c : Chip) (old : Card) (was : List Nat) : Chip :=
  let c1 := was.foldl (fun c g => if c.population g = 0 then c.ropeDown g false else c) c
  c1.populated.foldl (fun c g =>
    if was.contains g = true ∧ old.ropeEnds g = c.card.ropeEnds g then c
    else
      let d := c.ropeDown g false
      d.setRope g { d.rope g with comingUp := true }) c1

/-- Cells at the switch: those that are enrolled and not FENCED meet the new ROUTE_TAG; where it is the old one they are told to go to
BIVOUAC (R408). -/
def Chip.switchCells (c : Chip) (oldTag : Nat) : Chip :=
  if c.rd Reg.Card.ROUTE_TAG = oldTag then
    (c.populated.flatMap c.ropeCells).foldl (fun c a =>
      if (c.posn a).admState = 6 ∧ (c.posn a).state ≠ 8 then c.orderBivouac a else c) c
  else c

/-- Ports at the switch: streams whose right is lost end, and a token holder without ORDER gives the token back, with no hold. -/
def Chip.switchPorts (c : Chip) : Chip :=
  [0, 1, 2, 3].foldl (fun c p =>
    let c1 := [0, 1, 2, 3, 4].foldl (fun c st =>
      if c.on (Reg.Strm.ACTIVE p st) && !c.has p (streamRight st) then c.endStream p st else c) c
    if c1.on (Reg.Port.TOKEN p) && !c1.has p .order then c1.freeToken p else c1) c

/-- The recorder at the switch (R359, R408): HELD recordings stay where the number of buffers does; it arms again. -/
def Chip.switchRecorder (c : Chip) (oldN : Nat) : Chip :=
  let kept := if c.rd Reg.Rec.N_BUF_LOG2 = oldN then c.recorder.bufs.filter (fun e => decide (e.2.state = 3)) else []
  let c1 := { c with recorder := { RecSt.off with bufs := kept, seq := c.recorder.seq } }
  let c2 := c1.wr Reg.Rec.BUFS_HELD kept.length
  if c2.start.recorderBad then c2 else c2.nextBuf false

/-- The card of copy `k` takes effect at the frame boundary (R407, R408). (notes/assumptions: 39 DEDUCED, 42 DEDUCED) -/
def Chip.switchCard (c : Chip) (k : Nat) (card : Card) : Chip :=
  let c1 := ((c.writeCommit k).eraseCommit (1 - k)).loadCard k card
  let c2 := { c1 with
    sched := { SchedSt.idle with serial := c.sched.serial, trace := c.sched.trace, postLeft := c.sched.postLeft }
    pols := []
    policy := PolicySt.idle }.clr Reg.Trace.IN_FLIGHT
  let c3 := (((c2.switchRopes c.card c.populated).switchCells (c.rd Reg.Card.ROUTE_TAG)).switchPorts.switchRecorder
    (c.rd Reg.Rec.N_BUF_LOG2)).awaitCells.countModes
  (c3.wr (copyStatus k) 3).wr (copyStatus (1 - k)) 2

/-- PROVISION_DONE (R406 to R408): R397, with a CARD_SEQ above the active one, and R400 have been applied to the inactive copy; `sigOk`
says whether its digest matches and its signature verifies, `image` the conflict its image shows.
(notes/assumptions: 20 DESIGN CHOICE, 42 DEDUCED) -/
def execProvisionDone (dt : Nat) (sigOk : Bool) (image : Option (Fin 65536 × Word)) (card : Card) (s : State) :
    Host.Outcome State Fault Refusal :=
  s.blow fun f c0 =>
    if c0.inState 7 = false then (f, c0)
    else
      let c := c0.advance dt
      let k := 1 - c.rd Reg.Card.ACTIVE_COPY
      let h := c.header k
      let st := copyStatus k
      let seen := c.wr (copySeq k) (if h = erasedPage then 0 else leAt h 12 4)
      if h = erasedPage then (f, (seen.wr st 0).provisionConflict (0x1301, 0))
      else if headerOk h = false then (f, (seen.wr st 4).provisionConflict (0x1301, 0))
      else if leAt h 16 1 < f.rollback ∨ sigOk = false ∨ (f.keyBound = true ∧ keyHashOf h ≠ f.keyHash) then
        (f, (seen.wr st 4).endProvision 5)
      else if leAt h 12 4 ≤ c.rd Reg.Card.CARD_SEQ then (f, (seen.wr st (if c.committed k then 3 else 2)).endProvision 5)
      else match cardFinding f h (image.map (fun e => (e.1.val, e.2.toNat))) card with
        | some x => (f, (seen.wr st 4).provisionConflict x)
        | none => (f.burn h, (seen.switchCard k card).endProvision 2)

/-! ### Field closure (R410, R411) -/

/-- FIELD_CLOSE_ARM (R410). -/
def execFieldCloseArm (p : PortIx) (s : State) : Host.Outcome State Fault Refusal :=
  s.run fun c =>
    if c.has p .maint = false then c.refuseTo p (Reg.Card.FIELD_RESULT p) 3
    else { c with start := { c.start with armed := some (p.val, c.runNs) } }

/-- Is field closure armed by port `p`, within the last 10 s? -/
def Chip.fieldArmed (c : Chip) (p : Nat) : Bool :=
  match c.start.armed with
  | some (q, t) => decide (q = p ∧ c.runNs < t + 10000000000)
  | none => false

/-- FIELD_CLOSE_GO (R410): the closure cannot be reversed. (notes/assumptions: 42 DEDUCED) -/
def execFieldCloseGo (p : PortIx) (dt : Nat) (s : State) : Host.Outcome State Fault Refusal :=
  s.blow fun f c0 =>
    let c := c0.advance dt
    let res := Reg.Card.FIELD_RESULT p
    if c.has p .maint = false then (f, c.refuseTo p res 3)
    else if c.fieldArmed p = false then (f, c.wr res 5)
    else
      let c1 := { c with start := { c.start with armed := none } }
      if c.rd (Reg.Card.FIELD_CODE p) ≠ f.dieUid % 2 ^ 32 then (f, c1.wr res 4)
      else if headerFlag (c.header (c.rd Reg.Card.ACTIVE_COPY)) 0 = false ∨ f.keyBound = false ∨ c.allBlocked = false ∨ c.inState 6 = false then
        (f, c1.wr res 2)
      else ({ f with fieldClosed := true }, c1.wr res 1)

/-- FIELD_CLOSE_ARM_EXPIRY (R410): 10 s without FIELD_CLOSE_GO. -/
def execFieldCloseArmExpiry (dt : Nat) (s : State) : Host.Outcome State Fault Refusal :=
  s.run fun c0 =>
    let c := c0.advance dt
    match c.start.armed with
    | some (_, t) => if t + 10000000000 ≤ c.runNs then { c with start := { c.start with armed := none } } else c
    | none => c

/-- CELL_FIELD_CLOSE_GO (R348, R411): what the WN140 does with a FIELD_CLOSE_GO that has reached it; `readBack` says whether the fuse
reads back blown. -/
def execCellFieldCloseGo (a : CellAddr) (readBack : Bool) (s : State) : Host.Outcome State Fault Refusal :=
  s.blow fun f c =>
    if c.on (Reg.CFlt.FIELD_CLOSE_GO a) = false then (f, c)
    else
      let c1 := c.clr (Reg.CFlt.FIELD_CLOSE_GO a)
      let res := Reg.CFlt.FIELD_CLOSE_RESULT a
      if c.cellState a ≠ 3 then (f, c1.wr res 3)
      else if mapGet false f.cellsClosed a then (f, c1.wr res 4)
      else if c.rd (Reg.CFlt.FIELD_CLOSE_CODE a) ≠ (c.part a).fused.dieUid % 2 ^ 32 then (f, c1.wr res 2)
      else if readBack = false then (f, c1.wr res 5)
      else ({ f with cellsClosed := mapSet false f.cellsClosed a.val true }, c1.wr res 1)

end Sys2Proof.Machine
end

