-- ==== Sys2Proof/Machine/Snapshots.lean ====
section
/-! DEFINITION. The reads that latch a snapshot (R5, R44): a host's read of the low word of a group copies the group into that
port's own snapshot, where it holds until the same port reads the low word again. A read made without its read right returns 0 and
latches nothing (R414). The cell's snapshots are those of its management words. -/

namespace Sys2Proof.Machine

/-- Port `p` latches a group of shared fields. -/
def Chip.latchAll (c : Chip) (p : Nat) (l : List Fld) : Chip := l.foldl (fun c f => c.latch p f) c

/-- A group of which each port has its own copy is latched. -/
def Chip.latchOwnAll (c : Chip) (l : List Fld) : Chip := l.foldl (fun c f => c.latchOwn f) c

/-- What a read by port `p` does where OBSERVE is needed (R377, R414). -/
def Chip.observed (c : Chip) (p : Nat) (f : Chip → Chip) : Chip := if c.has p .observe then f c else c

/-- The time registers show the present instant. (notes/assumptions: 45 DEDUCED) -/
def Chip.showTime (c : Chip) : Chip :=
  let ns := c.nowNs
  (((c.wr Reg.Time.TIME_NS (ns % 1000000000)).wr Reg.Time.TIME_SEC_LO (ns / 1000000000)).wr Reg.Time.TIME_SEC_HI
    (ns / 1000000000 / 2 ^ 32)).wr Reg.Time.TIME_FRAC (c.time.units % 2 ^ 40 / 2 ^ 24)

/-- The group of TIME_NS. -/
def timeGroup : List Fld :=
  [Reg.Time.TIME_NS, Reg.Time.TIME_SEC_LO, Reg.Time.TIME_SEC_HI, Reg.Time.TIME_FRAC, Reg.Time.FRAME_NUM]

/-- TIME_NS_READ (R44). -/
def execTimeNsRead (dt : Nat) (p : PortIx) (s : State) : Host.Outcome State Fault Refusal :=
  s.run fun c => (c.advance dt).observed p fun c => c.showTime.latchAll p timeGroup

/-- ANGLE_READ (R5, R54): the angle now, its fraction and RATE, and the short stamp of the instant it holds. -/
def execAngleRead (dt : Nat) (p : PortIx) (n : ChanIx) (s : State) : Host.Outcome State Fault Refusal :=
  s.run fun c => (c.advance dt).observed p fun c =>
    let a := c.angleAfter n c.sinceFrame
    (((c.wr ((Reg.Angle.ANGLE n).snap p) (a / 65536)).wr ((Reg.Angle.ANGLE_FRAC n).snap p) a).latch p (Reg.Angle.RATE n)).wr
      ((Reg.Angle.STAMP n).snap p) c.stamp

/-- PTP_GM_ID_LO_READ (R5). -/
def execPtpGmIdLoRead (p : PortIx) (s : State) : Host.Outcome State Fault Refusal :=
  s.run fun c => c.observed p fun c => c.latchAll p [Reg.Time.PTP_GM_ID_LO, Reg.Time.PTP_GM_ID_HI]

/-- DIE_UID_LO and DIE_UID_HI, which hold what is fused. -/
def dieUidLo : Fld := fldS 0x4 0 32 0

@[inherit_doc dieUidLo] def dieUidHi : Fld := fldS 0x8 0 32 0

/-- DIE_UID_LO_READ (R5, R377): every port that is not DOWN may read the identity block. -/
def execDieUidLoRead (p : PortIx) (s : State) : Host.Outcome State Fault Refusal :=
  s.runFused fun f c =>
    if c.rd (Reg.Port.PORT_STATE p) = 0 then c
    else (c.wr (dieUidLo.snap p) f.dieUid).wr (dieUidHi.snap p) (f.dieUid / 2 ^ 32)

/-- CELL_TIME_NS_READ (R5): through the management slot. -/
def execCellTimeNsRead (a : CellAddr) (s : State) : Host.Outcome State Fault Refusal := s.run fun c => (c.cellSnapshot a 0x10).2.2

/-- TEST_ERR_COUNT_READ (R5, R87): of a Ridge lane by port `p`, or of a WN140 port through the management slot. -/
def execTestErrCountRead (p : PortIx) (lane : LaneRef) (s : State) : Host.Outcome State Fault Refusal :=
  s.run fun c =>
    match lane with
    | .ridge g e => c.observed p fun c => c.latchAll p [Reg.RLane.TEST_ERR_COUNT g e, Reg.RLane.TEST_BITS g e]
    | .cell a b => (c.cellSnapshot a (0x37 + 16 * b.val)).2.2

/-- The group of PROBE_KEY. -/
def rankGroup (p r : Nat) : List Fld :=
  [Reg.RankProbe.PROBE_KEY p r, Reg.RankProbe.PROBE_E_DEV p r, Reg.RankProbe.PROBE_W p r, Reg.RankProbe.PROBE_PLACE p r,
    Reg.RankProbe.PROBE_RANKED p r, Reg.RankProbe.PROBE_INSERTED p r, Reg.RankProbe.PROBE_STALE p r, Reg.RankProbe.PROBE_AGE p r]

/-- PROBE_KEY_READ (R143): the rank probe of region `r`. -/
def execProbeKeyRead (p : PortIx) (r : RegionIx) (s : State) : Host.Outcome State Fault Refusal :=
  s.run fun c => c.observed p fun c => c.latchOwnAll (rankGroup p r)

/-- The group of PR_SOC. -/
def polGroup (p : Nat) : List Fld :=
  [Reg.PolProbe.PR_SOC p, Reg.PolProbe.PR_HEALTH p, Reg.PolProbe.PR_I_BATT_REF p, Reg.PolProbe.PR_W_TARGET p, Reg.PolProbe.PR_I_LIM_CH p,
    Reg.PolProbe.PR_I_LIM_DIS p, Reg.PolProbe.PR_DERATE p, Reg.PolProbe.PR_PACK_STATE p, Reg.PolProbe.PR_MERIT p,
    Reg.PolProbe.PR_Q_REMAIN p, Reg.PolProbe.PR_COST p, Reg.PolProbe.PR_RR p, Reg.PolProbe.PR_HEALTH_AGE p]

/-- PR_SOC_READ (R5). -/
def execPrSocRead (p : PortIx) (s : State) : Host.Outcome State Fault Refusal :=
  s.run fun c => c.observed p fun c => c.latchOwnAll (polGroup p)

/-- BC_INTEG_READ (R5). -/
def execBcIntegRead (a : CellAddr) (s : State) : Host.Outcome State Fault Refusal := s.run fun c => (c.cellSnapshot a 0x9C).2.2

/-- The group of a slot's OUT. -/
def slotGroup (j : Nat) : List Fld :=
  [Reg.Slot.OUT j, Reg.Slot.INTEG j, Reg.Slot.ERR j, Reg.Slot.MODE j, Reg.Slot.SAT j, Reg.Slot.I_CLAMP j, Reg.Slot.MISSED j,
    Reg.Slot.FB_AGED j, Reg.Slot.FB_LOST j, Reg.Slot.FB_FROZEN j, Reg.Slot.ON_ALT j, Reg.Slot.XCHK j, Reg.Slot.PRESET_CLAMPED j,
    Reg.Slot.FB_AGE j]

/-- SLOT_OUT_READ (R5). -/
def execSlotOutRead (p : PortIx) (j : Fin 128) (s : State) : Host.Outcome State Fault Refusal :=
  s.run fun c => c.observed p fun c => c.latchAll p (slotGroup j)

/-- The group of REF_V0. -/
def armGroup (r : Nat) : List Fld :=
  [Reg.RegLoop.REF_V0 r, Reg.RegLoop.REF_VH r, Reg.RegLoop.REF_V1 r, Reg.RegLoop.I_ARM_PRED r, Reg.RegLoop.BELAY_DC r,
    Reg.RegLoop.BELAY_AC r, Reg.RegLoop.BELAY_PHASE r, Reg.RegLoop.BELAY_CH r, Reg.RegLoop.DROP_PRED r]

/-- REF_V0_READ (R5). -/
def execRefV0Read (p : PortIx) (r : RegionIx) (s : State) : Host.Outcome State Fault Refusal :=
  s.run fun c => c.observed p fun c => c.latchAll p (armGroup r)

/-- CORR_RE_READ (R5): of correlator `k` of a cell. -/
def execCorrReRead (a : CellAddr) (k : Fin 4) (s : State) : Host.Outcome State Fault Refusal :=
  s.run fun c => (c.cellSnapshot a (0x72 + 4 * k.val)).2.2

/-- IMP_ABS_READ (R5, R251). -/
def execImpAbsRead (p : PortIx) (s : State) : Host.Outcome State Fault Refusal :=
  s.run fun c => c.observed p fun c =>
    (c.showImp p).latchOwnAll [Reg.Sweep.IMP_ABS p, Reg.Sweep.IMP_PHASE p, Reg.Sweep.IMP_FREQ p, Reg.Sweep.IMP_T p, Reg.Sweep.IMP_AGE p]

/-- ADM_STATE_READ (R5, R327). -/
def execAdmStateRead (p : PortIx) (s : State) : Host.Outcome State Fault Refusal :=
  s.run fun c => c.observed p fun c =>
    (c.showAdm p).latchOwnAll [Reg.Adm.ADM_STATE p, Reg.Adm.ADM_FAILS p, Reg.Adm.ADM_REASON p, Reg.Adm.ADM_EPOCH p, Reg.Adm.ADM_UID_LO p,
      Reg.Adm.ADM_UID_HI p, Reg.Adm.ADM_SINCE p]

/-- PP_PACK_STATE_READ (R5, R271). -/
def execPpPackStateRead (p : PortIx) (s : State) : Host.Outcome State Fault Refusal :=
  s.run fun c => c.observed p fun c =>
    (c.showPack p).latchOwnAll [Reg.Xchg.PP_PACK_STATE p, Reg.Xchg.PP_XCHG_STATE p, Reg.Xchg.PP_BMS_FLAGS p, Reg.Xchg.PP_UID_LO p,
      Reg.Xchg.PP_UID_HI p, Reg.Xchg.PP_MAKER p, Reg.Xchg.PP_MODEL p, Reg.Xchg.PP_CHECKS p, Reg.Xchg.PP_XCHG_TIME p]

/-- CHARGE_WH_LO_READ (R5): the live energy counts of a cell. -/
def execChargeWhLoRead (a : CellAddr) (s : State) : Host.Outcome State Fault Refusal := s.run fun c => (c.cellSnapshot a 0xE1).2.2

/-- The group of a cell table entry. -/
def cellGroup (a : Nat) : List Fld :=
  [Reg.Ct.CT_STATE a, Reg.Ct.CT_ADM_STATE a, Reg.Ct.CT_INSERTABLE a, Reg.Ct.CT_INSERTED a, Reg.Ct.CT_STALE a, Reg.Ct.CT_FENCED a,
    Reg.Ct.CT_LOCAL_HOLD a, Reg.Ct.CT_SENSOR a, Reg.Ct.CT_EPOCH a, Reg.Ct.CT_V_CAP a, Reg.Ct.CT_V_PACK a, Reg.Ct.CT_I_PACK a,
    Reg.Ct.CT_T_STAGE a, Reg.Ct.CT_PACK_STATE a, Reg.Ct.CT_AGE a, Reg.Ct.CT_DERATE a, Reg.Ct.CT_SOC a]

/-- CT_STATE_READ (R419). -/
def execCtStateRead (p : PortIx) (a : CellAddr) (s : State) : Host.Outcome State Fault Refusal :=
  s.run fun c => c.observed p fun c => c.latchAll p (cellGroup a)

end Sys2Proof.Machine
end

