-- ==== Sys2Proof/Machine/HostRegs.lean ====
section
/-! DEFINITION. A host's write of a register word that has no command of its own (R377, R413 to R416): the writable fields of
every word of the host window, the right each needs, and what a write changes beside them. -/

namespace Sys2Proof.Machine

/-- Who may write a field. -/
inductive Need where
  /-- Any port that is not DOWN: the MSI-X table (R375). -/
  | linked
  /-- Any attached port (R377). -/
  | attached
  /-- A port that holds one of the rights. -/
  | oneOf (l : List Right)
  /-- A port with MAINT, and in HALT every LINKED port: the flash interface (R404). -/
  | flash
  deriving DecidableEq, Repr

/-- A writable field of a word of the host window. -/
structure HostFld where
  fld : Fld
  need : Need
  /-- A 1 written clears a bit, a 0 leaves it (R5). -/
  w1c : Bool
  deriving DecidableEq, Repr

/-- RW fields that one need covers. (notes/assumptions: 23 DEDUCED) -/
def rwFields (n : Need) (l : List Fld) : List HostFld := l.map (⟨·, n, false⟩)

/-- W1C flags that one need covers. (notes/assumptions: 23 DEDUCED) -/
def w1cFields (n : Need) (l : List Fld) : List HostFld := l.map (⟨·, n, true⟩)

/-- ORDER or MAINT. -/
def orderMaint : Need := .oneOf [.order, .maint]

/-- PROTECT or MAINT. -/
def protectMaint : Need := .oneOf [.protect, .maint]

/-- PROTECT. -/
def protectOnly : Need := .oneOf [.protect]

/-- MAINT. -/
def maintOnly : Need := .oneOf [.maint]

/-- ORDER. -/
def orderOnly : Need := .oneOf [.order]

/-- OBSERVE: the selectors of the probes, which need only the right to read what they select (notes/assumptions/21.md).
(notes/assumptions: 21 DEDUCED) -/
def observeOnly : Need := .oneOf [.observe]

/-- LEDGER. -/
def ledgerOnly : Need := .oneOf [.ledger]

/-- Writable words of stream `st` of port `p`, by their place in the stream's block. ENABLE = 1 and RD_PTR have commands of their
own (R387, R388). -/
def streamWord (p st : Nat) : Nat → List HostFld
  | 0x00 => rwFields .attached [Reg.Strm.RING_BASE_LO p st]
  | 0x04 => rwFields .attached [Reg.Strm.RING_BASE_HI p st]
  | 0x08 => rwFields .attached [Reg.Strm.RING_SIZE_LOG2 p st]
  | 0x0C => rwFields .attached [Reg.Strm.HEAD_ADDR_LO p st]
  | 0x10 => rwFields .attached [Reg.Strm.HEAD_ADDR_HI p st]
  | 0x24 => rwFields .attached [Reg.Strm.INT_THRESH p st, Reg.Strm.INT_DELAY p st]
  | 0x2C => if st = 4 then rwFields .attached [Reg.Strm.CAN_MASK p st] else []
  | _ => []

/-- Writable words of angle channel `n`, by their place in its block. -/
def angleWord (n : Nat) : Nat → List HostFld
  | 0x1C => w1cFields orderMaint [Reg.Angle.LOCK_GAINED n, Reg.Angle.LOCK_LOST n, Reg.Angle.SYNCED n, Reg.Angle.RAMP_DONE n,
      Reg.Angle.GATED_DROP n]
  | _ => []

/-- Writable words of station CAN channel `ch`, by their place in its block (R303). -/
def stationCanWord (ch : Nat) : Nat → List HostFld
  | 0x08 =>
    let n := 16384 + ch
    w1cFields protectMaint [Reg.Can.PASSIVE_SEEN n, Reg.Can.BUS_OFF_SEEN n, Reg.Can.ALONE_SEEN n, Reg.Can.IDENT_CLASH n,
      Reg.Can.RX_OVERFLOW_SEEN n, Reg.Can.TX_SKIPPED_SEEN n, Reg.Can.TDC_RANGE n]
  | 0x14 =>
    let n := 16384 + ch
    rwFields orderMaint [Reg.Can.TX2_ID n, Reg.Can.TX2_IDE n, Reg.Can.TX2_FDF n, Reg.Can.TX2_BRS n]
  | 0x18 => rwFields orderMaint [Reg.StCan.TX2_LEN ch]
  | o => if 0x40 ≤ o ∧ o ≤ 0x7C ∧ o % 4 = 0 then rwFields orderMaint [Reg.StCan.TX2_DATA ch ((o - 0x40) / 4)] else []

/-- Writable words of the Ridge lane at end `e` of rope `g`, by their place in its block. TX_EQ and LOOPBACK have commands of their
own (R79, R83). -/
def ridgeLaneWord (g e : Nat) : Nat → List HostFld
  | 0x04 => w1cFields maintOnly [Reg.RLane.LOCK_LOST g e, Reg.RLane.LOCK_GAINED g e, Reg.RLane.ERR_LIMIT g e,
      Reg.RLane.WRITE_REFUSED g e, Reg.RLane.MODULE_CHANGED g e, Reg.RLane.MODULE_MISMATCH g e, Reg.RLane.RX_POWER_LOW g e]
  | 0x14 => rwFields maintOnly [Reg.RLane.PATTERN g e, Reg.RLane.GEN_EN g e, Reg.RLane.CHK_EN g e, Reg.RLane.INVERT g e,
      Reg.RLane.BURST_LEN g e]
  | _ => []

/-- Writable words of region `r`, for port `p`, by their place in the region's block. -/
def regionWord (p r : Nat) : Nat → List HostFld
  | 0x20 => rwFields maintOnly [Reg.LaneTest.USER_PATTERN_LO r]
  | 0x24 => rwFields maintOnly [Reg.LaneTest.USER_PATTERN_HI r]
  | 0x28 => rwFields maintOnly [Reg.LaneTest.ROPE r, Reg.LaneTest.PATTERN r, Reg.LaneTest.DURATION_MS r]
  | 0x7C => w1cFields orderMaint [Reg.Mods.OVERMOD_SEEN r, Reg.Mods.DEFER_SEEN r, Reg.Mods.BUDGET_HIT r, Reg.Mods.RANK_LATE r,
      Reg.Mods.POL_REVERSED r]
  | 0x80 => rwFields observeOnly [Reg.RankProbe.PROBE_CELL p r]
  | 0xD0 => rwFields maintOnly [Reg.Cal.CAL_CELL p r, Reg.Cal.CAL_AIN p r, Reg.Cal.POINT p r, Reg.Cal.N_LOG2 p r]
  | 0xD4 => rwFields maintOnly [Reg.Cal.CAL_APPLIED p r]
  | o => if 0x400 ≤ o ∧ o < 0xC00 then ridgeLaneWord (32 * r + (o - 0x400) / 0x40) (o / 0x20 % 2) (o % 0x20) else []

/-- Writable words of the station blocks below 0x1_0000 that are no array, for port `p`. HEARTBEAT, FAULT_HOLD and
TIME_SET_SEC_LO have commands of their own. -/
def stationWord (p : Nat) : Nat → List HostFld
  | 0x1014 => w1cFields .attached [Reg.Port.RIGHTS_SEEN p, Reg.Port.ACCESS_ERR_SEEN p, Reg.Port.DROP_SEEN p, Reg.Port.TOKEN_CHANGED p,
      Reg.Port.LINK_ERR_SEEN p]
  | 0x2000 => rwFields orderOnly [Reg.Ord.P_ORDER_SET p]
  | 0x2004 => rwFields orderOnly [Reg.Ord.Q_ORDER_SET p]
  | 0x2008 => rwFields orderOnly [Reg.Ord.UDC_ORDER_SET p]
  | 0x200C => rwFields orderOnly [Reg.Ord.VAC_ORDER_SET p]
  | 0x2010 => rwFields orderOnly [Reg.Ord.P_BATT_ORDER_SET p]
  | 0x2014 => rwFields orderOnly [Reg.Ord.MODE_P_SET p, Reg.Ord.MODE_Q_SET p]
  | 0x2038 => w1cFields (.oneOf [.order, .protect]) [Reg.Ord.CLAMPED_SEEN, Reg.Ord.HOST_LOST_SEEN, Reg.Ord.DEBLOCK_REFUSED_SEEN]
  | 0x2040 => rwFields (.oneOf [.order, .protect]) [Reg.Ord.BLOCK_REQ p, Reg.Ord.DEBLOCK_REQ p]
  | 0x3114 => w1cFields protectMaint [Reg.Recov.SPLIT_SEEN, Reg.Recov.TRAVERSE_SEEN, Reg.Recov.FAILOVER_SEEN,
      Reg.Recov.ROPE_DOWN_SEEN, Reg.Recov.GAP_EXCEEDED, Reg.Recov.ADMIT_ABANDONED_SEEN, Reg.Recov.CELL_LOST_SEEN]
  | 0x3118 => rwFields maintOnly [Reg.Recov.RIDGE_SEL p]
  | 0x3120 => rwFields maintOnly [Reg.Recov.ROPE_SEL p]
  | 0x3140 => rwFields maintOnly [Reg.Adm.ADM_CELL p]
  | 0x3224 => w1cFields orderMaint [Reg.Pol.POLICY_LATE, Reg.Pol.SHORTFALL, Reg.Pol.FENCE_HELD, Reg.Pol.QUOTA_OUT]
  | 0x3240 => rwFields ledgerOnly [Reg.Lease.LEASE_CELL p]
  | 0x3244 => rwFields ledgerOnly [Reg.Lease.LEASE_UID p]
  | 0x3248 => rwFields ledgerOnly [Reg.Lease.LEASE_COST p]
  | 0x324C => rwFields ledgerOnly [Reg.Lease.LEASE_QUOTA p]
  | 0x3250 => rwFields ledgerOnly [Reg.Lease.LEASE_MODE p]
  | 0x3280 => rwFields observeOnly [Reg.PolProbe.POLICY_PROBE_CELL p]
  | 0x3320 => rwFields observeOnly [Reg.Sweep.IMP_PROBE_CELL p, Reg.Sweep.IMP_PROBE_POINT p]
  | 0x3410 => w1cFields orderMaint [Reg.Loop.MISSED_SEEN, Reg.Loop.FB_LOST_SEEN, Reg.Loop.FB_FROZEN_SEEN, Reg.Loop.XCHK_SEEN,
      Reg.Loop.DROP_RANGE, Reg.Loop.PRESET_CLAMPED]
  | 0x3420 => rwFields orderOnly [Reg.LoopCtl.SLOT_SEL p, Reg.LoopCtl.MODE_REQ p]
  | 0x3424 => rwFields orderOnly [Reg.LoopCtl.MAN_VALUE p]
  | 0x3500 => rwFields maintOnly [Reg.Xchg.XCHG_CELL p]
  | 0x3510 => rwFields observeOnly [Reg.Xchg.PACK_PROBE_CELL p]
  | 0x3700 => rwFields maintOnly [Reg.CanRst.CELL_CAN_SEL p]
  | 0x4018 => w1cFields orderMaint [Reg.Time.REF_ACQUIRED, Reg.Time.REF_LOST, Reg.Time.STEP_DONE, Reg.Time.REF_REJECTED,
      Reg.Time.PPS_MISSING, Reg.Time.FRAME_RESYNC]
  | 0x4030 => rwFields orderOnly [Reg.Time.SYNC_FRAME, Reg.Time.SYNC_MASK]
  | 0x4048 => rwFields orderMaint [Reg.Time.TIME_SET_SEC_HI]
  | 0x5014 => w1cFields protectOnly [Reg.Flt.NEW_FAULT_SEEN, Reg.Flt.ESCALATED_SEEN, Reg.Flt.TABLE_FULL_SEEN, Reg.Flt.INJECTED_SEEN,
      Reg.Flt.TRIP_SEEN]
  | 0x5040 => rwFields observeOnly [Reg.Flt.LOG_SEL p]
  | 0x5060 => rwFields protectMaint [Reg.Flt.ACK_SOURCE p, Reg.Flt.ACK_KIND p, Reg.Flt.ACK_LEVEL p, Reg.Flt.ACK_INJ p]
  | 0x5070 => rwFields protectMaint [Reg.Flt.INJ_MSG_LO p]
  | 0x5074 => rwFields protectMaint [Reg.Flt.INJ_MSG_HI p]
  | 0x5080 => rwFields maintOnly [Reg.Flt.UNFENCE_INDEX p, Reg.Flt.UNFENCE_LEVEL p]
  | 0x6010 => w1cFields protectOnly [Reg.Rec.TRIGGERED_SEEN, Reg.Rec.IGNORED_SEEN, Reg.Rec.RATE_REDUCED_SEEN, Reg.Rec.FULL_SEEN]
  | 0x6020 => rwFields protectOnly [Reg.Rec.REL_BUF p]
  | 0x6040 => rwFields observeOnly [Reg.Rec.BD_SEL p]
  | 0x6080 => rwFields protectMaint [Reg.Rec.RD_BUF p]
  | 0x6084 => rwFields protectMaint [Reg.Rec.RD_IDX p]
  | 0x7014 => w1cFields protectOnly [Reg.Saf.DEMAND_SEEN, Reg.Saf.INPUT_FAULT_SEEN, Reg.Saf.OUTPUT_FAULT_SEEN, Reg.Saf.DEGRADED_SEEN,
      Reg.Saf.DEGRADED_EXPIRED, Reg.Saf.TWO_HAND_ASYNC_SEEN]
  | 0x8000 => rwFields ledgerOnly [Reg.Ledg.LEDGER_CELL p]
  | 0x8004 => rwFields ledgerOnly [Reg.Ledg.LEDGER_SEQ p]
  | 0x9018 => w1cFields protectMaint [Reg.Trace.REFUSED_SEEN, Reg.Trace.DEADLINE_SEEN, Reg.Trace.OVERRUN_SEEN]
  | 0x9024 => rwFields protectMaint [Reg.Trace.TRACE_FLOW_MASK_LO]
  | 0x9028 => rwFields protectMaint [Reg.Trace.TRACE_FLOW_MASK_HI]
  | 0x9040 => rwFields observeOnly [Reg.Trace.TRACE_SEL p]
  | 0x9060 => rwFields orderOnly [Reg.Trace.TASK_ORDER_SEL p]
  | 0x9064 => rwFields orderOnly [Reg.Trace.TASK_ORDER_ARG p]
  | 0x9080 => rwFields observeOnly [Reg.TaskStat.TASK_SEL p]
  | 0xA080 => rwFields .flash [Reg.Card.FLASH_ADDR p, Reg.Card.FLASH_COPY p]
  | 0xA0A4 => rwFields maintOnly [Reg.Card.FIELD_CODE p]
  | _ => []

/-- The writable fields of the word at a window offset, as port `p` reaches them: none where the offset is reserved or holds no
field that a write changes (R413). -/
def hostWord (p off : Nat) : List HostFld :=
  if off % 4 ≠ 0 then []
  else if 0x1100 ≤ off ∧ off < 0x1240 then streamWord p ((off - 0x1100) / 0x40) (off % 0x40)
  else if 0x3600 ≤ off ∧ off < 0x3700 then stationCanWord ((off - 0x3600) / 0x80) (off % 0x80)
  else if 0x4100 ≤ off ∧ off < 0x4300 then angleWord ((off - 0x4100) / 0x20) (off % 0x20)
  else if 0xA100 ≤ off ∧ off < 0xA200 then rwFields .flash [Reg.Card.FLASH_PAGE p ((off - 0xA100) / 4)]
  else if 0x10000 ≤ off ∧ off < 0x20000 then regionWord p ((off - 0x10000) / 0x2000) (off % 0x2000)
  else if 0x80000 ≤ off ∧ off < 0x80060 then
    let v := (off - 0x80000) / 16
    let w := off % 16 / 4
    if w = 3 then rwFields .linked [Reg.Msix.MASK p v] else rwFields .linked [Reg.Msix.WORD p v w]
  else stationWord p off

/-- May port `p` write the field now (R377, R404)? (notes/assumptions: 21 DEDUCED, 22 DEDUCED) -/
def Chip.mayWrite (c : Chip) (p : Nat) (n : Need) : Bool :=
  match n with
  | .linked => decide (c.rd (Reg.Port.PORT_STATE p) ≠ 0)
  | .attached => c.attached p
  | .oneOf l => l.any (fun r => c.has p r)
  | .flash => c.has p .maint || (c.inState 8 && decide (c.rd (Reg.Port.PORT_STATE p) = 1))

/-- One field takes its bits of the word: the place of the least one is in the field's key. (notes/assumptions: 22 DEDUCED) -/
def Chip.applyField (c : Chip) (h : HostFld) (data : Nat) : Chip :=
  let v := data / 2 ^ (h.fld.key % 32) % 2 ^ h.fld.width
  if h.w1c then c.wr h.fld (w1c (c.rd h.fld) v h.fld.width) else c.wr h.fld v

/-- What a probe selector, a lane's pattern word, a stream's enable bit or a vector's mask bit changes beside itself.
(notes/assumptions: 23 DEDUCED) -/
def Chip.afterWrite (c : Chip) (p off data : Nat) : Chip :=
  if 0x1100 ≤ off ∧ off < 0x1240 ∧ off % 0x40 = 8 then if data / 32 % 2 = 0 then c.endStream p ((off - 0x1100) / 0x40) else c
  else if off = 0x3140 then c.showAdm p
  else if off = 0x3280 then c.showPolProbe p
  else if off = 0x3320 then c.showImp p
  else if off = 0x3510 then c.showPack p
  else if off = 0x6040 then c.showBuf p
  else if 0x10000 ≤ off ∧ off < 0x20000 then
    let r := (off - 0x10000) / 0x2000
    let o := off % 0x2000
    if o = 0x80 then c.showProbe r p
    else if 0x400 ≤ o ∧ o < 0xC00 ∧ o % 0x20 = 0x14 then
      let g := 32 * r + (o - 0x400) / 0x40
      let e := o / 0x20 % 2
      c.wrB (Reg.RLane.TEST_ACTIVE g e) (c.on (Reg.RLane.GEN_EN g e) || c.on (Reg.RLane.CHK_EN g e))
    else c
  else if 0x80000 ≤ off ∧ off < 0x80060 ∧ off % 16 = 12 then
    let v := (off - 0x80000) / 16
    if c.on (Reg.Msix.MASK p v) = false ∧ c.on (Reg.Msix.PENDING p v) = true then (c.clr (Reg.Msix.PENDING p v)).irq p v else c
  else c

/-- REGISTER_WRITE (R375, R377, R413 to R416): every field for which the port holds the right takes its bits, every other one
stays; a refused field counts once for the whole write. A port that is DOWN reaches nothing, and a halted WC8400 takes only what
R404 opens. (notes/assumptions: 22 DEDUCED) -/
def execRegisterWrite (p : PortIx) (addr : Nat) (data : Word) (s : State) : Host.Outcome State Fault Refusal :=
  s.run fun c =>
    let l := hostWord p addr
    let ok := l.filter (fun h => c.mayWrite p h.need)
    if c.rd (Reg.Port.PORT_STATE p) = 0 ∨ l = [] then c
    else
      let c1 := ok.foldl (fun c h => c.applyField h data.toNat) c
      let c2 := if ok = [] then c1 else c1.afterWrite p addr data.toNat
      if ok.length < l.length ∧ c.inState 8 = false then c2.refuse p else c2

end Sys2Proof.Machine
end

