-- ==== Sys2Proof/Machine/Dispatch.lean ====
section
/-! DEFINITION. One arm per command: the direct call of its meaning, or a rejection by name. -/

namespace Sys2Proof.Machine

/-- What command `i` does to everything but the queue of waiting commands. -/
def exec (i : Instr) (s : State) : Host.Outcome State Fault Refusal :=
  match i with
  | .ptpSync dt domain gm origin corr freq => Sys2Proof.Machine.execPtpSync dt domain gm origin corr freq s
  | .ptpAnnounce msg => Sys2Proof.Machine.execPtpAnnounce msg s
  | .ptpPdelay t1 t2 t3 t4 corr => Sys2Proof.Machine.execPtpPdelay t1 t2 t3 t4 corr s
  | .ptpMasterLost => Sys2Proof.Machine.execPtpMasterLost s
  | .ppsInEdge dt freq => Sys2Proof.Machine.execPpsInEdge dt freq s
  | .ppsMissing => Sys2Proof.Machine.execPpsMissing s
  | .lockGained fn => Sys2Proof.Machine.execLockGained fn s
  | .lockLost fn => Sys2Proof.Machine.execLockLost fn s
  | .referenceLost fn => Sys2Proof.Machine.execReferenceLost fn s
  | .referenceRejected => Sys2Proof.Machine.execReferenceRejected s
  | .holdoverLimitExpiry => Sys2Proof.Machine.execHoldoverLimitExpiry s
  | .timeSetSecWrite p secLo => Sys2Proof.Machine.execTimeSetSecWrite p secLo s
  | .syncGo p => Sys2Proof.Machine.execSyncGo p s
  | .profileStart n => Sys2Proof.Machine.execProfileStart n s
  | .profileSegmentEnd n => Sys2Proof.Machine.execProfileSegmentEnd n s
  | .datedActionDue dt part tag date => Sys2Proof.Machine.execDatedActionDue dt part tag date s
  | .timeAlignmentLost a => Sys2Proof.Machine.execTimeAlignmentLost a s
  | .frameStart dt m0 m1 early => Sys2Proof.Machine.execFrameStart dt m0 m1 early s
  | .cellFrameStart a dt vdd33 dieTemp => Sys2Proof.Machine.execCellFrameStart a dt vdd33 dieTemp s
  | .cmdRun a dt => Sys2Proof.Machine.execCmdRun a dt s
  | .cmdBypass a dt => Sys2Proof.Machine.execCmdBypass a dt s
  | .cmdBlock a dt => Sys2Proof.Machine.execCmdBlock a dt s
  | .controlFrameRx a dt b cairn slot entries hops => Sys2Proof.Machine.execControlFrameRx a dt b cairn slot entries hops s
  | .faultAck a t => Sys2Proof.Machine.execFaultAck a t s
  | .bulkAck a seq => Sys2Proof.Machine.execBulkAck a seq s
  | .mgmtNop a => Sys2Proof.Machine.execMgmtNop a s
  | .mgmtWrite a epoch reg data => Sys2Proof.Machine.execMgmtWrite a epoch reg data s
  | .mgmtRead a epoch reg => Sys2Proof.Machine.execMgmtRead a epoch reg s
  | .mgmtBcastWrite a reg data => Sys2Proof.Machine.execMgmtBcastWrite a reg data s
  | .mgmtProbe a epoch tag b => Sys2Proof.Machine.execMgmtProbe a epoch tag b s
  | .echoRx g e bytes rt => Sys2Proof.Machine.execEchoRx g e bytes rt s
  | .delayAveragePeriod => Sys2Proof.Machine.execDelayAveragePeriod s
  | .bulkFrameRx a body => Sys2Proof.Machine.execBulkFrameRx a body s
  | .bulkCorrResultRx dt blocks => Sys2Proof.Machine.execBulkCorrResultRx dt blocks s
  | .bulkLedgerRowRx dt blocks => Sys2Proof.Machine.execBulkLedgerRowRx dt blocks s
  | .bulkBmsMirrorRx dt blocks => Sys2Proof.Machine.execBulkBmsMirrorRx dt blocks s
  | .bulkCellCaptureRx dt blocks => Sys2Proof.Machine.execBulkCellCaptureRx dt blocks s
  | .ridgeFrameRx dt g e cairn reports entries hops turned => Sys2Proof.Machine.execRidgeFrameRx dt g e cairn reports entries hops turned s
  | .reportCutoff dt => Sys2Proof.Machine.execReportCutoff dt s
  | .rankComplete dt r cycles => Sys2Proof.Machine.execRankComplete dt r cycles s
  | .rankLate dt r => Sys2Proof.Machine.execRankLate dt r s
  | .edgeComputeDone dt r block => Sys2Proof.Machine.execEdgeComputeDone dt r block s
  | .belayPassDone dt r => Sys2Proof.Machine.execBelayPassDone dt r s
  | .commandHandover dt => Sys2Proof.Machine.execCommandHandover dt s
  | .modeDecide dt => Sys2Proof.Machine.execModeDecide dt s
  | .ropeHeal dt g => Sys2Proof.Machine.execRopeHeal dt g s
  | .ropeUnstable dt g => Sys2Proof.Machine.execRopeUnstable dt g s
  | .belayHorizon a dt => Sys2Proof.Machine.execBelayHorizon a dt s
  | .blockInvalidRx l => Sys2Proof.Machine.execBlockInvalidRx l s
  | .errorBlockRx a b => Sys2Proof.Machine.execErrorBlockRx a b s
  | .blockLockGained l => Sys2Proof.Machine.execBlockLockGained l s
  | .blockLockLost l => Sys2Proof.Machine.execBlockLockLost l s
  | .laneUp l rxEq resAB resBA turn => Sys2Proof.Machine.execLaneUp l rxEq resAB resBA turn s
  | .laneDown l => Sys2Proof.Machine.execLaneDown l s
  | .breakRepeat a b => Sys2Proof.Machine.execBreakRepeat a b s
  | .breakRx l x => Sys2Proof.Machine.execBreakRx l x s
  | .remoteDownClear a b => Sys2Proof.Machine.execRemoteDownClear a b s
  | .errWindowEnd l => Sys2Proof.Machine.execErrWindowEnd l s
  | .txEqWrite p l v => Sys2Proof.Machine.execTxEqWrite p l v s
  | .laneTestStart p r => Sys2Proof.Machine.execLaneTestStart p r s
  | .laneTestAckTimeout r => Sys2Proof.Machine.execLaneTestAckTimeout r s
  | .testStartFrameReached r => Sys2Proof.Machine.execTestStartFrameReached r s
  | .laneTestEnd r down up => Sys2Proof.Machine.execLaneTestEnd r down up s
  | .laneTestAbort p r => Sys2Proof.Machine.execLaneTestAbort p r s
  | .checkerSyncGained l => Sys2Proof.Machine.execCheckerSyncGained l s
  | .checkerSyncLost l => Sys2Proof.Machine.execCheckerSyncLost l s
  | .injSingle p l => Sys2Proof.Machine.execInjSingle p l s
  | .injBurst p l => Sys2Proof.Machine.execInjBurst p l s
  | .loopbackSet p g e on => Sys2Proof.Machine.execLoopbackSet p g e on s
  | .moduleIdRead g e id => Sys2Proof.Machine.execModuleIdRead g e id s
  | .moduleDiagRead g e d => Sys2Proof.Machine.execModuleDiagRead g e d s
  | .moduleBusHeld d bus released => Sys2Proof.Machine.execModuleBusHeld d bus released s
  | .policyTick dt => Sys2Proof.Machine.execPolicyTick dt s
  | .policyTickComplete dt micros => Sys2Proof.Machine.execPolicyTickComplete dt micros s
  | .policyTickTimeout dt => Sys2Proof.Machine.execPolicyTickTimeout dt s
  | .socDisagreeTimeout a => Sys2Proof.Machine.execSocDisagreeTimeout a s
  | .healthMaxAgeExpiry a => Sys2Proof.Machine.execHealthMaxAgeExpiry a s
  | .policyUnfenceHoldEnd a cause => Sys2Proof.Machine.execPolicyUnfenceHoldEnd a cause s
  | .leaseGo p => Sys2Proof.Machine.execLeaseGo p s
  | .loopStart dt late => Sys2Proof.Machine.execLoopStart dt late s
  | .loopDeadline dt took => Sys2Proof.Machine.execLoopDeadline dt took s
  | .loopMissLimit j => Sys2Proof.Machine.execLoopMissLimit j s
  | .feedbackLost j => Sys2Proof.Machine.execFeedbackLost j s
  | .feedbackRecover j => Sys2Proof.Machine.execFeedbackRecover j s
  | .sensorFrozen j k alt => Sys2Proof.Machine.execSensorFrozen j k alt s
  | .sensorUnfrozen j k alt => Sys2Proof.Machine.execSensorUnfrozen j k alt s
  | .sensorDisagreement j k => Sys2Proof.Machine.execSensorDisagreement j k s
  | .xchkClear j k => Sys2Proof.Machine.execXchkClear j k s
  | .slotGo p => Sys2Proof.Machine.execSlotGo p s
  | .dcdcEn a en ref => Sys2Proof.Machine.execDcdcEn a en ref s
  | .bcFeedbackLost a => Sys2Proof.Machine.execBcFeedbackLost a s
  | .activateInstr d arg date => Sys2Proof.Machine.execActivateInstr d arg date s
  | .cancelInstr d => Sys2Proof.Machine.execCancelInstr d s
  | .datedActivationDue dt d => Sys2Proof.Machine.execDatedActivationDue dt d s
  | .taskReady dt d => Sys2Proof.Machine.execTaskReady dt d s
  | .taskDispatch dt e => Sys2Proof.Machine.execTaskDispatch dt e s
  | .taskComplete dt d => Sys2Proof.Machine.execTaskComplete dt d s
  | .taskOverrun dt d => Sys2Proof.Machine.execTaskOverrun dt d s
  | .taskDeadline dt d => Sys2Proof.Machine.execTaskDeadline dt d s
  | .taskTimeout dt d => Sys2Proof.Machine.execTaskTimeout dt d s
  | .predCancelled dt d => Sys2Proof.Machine.execPredCancelled dt d s
  | .actGo p => Sys2Proof.Machine.execActGo p s
  | .cancelGo p => Sys2Proof.Machine.execCancelGo p s
  | .traceFreeze => Sys2Proof.Machine.execTraceFreeze s
  | .unfreeze p => Sys2Proof.Machine.execUnfreeze p s
  | .traceW0Read p => Sys2Proof.Machine.execTraceW0Read p s
  | .taskRunsRead p => Sys2Proof.Machine.execTaskRunsRead p s
  | .cellPowerOnReset a testMode fused fuseBad headOkA headOkB => Sys2Proof.Machine.execCellPowerOnReset a testMode fused fuseBad headOkA headOkB s
  | .cellBrownOut a => Sys2Proof.Machine.execCellBrownOut a s
  | .epochWrite a entryEpoch data => Sys2Proof.Machine.execEpochWrite a entryEpoch data s
  | .enrol a => Sys2Proof.Machine.execEnrol a s
  | .fenceReq a => Sys2Proof.Machine.execFenceReq a s
  | .unfenceReq a => Sys2Proof.Machine.execUnfenceReq a s
  | .toBivouac a => Sys2Proof.Machine.execToBivouac a s
  | .admitTimeout a dt => Sys2Proof.Machine.execAdmitTimeout a dt s
  | .delayWrite a e v => Sys2Proof.Machine.execDelayWrite a e v s
  | .desaturation a dt g low => Sys2Proof.Machine.execDesaturation a dt g low s
  | .overVoltageBypass a dt level => Sys2Proof.Machine.execOverVoltageBypass a dt level s
  | .bypFireEnd a => Sys2Proof.Machine.execBypFireEnd a s
  | .bypassNotConfirmed a dt => Sys2Proof.Machine.execBypassNotConfirmed a dt s
  | .gateChangeDue a => Sys2Proof.Machine.execGateChangeDue a s
  | .deferredChangeExec a => Sys2Proof.Machine.execDeferredChangeExec a s
  | .deadTimeTurnOn a => Sys2Proof.Machine.execDeadTimeTurnOn a s
  | .conversionDue a dt n => Sys2Proof.Machine.execConversionDue a dt n s
  | .conversionStart a dt => Sys2Proof.Machine.execConversionStart a dt s
  | .conversionDropped a dt n => Sys2Proof.Machine.execConversionDropped a dt n s
  | .conversionComplete a dt raw => Sys2Proof.Machine.execConversionComplete a dt raw s
  | .convPlan a v => Sys2Proof.Machine.execConvPlan a v s
  | .planDataAccess a write => Sys2Proof.Machine.execPlanDataAccess a write s
  | .bufW0Read a => Sys2Proof.Machine.execBufW0Read a s
  | .cellCalGo a => Sys2Proof.Machine.execCellCalGo a s
  | .calPointDone a => Sys2Proof.Machine.execCalPointDone a s
  | .calPointTimeout a dt => Sys2Proof.Machine.execCalPointTimeout a dt s
  | .calGo p r => Sys2Proof.Machine.execCalGo p r s
  | .calStore p r => Sys2Proof.Machine.execCalStore p r s
  | .corrEn a mask => Sys2Proof.Machine.execCorrEn a mask s
  | .corrRestart a mask => Sys2Proof.Machine.execCorrRestart a mask s
  | .corrWindowStart a dt k => Sys2Proof.Machine.execCorrWindowStart a dt k s
  | .corrWindowEnd a dt k => Sys2Proof.Machine.execCorrWindowEnd a dt k s
  | .sweepGo p => Sys2Proof.Machine.execSweepGo p s
  | .sweepStop p => Sys2Proof.Machine.execSweepStop p s
  | .unpairedTimeout dt => Sys2Proof.Machine.execUnpairedTimeout dt s
  | .packPresentDebounced a dt => Sys2Proof.Machine.execPackPresentDebounced a dt s
  | .packRemoved a dt bounce => Sys2Proof.Machine.execPackRemoved a dt bounce s
  | .idRecordReadDone a bytes => Sys2Proof.Machine.execIdRecordReadDone a bytes s
  | .idNackRetry a => Sys2Proof.Machine.execIdNackRetry a s
  | .idBusHeld a released => Sys2Proof.Machine.execIdBusHeld a released s
  | .idBusRetry a released => Sys2Proof.Machine.execIdBusRetry a released s
  | .readIds a => Sys2Proof.Machine.execReadIds a s
  | .packAccept a => Sys2Proof.Machine.execPackAccept a s
  | .packRefuse a => Sys2Proof.Machine.execPackRefuse a s
  | .portClose a => Sys2Proof.Machine.execPortClose a s
  | .portCloseTimeout a dt => Sys2Proof.Machine.execPortCloseTimeout a dt s
  | .portOpen a => Sys2Proof.Machine.execPortOpen a s
  | .packDetach a => Sys2Proof.Machine.execPackDetach a s
  | .summaryWrite a => Sys2Proof.Machine.execSummaryWrite a s
  | .summaryWriteDone a ok => Sys2Proof.Machine.execSummaryWriteDone a ok s
  | .calWrite a => Sys2Proof.Machine.execCalWrite a s
  | .packFence a => Sys2Proof.Machine.execPackFence a s
  | .packUnfence a => Sys2Proof.Machine.execPackUnfence a s
  | .recDataAccess a write => Sys2Proof.Machine.execRecDataAccess a write s
  | .profDataAccess a write => Sys2Proof.Machine.execProfDataAccess a write s
  | .bmsWaitTimeout a dt => Sys2Proof.Machine.execBmsWaitTimeout a dt s
  | .profileDecode a dt => Sys2Proof.Machine.execProfileDecode a dt s
  | .profileTargetStale a dt code => Sys2Proof.Machine.execProfileTargetStale a dt code s
  | .bmsFenceDebounce a dt => Sys2Proof.Machine.execBmsFenceDebounce a dt s
  | .profileTxDue a dt k => Sys2Proof.Machine.execProfileTxDue a dt k s
  | .bmsMirrorDue a dt => Sys2Proof.Machine.execBmsMirrorDue a dt s
  | .xchgGo p => Sys2Proof.Machine.execXchgGo p s
  | .xchgRampDone a => Sys2Proof.Machine.execXchgRampDone a s
  | .xchgAbort p => Sys2Proof.Machine.execXchgAbort p s
  | .xchgTimeout a dt => Sys2Proof.Machine.execXchgTimeout a dt s
  | .ledgerCommit a => Sys2Proof.Machine.execLedgerCommit a s
  | .ledgerPeriodic a dt => Sys2Proof.Machine.execLedgerPeriodic a dt s
  | .vdd33EarlyWarning a dt => Sys2Proof.Machine.execVdd33EarlyWarning a dt s
  | .vdd33WarningClear a => Sys2Proof.Machine.execVdd33WarningClear a s
  | .ledgerCommitDone a phase2 ok => Sys2Proof.Machine.execLedgerCommitDone a phase2 ok s
  | .rowFetch a storeOk => Sys2Proof.Machine.execRowFetch a storeOk s
  | .ledgerGo p => Sys2Proof.Machine.execLedgerGo p s
  | .canFrameRx dt n f => Sys2Proof.Machine.execCanFrameRx dt n f s
  | .canTxDone dt n b how tdc => Sys2Proof.Machine.execCanTxDone dt n b how tdc s
  | .canBusError dt n kind dataPhase role => Sys2Proof.Machine.execCanBusError dt n kind dataPhase role s
  | .rxAck n => Sys2Proof.Machine.execRxAck n s
  | .tx2Go p n => Sys2Proof.Machine.execTx2Go p n s
  | .tx2Abort p n => Sys2Proof.Machine.execTx2Abort p n s
  | .canCfgWrite a data => Sys2Proof.Machine.execCanCfgWrite a data s
  | .canBusIdleSeen n => Sys2Proof.Machine.execCanBusIdleSeen n s
  | .canRestart a => Sys2Proof.Machine.execCanRestart a s
  | .channelRestartGo p n => Sys2Proof.Machine.execChannelRestartGo p n s
  | .cellCanRestart p => Sys2Proof.Machine.execCellCanRestart p s
  | .canAutoRestart dt n => Sys2Proof.Machine.execCanAutoRestart dt n s
  | .canRecoveryDone n => Sys2Proof.Machine.execCanRecoveryDone n s
  | .busAlone dt n => Sys2Proof.Machine.execBusAlone dt n s
  | .busAloneAttempt n => Sys2Proof.Machine.execBusAloneAttempt n s
  | .canRxStall dt n => Sys2Proof.Machine.execCanRxStall dt n s
  | .identClash n b => Sys2Proof.Machine.execIdentClash n b s
  | .admissionStart a => Sys2Proof.Machine.execAdmissionStart a s
  | .admitPollRead a => Sys2Proof.Machine.execAdmitPollRead a s
  | .epochConfirmTimeout a => Sys2Proof.Machine.execEpochConfirmTimeout a s
  | .admitBackoffEnd a dt => Sys2Proof.Machine.execAdmitBackoffEnd a dt s
  | .abandonedUidCheck a => Sys2Proof.Machine.execAbandonedUidCheck a s
  | .readmitGo p => Sys2Proof.Machine.execReadmitGo p s
  | .cellLost a => Sys2Proof.Machine.execCellLost a s
  | .ropeDownGo p => Sys2Proof.Machine.execRopeDownGo p s
  | .ropeUpGo p => Sys2Proof.Machine.execRopeUpGo p s
  | .ridgeFailure d detail => Sys2Proof.Machine.execRidgeFailure d detail s
  | .ridgeRestart p => Sys2Proof.Machine.execRidgeRestart p s
  | .ridgeSelfTestDone d ok => Sys2Proof.Machine.execRidgeSelfTestDone d ok s
  | .dieToDieLinkLost k => Sys2Proof.Machine.execDieToDieLinkLost k s
  | .dieToDieLinkUp k => Sys2Proof.Machine.execDieToDieLinkUp k s
  | .lockstepMismatch k => Sys2Proof.Machine.execLockstepMismatch k s
  | .planeFailover => Sys2Proof.Machine.execPlaneFailover s
  | .planeResyncDone => Sys2Proof.Machine.execPlaneResyncDone s
  | .faultMessageRx msg frame late => Sys2Proof.Machine.execFaultMessageRx msg frame late s
  | .ackGo p => Sys2Proof.Machine.execAckGo p s
  | .ackAll p => Sys2Proof.Machine.execAckAll p s
  | .firstReset p => Sys2Proof.Machine.execFirstReset p s
  | .tripReset p => Sys2Proof.Machine.execTripReset p s
  | .injGo p => Sys2Proof.Machine.execInjGo p s
  | .cellInjGo a => Sys2Proof.Machine.execCellInjGo a s
  | .unfenceGo p => Sys2Proof.Machine.execUnfenceGo p s
  | .faultHoldWrite p v => Sys2Proof.Machine.execFaultHoldWrite p v s
  | .faultNPulseEnd dt => Sys2Proof.Machine.execFaultNPulseEnd dt s
  | .firstMsgLoRead p => Sys2Proof.Machine.execFirstMsgLoRead p s
  | .logW0Read p => Sys2Proof.Machine.execLogW0Read p s
  | .headLoRead a => Sys2Proof.Machine.execHeadLoRead a s
  | .rateWindowEnd dt => Sys2Proof.Machine.execRateWindowEnd dt s
  | .levelTrigger t => Sys2Proof.Machine.execLevelTrigger t s
  | .trigGo p => Sys2Proof.Machine.execTrigGo p s
  | .recorderTriggerInstr d => Sys2Proof.Machine.execRecorderTriggerInstr d s
  | .preTimeExpiry dt => Sys2Proof.Machine.execPreTimeExpiry dt s
  | .postTimeExpiry dt => Sys2Proof.Machine.execPostTimeExpiry dt s
  | .closingEnd dt b => Sys2Proof.Machine.execClosingEnd dt b s
  | .relGo p => Sys2Proof.Machine.execRelGo p s
  | .rdW0Read p => Sys2Proof.Machine.execRdW0Read p s
  | .bdStateRead p => Sys2Proof.Machine.execBdStateRead p s
  | .safetyEvaluation dt chs fb0 fb1 => Sys2Proof.Machine.execSafetyEvaluation dt chs fb0 fb1 s
  | .testPulse dt tpb seen => Sys2Proof.Machine.execTestPulse dt tpb seen s
  | .discrepancyTimeout dt x => Sys2Proof.Machine.execDiscrepancyTimeout dt x s
  | .inputFaultClear dt x => Sys2Proof.Machine.execInputFaultClear dt x s
  | .offDelayExpiry dt y => Sys2Proof.Machine.execOffDelayExpiry dt y s
  | .safetyReset p => Sys2Proof.Machine.execSafetyReset p s
  | .outputOffPulseTest dt y ch ok => Sys2Proof.Machine.execOutputOffPulseTest dt y ch ok s
  | .fbTimeExpiry dt y => Sys2Proof.Machine.execFbTimeExpiry dt y s
  | .degradedExpiry dt => Sys2Proof.Machine.execDegradedExpiry dt s
  | .hostLinkUp p width speed => Sys2Proof.Machine.execHostLinkUp p width speed s
  | .hostLinkDown p => Sys2Proof.Machine.execHostLinkDown p s
  | .hostResetAssert p => Sys2Proof.Machine.execHostResetAssert p s
  | .functionLevelReset p => Sys2Proof.Machine.execFunctionLevelReset p s
  | .busMasterDisable p => Sys2Proof.Machine.execBusMasterDisable p s
  | .aerUncorrectable p => Sys2Proof.Machine.execAerUncorrectable p s
  | .attach p bme mse mps => Sys2Proof.Machine.execAttach p bme mse mps s
  | .detach p => Sys2Proof.Machine.execDetach p s
  | .orderClaim p => Sys2Proof.Machine.execOrderClaim p s
  | .orderRelease p => Sys2Proof.Machine.execOrderRelease p s
  | .heartbeat p v => Sys2Proof.Machine.execHeartbeat p v s
  | .hostWatchdogExpiry dt p => Sys2Proof.Machine.execHostWatchdogExpiry dt p s
  | .orderGo p => Sys2Proof.Machine.execOrderGo p s
  | .orderHoldExpiry dt => Sys2Proof.Machine.execOrderHoldExpiry dt s
  | .blockGo p => Sys2Proof.Machine.execBlockGo p s
  | .deblockGo p => Sys2Proof.Machine.execDeblockGo p s
  | .tripGo p => Sys2Proof.Machine.execTripGo p s
  | .streamEnable p st => Sys2Proof.Machine.execStreamEnable p st s
  | .rdPtrWrite p st v => Sys2Proof.Machine.execRdPtrWrite p st v s
  | .streamRecordWrite dt p st => Sys2Proof.Machine.execStreamRecordWrite dt p st s
  | .streamRecordDrop p st len => Sys2Proof.Machine.execStreamRecordDrop p st len s
  | .dmaAck p => Sys2Proof.Machine.execDmaAck p s
  | .intDelayExpiry dt p st => Sys2Proof.Machine.execIntDelayExpiry dt p st s
  | .malformedAccess p write => Sys2Proof.Machine.execMalformedAccess p write s
  | .registerWrite p addr data => Sys2Proof.Machine.execRegisterWrite p addr data s
  | .wcResetRelease testMode ok => Sys2Proof.Machine.execWcResetRelease testMode ok s
  | .selfTestDone summit safety planes ridges recorder => Sys2Proof.Machine.execSelfTestDone summit safety planes ridges recorder s
  | .cardReadDone readA readB sigA sigB => Sys2Proof.Machine.execCardReadDone readA readB sigA sigB s
  | .validateDone image card => Sys2Proof.Machine.execValidateDone image card s
  | .configureDone readBack => Sys2Proof.Machine.execConfigureDone readBack s
  | .linksDone ms => Sys2Proof.Machine.execLinksDone ms s
  | .restartGo p => Sys2Proof.Machine.execRestartGo p s
  | .eraseGo p => Sys2Proof.Machine.execEraseGo p s
  | .programGo p => Sys2Proof.Machine.execProgramGo p s
  | .readGo p => Sys2Proof.Machine.execReadGo p s
  | .flashOpDone ok => Sys2Proof.Machine.execFlashOpDone ok s
  | .provisionGo p => Sys2Proof.Machine.execProvisionGo p s
  | .provisionDone dt sigOk image card => Sys2Proof.Machine.execProvisionDone dt sigOk image card s
  | .fieldCloseArm p => Sys2Proof.Machine.execFieldCloseArm p s
  | .fieldCloseGo p dt => Sys2Proof.Machine.execFieldCloseGo p dt s
  | .fieldCloseArmExpiry dt => Sys2Proof.Machine.execFieldCloseArmExpiry dt s
  | .cellFieldCloseGo a readBack => Sys2Proof.Machine.execCellFieldCloseGo a readBack s
  | .fuseIntegrityFailure row => Sys2Proof.Machine.execFuseIntegrityFailure row s
  | .supplyOutOfRange k mv => Sys2Proof.Machine.execSupplyOutOfRange k mv s
  | .supplyBelowReset k => Sys2Proof.Machine.execSupplyBelowReset k s
  | .vs24OutOfWindow k => Sys2Proof.Machine.execVs24OutOfWindow k s
  | .dieTempSample die t => Sys2Proof.Machine.execDieTempSample die t s
  | .timeNsRead dt p => Sys2Proof.Machine.execTimeNsRead dt p s
  | .angleRead dt p n => Sys2Proof.Machine.execAngleRead dt p n s
  | .ptpGmIdLoRead p => Sys2Proof.Machine.execPtpGmIdLoRead p s
  | .dieUidLoRead p => Sys2Proof.Machine.execDieUidLoRead p s
  | .cellTimeNsRead a => Sys2Proof.Machine.execCellTimeNsRead a s
  | .testErrCountRead p lane => Sys2Proof.Machine.execTestErrCountRead p lane s
  | .probeKeyRead p r => Sys2Proof.Machine.execProbeKeyRead p r s
  | .prSocRead p => Sys2Proof.Machine.execPrSocRead p s
  | .bcIntegRead a => Sys2Proof.Machine.execBcIntegRead a s
  | .slotOutRead p j => Sys2Proof.Machine.execSlotOutRead p j s
  | .refV0Read p r => Sys2Proof.Machine.execRefV0Read p r s
  | .corrReRead a k => Sys2Proof.Machine.execCorrReRead a k s
  | .impAbsRead p => Sys2Proof.Machine.execImpAbsRead p s
  | .admStateRead p => Sys2Proof.Machine.execAdmStateRead p s
  | .ppPackStateRead p => Sys2Proof.Machine.execPpPackStateRead p s
  | .chargeWhLoRead a => Sys2Proof.Machine.execChargeWhLoRead a s
  | .ctStateRead p a => Sys2Proof.Machine.execCtStateRead p a s
  | .packConnectorMated a dt => Sys2Proof.Machine.execPackConnectorMated a dt s
  | .calCopyWriteDone a ok => Sys2Proof.Machine.execCalCopyWriteDone a ok s
  | .linkCorrectableError p => Sys2Proof.Machine.execLinkCorrectableError p s
  | .summitCommonLogicFailure => Sys2Proof.Machine.execSummitCommonLogicFailure s
  | .safetyBlockSelfTestFailure => Sys2Proof.Machine.execSafetyBlockSelfTestFailure s
  | .safeOutputReadbackMismatch y => Sys2Proof.Machine.execSafeOutputReadbackMismatch y s
  | .wcResetNAsserted => Sys2Proof.Machine.execWcResetNAsserted s
  | .wcSupplyReturn k => Sys2Proof.Machine.execWcSupplyReturn k s
  | .cellCaptureWindowEnd a dt => Sys2Proof.Machine.execCellCaptureWindowEnd a dt s

end Sys2Proof.Machine
end

