-- ==== Sys2Proof/Machine/Step.lean ====
section
/-! DEFINITION. The step: the command at the front of the queue runs on the state with the rest of the queue. -/

namespace Sys2Proof.Machine

/-- One step. On an empty queue the block idles (notes/assumptions/1.md). (notes/assumptions: 1 DESIGN CHOICE) -/
def step (s : State) : Host.Outcome State Fault Refusal :=
  match s.pending with
  | [] => .next s
  | i :: rest => exec i { s with pending := rest }

/-- The state with a command at the front of its queue. -/
def State.withFront (s : State) (i : Instr) : State := { s with pending := i :: s.pending }

/-- The state with the command that the word spells in front; unchanged where it spells none.
(notes/assumptions: 4 DESIGN CHOICE) -/
def State.withFetchWord (s : State) (nbits w : Nat) : State :=
  match decodeTableWord nbits w with
  | some i => s.withFront i
  | none => s

end Sys2Proof.Machine
end

