-- ==== Sys2Proof/Laws/Store.lean ====
section
/-! SUPPORT. The laws of the two stores: what a read gives after a write, and that a write keeps the canonical form. -/

namespace Sys2Proof.Machine

variable {α : Type}

/-! ### Erasing and inserting -/

theorem findKey_eraseKey_self (k : Nat) (m : List (Nat × α)) : findKey k (eraseKey k m) = none := by
  induction m with
  | nil => rfl
  | cons e m ih =>
    obtain ⟨k', v⟩ := e
    by_cases h : k' = k <;> simp [eraseKey, findKey, h, ih]

theorem findKey_eraseKey_ne {j k : Nat} (h : j ≠ k) (m : List (Nat × α)) : findKey j (eraseKey k m) = findKey j m := by
  induction m with
  | nil => rfl
  | cons e m ih =>
    obtain ⟨k', v⟩ := e
    by_cases hk : k' = k
    · subst hk; simp [eraseKey, findKey, ih, Ne.symm h]
    · simp [eraseKey, findKey, hk, ih]

theorem findKey_insertKey_self (k : Nat) (v : α) (m : List (Nat × α)) : findKey k (insertKey k v m) = some v := by
  induction m with
  | nil => simp [insertKey, findKey]
  | cons e m ih =>
    obtain ⟨k', w⟩ := e
    by_cases h1 : k < k'
    · simp [insertKey, findKey, h1]
    · by_cases h2 : k = k'
      · simp [insertKey, findKey, h2]
      · simp [insertKey, findKey, h1, h2, Ne.symm h2, ih]

theorem findKey_insertKey_ne {j k : Nat} (h : j ≠ k) (v : α) (m : List (Nat × α)) :
    findKey j (insertKey k v m) = findKey j m := by
  induction m with
  | nil => simp [insertKey, findKey, Ne.symm h]
  | cons e m ih =>
    obtain ⟨k', w⟩ := e
    by_cases h1 : k < k'
    · simp [insertKey, findKey, h1, Ne.symm h]
    · by_cases h2 : k = k'
      · subst h2; simp [insertKey, findKey, Ne.symm h]
      · simp [insertKey, findKey, h1, h2, ih]

/-! ### Read after write -/

variable [DecidableEq α]

@[simp] theorem mapGet_mapSet_self (d : α) (m : List (Nat × α)) (k : Nat) (v : α) : mapGet d (mapSet d m k v) k = v := by
  by_cases h : v = d <;> simp [mapGet, mapSet, h, findKey_eraseKey_self, findKey_insertKey_self]

theorem mapGet_mapSet_ne (d : α) (m : List (Nat × α)) {j k : Nat} (h : j ≠ k) (v : α) :
    mapGet d (mapSet d m k v) j = mapGet d m j := by
  by_cases hv : v = d <;> simp [mapGet, mapSet, hv, findKey_eraseKey_ne h, findKey_insertKey_ne h]

theorem mapGet_mapSet (d : α) (m : List (Nat × α)) (j k : Nat) (v : α) :
    mapGet d (mapSet d m k v) j = if j = k then v else mapGet d m j := by
  by_cases h : j = k
  · subst h; simp
  · simp [h, mapGet_mapSet_ne d m h v]

omit [DecidableEq α] in
@[simp] theorem mapGet_nil (d : α) (k : Nat) : mapGet d [] k = d := rfl

@[simp] theorem regGet_regSet_self (m : Regs) (f : Fld) (v : Nat) : regGet (regSet m f v) f = v % 2 ^ f.width :=
  mapGet_mapSet_self ..

theorem regGet_regSet_ne (m : Regs) {f g : Fld} (h : g.key ≠ f.key) (v : Nat) : regGet (regSet m f v) g = regGet m g := by
  by_cases hv : v % 2 ^ f.width = f.reset <;>
    simp [regGet, regSet, mapGet, mapSet, hv, findKey_eraseKey_ne h, findKey_insertKey_ne h]

/-! ### The canonical form -/

/-- Every key of a list is above `k`. -/
def above (k : Nat) (m : List (Nat × α)) : Bool := m.all (fun e => decide (k < e.1))

omit [DecidableEq α] in
theorem keysRise_cons (k : Nat) (v : α) (m : List (Nat × α)) : keysRise ((k, v) :: m) = (above k m && keysRise m) := by
  induction m generalizing k v with
  | nil => rfl
  | cons e m ih =>
    obtain ⟨k', w⟩ := e
    have e1 : keysRise ((k, v) :: (k', w) :: m) = (decide (k < k') && keysRise ((k', w) :: m)) := rfl
    rw [e1, ih]
    by_cases h : k < k'
    · by_cases h2 : above k' m = true
      · have : above k m = true := by
          simp only [above, List.all_eq_true, decide_eq_true_eq] at h2 ⊢
          exact fun x hx => Nat.lt_trans h (h2 x hx)
        have h3 : above k ((k', w) :: m) = true := by
          simp only [above, List.all_cons, Bool.and_eq_true, decide_eq_true_eq] at this ⊢
          exact ⟨h, this⟩
        simp [h, h2, h3]
      · simp [h, h2]
    · simp [h, above]

omit [DecidableEq α] in
theorem above_eraseKey {k : Nat} {m : List (Nat × α)} (j : Nat) (h : above k m = true) : above k (eraseKey j m) = true := by
  induction m with
  | nil => rfl
  | cons e m ih =>
    obtain ⟨k', w⟩ := e
    simp only [above, List.all_cons, Bool.and_eq_true, decide_eq_true_eq] at h ih ⊢
    by_cases hk : k' = j
    · simp [eraseKey, hk]; simpa using ih h.2
    · simp only [eraseKey, hk, if_false, List.all_cons, Bool.and_eq_true, decide_eq_true_eq]
      exact ⟨h.1, ih h.2⟩

omit [DecidableEq α] in
theorem above_insertKey {k j : Nat} {v : α} {m : List (Nat × α)} (hj : k < j) (h : above k m = true) :
    above k (insertKey j v m) = true := by
  induction m with
  | nil => simp [insertKey, above, hj]
  | cons e m ih =>
    obtain ⟨k', w⟩ := e
    simp only [above, List.all_cons, Bool.and_eq_true, decide_eq_true_eq] at h ih ⊢
    by_cases h1 : j < k'
    · simp only [insertKey, h1, if_true, List.all_cons, Bool.and_eq_true, decide_eq_true_eq]; exact ⟨hj, h.1, h.2⟩
    · by_cases h2 : j = k'
      · simp only [insertKey, h2, Nat.lt_irrefl, if_false, if_true, List.all_cons, Bool.and_eq_true, decide_eq_true_eq]
        exact ⟨h.1, h.2⟩
      · simp only [insertKey, h1, h2, if_false, List.all_cons, Bool.and_eq_true, decide_eq_true_eq]; exact ⟨h.1, ih h.2⟩

omit [DecidableEq α] in
theorem keysRise_eraseKey (j : Nat) {m : List (Nat × α)} (h : keysRise m = true) : keysRise (eraseKey j m) = true := by
  induction m with
  | nil => rfl
  | cons e m ih =>
    obtain ⟨k, v⟩ := e
    rw [keysRise_cons, Bool.and_eq_true] at h
    by_cases hk : k = j
    · simp only [eraseKey, hk, if_true]; exact ih h.2
    · simp only [eraseKey, hk, if_false]
      rw [keysRise_cons, Bool.and_eq_true]
      exact ⟨above_eraseKey j h.1, ih h.2⟩

omit [DecidableEq α] in
theorem keysRise_insertKey (j : Nat) (w : α) {m : List (Nat × α)} (h : keysRise m = true) : keysRise (insertKey j w m) = true := by
  induction m with
  | nil => rfl
  | cons e m ih =>
    obtain ⟨k, v⟩ := e
    have h' := h
    rw [keysRise_cons, Bool.and_eq_true] at h
    by_cases h1 : j < k
    · simp only [insertKey, h1, if_true]
      rw [keysRise_cons, Bool.and_eq_true]
      refine ⟨?_, h'⟩
      have ha := h.1
      simp only [above, List.all_cons, List.all_eq_true, Bool.and_eq_true, decide_eq_true_eq] at ha ⊢
      exact ⟨h1, fun x hx => Nat.lt_trans h1 (ha x hx)⟩
    · by_cases h2 : j = k
      · subst h2
        simp only [insertKey, Nat.lt_irrefl, if_false, if_true]
        rw [keysRise_cons, Bool.and_eq_true]; exact h
      · simp only [insertKey, h1, h2, if_false]
        rw [keysRise_cons, Bool.and_eq_true]
        exact ⟨above_insertKey (by omega) h.1, ih h.2⟩

omit [DecidableEq α] in
theorem all_eraseKey {p : Nat × α → Bool} (j : Nat) {m : List (Nat × α)} (h : m.all p = true) : (eraseKey j m).all p = true := by
  induction m with
  | nil => rfl
  | cons e m ih =>
    obtain ⟨k, v⟩ := e
    rw [List.all_cons, Bool.and_eq_true] at h
    by_cases hk : k = j
    · simp only [eraseKey, hk, if_true]; exact ih h.2
    · simp only [eraseKey, hk, if_false, List.all_cons, Bool.and_eq_true]; exact ⟨h.1, ih h.2⟩

omit [DecidableEq α] in
theorem all_insertKey {p : Nat × α → Bool} (j : Nat) (w : α) {m : List (Nat × α)} (hp : p (j, w) = true) (h : m.all p = true) :
    (insertKey j w m).all p = true := by
  induction m with
  | nil => simp [insertKey, hp]
  | cons e m ih =>
    obtain ⟨k, v⟩ := e
    have h' := h
    rw [List.all_cons, Bool.and_eq_true] at h
    by_cases h1 : j < k
    · simp only [insertKey, h1, if_true]; rw [List.all_cons, hp, h']; rfl
    · by_cases h2 : j = k
      · simp only [insertKey, h1, if_false, if_pos h2]; rw [List.all_cons, hp, h.2]; rfl
      · simp only [insertKey, h1, h2, if_false]; rw [List.all_cons, h.1, ih h.2]; rfl

/-- A write keeps the canonical form. -/
theorem mapWf_mapSet (d : α) {m : List (Nat × α)} (k : Nat) (v : α) (h : mapWf d m = true) : mapWf d (mapSet d m k v) = true := by
  simp only [mapWf, Bool.and_eq_true] at h ⊢
  by_cases hv : v = d
  · simp only [mapSet, hv, if_true]; exact ⟨keysRise_eraseKey k h.1, all_eraseKey k h.2⟩
  · simp only [mapSet, hv, if_false]; exact ⟨keysRise_insertKey k v h.1, all_insertKey k v (by simp [hv]) h.2⟩

end Sys2Proof.Machine
end

