-- ==== Sys2Proof/Laws/State.lean ====
section
/-! SUPPORT. What each update of the chip leaves alone: one lemma per field per update, and per accessor per update; what each
accessor reads after its own update; and how a read folds back into its accessor. -/

namespace Sys2Proof.Machine

/-! ### The fields after an update -/

@[simp] theorem Chip.wr_card (c : Chip) (f : Fld) (v : Nat) : (c.wr f v).card = c.card := rfl
@[simp] theorem Chip.wr_time (c : Chip) (f : Fld) (v : Nat) : (c.wr f v).time = c.time := rfl
@[simp] theorem Chip.wr_chans (c : Chip) (f : Fld) (v : Nat) : (c.wr f v).chans = c.chans := rfl
@[simp] theorem Chip.wr_faults (c : Chip) (f : Fld) (v : Nat) : (c.wr f v).faults = c.faults := rfl
@[simp] theorem Chip.wr_ports (c : Chip) (f : Fld) (v : Nat) : (c.wr f v).ports = c.ports := rfl
@[simp] theorem Chip.wr_streams (c : Chip) (f : Fld) (v : Nat) : (c.wr f v).streams = c.streams := rfl
@[simp] theorem Chip.wr_orders (c : Chip) (f : Fld) (v : Nat) : (c.wr f v).orders = c.orders := rfl
@[simp] theorem Chip.wr_rlanes (c : Chip) (f : Fld) (v : Nat) : (c.wr f v).rlanes = c.rlanes := rfl
@[simp] theorem Chip.wr_clanes (c : Chip) (f : Fld) (v : Nat) : (c.wr f v).clanes = c.clanes := rfl
@[simp] theorem Chip.wr_laneTests (c : Chip) (f : Fld) (v : Nat) : (c.wr f v).laneTests = c.laneTests := rfl
@[simp] theorem Chip.wr_ropes (c : Chip) (f : Fld) (v : Nat) : (c.wr f v).ropes = c.ropes := rfl
@[simp] theorem Chip.wr_slots (c : Chip) (f : Fld) (v : Nat) : (c.wr f v).slots = c.slots := rfl
@[simp] theorem Chip.wr_pos (c : Chip) (f : Fld) (v : Nat) : (c.wr f v).pos = c.pos := rfl
@[simp] theorem Chip.wr_ctime (c : Chip) (f : Fld) (v : Nat) : (c.wr f v).ctime = c.ctime := rfl
@[simp] theorem Chip.wr_ccmd (c : Chip) (f : Fld) (v : Nat) : (c.wr f v).ccmd = c.ccmd := rfl
@[simp] theorem Chip.wr_gates (c : Chip) (f : Fld) (v : Nat) : (c.wr f v).gates = c.gates := rfl
@[simp] theorem Chip.wr_meas (c : Chip) (f : Fld) (v : Nat) : (c.wr f v).meas = c.meas := rfl
@[simp] theorem Chip.wr_corrs (c : Chip) (f : Fld) (v : Nat) : (c.wr f v).corrs = c.corrs := rfl
@[simp] theorem Chip.wr_packs (c : Chip) (f : Fld) (v : Nat) : (c.wr f v).packs = c.packs := rfl
@[simp] theorem Chip.wr_ledgers (c : Chip) (f : Fld) (v : Nat) : (c.wr f v).ledgers = c.ledgers := rfl
@[simp] theorem Chip.wr_cans (c : Chip) (f : Fld) (v : Nat) : (c.wr f v).cans = c.cans := rfl
@[simp] theorem Chip.wr_bcs (c : Chip) (f : Fld) (v : Nat) : (c.wr f v).bcs = c.bcs := rfl
@[simp] theorem Chip.wr_captures (c : Chip) (f : Fld) (v : Nat) : (c.wr f v).captures = c.captures := rfl
@[simp] theorem Chip.wr_xchs (c : Chip) (f : Fld) (v : Nat) : (c.wr f v).xchs = c.xchs := rfl
@[simp] theorem Chip.wr_sched (c : Chip) (f : Fld) (v : Nat) : (c.wr f v).sched = c.sched := rfl
@[simp] theorem Chip.wr_loop (c : Chip) (f : Fld) (v : Nat) : (c.wr f v).loop = c.loop := rfl
@[simp] theorem Chip.wr_rcells (c : Chip) (f : Fld) (v : Nat) : (c.wr f v).rcells = c.rcells := rfl
@[simp] theorem Chip.wr_rregs (c : Chip) (f : Fld) (v : Nat) : (c.wr f v).rregs = c.rregs := rfl
@[simp] theorem Chip.wr_pols (c : Chip) (f : Fld) (v : Nat) : (c.wr f v).pols = c.pols := rfl
@[simp] theorem Chip.wr_policy (c : Chip) (f : Fld) (v : Nat) : (c.wr f v).policy = c.policy := rfl
@[simp] theorem Chip.wr_sweep (c : Chip) (f : Fld) (v : Nat) : (c.wr f v).sweep = c.sweep := rfl
@[simp] theorem Chip.wr_cal (c : Chip) (f : Fld) (v : Nat) : (c.wr f v).cal = c.cal := rfl
@[simp] theorem Chip.wr_fetches (c : Chip) (f : Fld) (v : Nat) : (c.wr f v).fetches = c.fetches := rfl
@[simp] theorem Chip.wr_parts (c : Chip) (f : Fld) (v : Nat) : (c.wr f v).parts = c.parts := rfl
@[simp] theorem Chip.wr_safety (c : Chip) (f : Fld) (v : Nat) : (c.wr f v).safety = c.safety := rfl
@[simp] theorem Chip.wr_recov (c : Chip) (f : Fld) (v : Nat) : (c.wr f v).recov = c.recov := rfl
@[simp] theorem Chip.wr_recorder (c : Chip) (f : Fld) (v : Nat) : (c.wr f v).recorder = c.recorder := rfl
@[simp] theorem Chip.wr_start (c : Chip) (f : Fld) (v : Nat) : (c.wr f v).start = c.start := rfl
@[simp] theorem Chip.wr_flash (c : Chip) (f : Fld) (v : Nat) : (c.wr f v).flash = c.flash := rfl
@[simp] theorem Chip.wr_free (c : Chip) (f : Fld) (v : Nat) : (c.wr f v).free = c.free := rfl
@[simp] theorem Chip.setChan_regs (c : Chip) (n : Nat) (x : ChanSt) : (c.setChan n x).regs = c.regs := rfl
@[simp] theorem Chip.setChan_card (c : Chip) (n : Nat) (x : ChanSt) : (c.setChan n x).card = c.card := rfl
@[simp] theorem Chip.setChan_time (c : Chip) (n : Nat) (x : ChanSt) : (c.setChan n x).time = c.time := rfl
@[simp] theorem Chip.setChan_faults (c : Chip) (n : Nat) (x : ChanSt) : (c.setChan n x).faults = c.faults := rfl
@[simp] theorem Chip.setChan_orders (c : Chip) (n : Nat) (x : ChanSt) : (c.setChan n x).orders = c.orders := rfl
@[simp] theorem Chip.setChan_sched (c : Chip) (n : Nat) (x : ChanSt) : (c.setChan n x).sched = c.sched := rfl
@[simp] theorem Chip.setChan_loop (c : Chip) (n : Nat) (x : ChanSt) : (c.setChan n x).loop = c.loop := rfl
@[simp] theorem Chip.setChan_policy (c : Chip) (n : Nat) (x : ChanSt) : (c.setChan n x).policy = c.policy := rfl
@[simp] theorem Chip.setChan_sweep (c : Chip) (n : Nat) (x : ChanSt) : (c.setChan n x).sweep = c.sweep := rfl
@[simp] theorem Chip.setChan_cal (c : Chip) (n : Nat) (x : ChanSt) : (c.setChan n x).cal = c.cal := rfl
@[simp] theorem Chip.setChan_safety (c : Chip) (n : Nat) (x : ChanSt) : (c.setChan n x).safety = c.safety := rfl
@[simp] theorem Chip.setChan_recov (c : Chip) (n : Nat) (x : ChanSt) : (c.setChan n x).recov = c.recov := rfl
@[simp] theorem Chip.setChan_recorder (c : Chip) (n : Nat) (x : ChanSt) : (c.setChan n x).recorder = c.recorder := rfl
@[simp] theorem Chip.setChan_start (c : Chip) (n : Nat) (x : ChanSt) : (c.setChan n x).start = c.start := rfl
@[simp] theorem Chip.setChan_free (c : Chip) (n : Nat) (x : ChanSt) : (c.setChan n x).free = c.free := rfl
@[simp] theorem Chip.setPort_regs (c : Chip) (p : Nat) (x : PortSt) : (c.setPort p x).regs = c.regs := rfl
@[simp] theorem Chip.setPort_card (c : Chip) (p : Nat) (x : PortSt) : (c.setPort p x).card = c.card := rfl
@[simp] theorem Chip.setPort_time (c : Chip) (p : Nat) (x : PortSt) : (c.setPort p x).time = c.time := rfl
@[simp] theorem Chip.setPort_faults (c : Chip) (p : Nat) (x : PortSt) : (c.setPort p x).faults = c.faults := rfl
@[simp] theorem Chip.setPort_orders (c : Chip) (p : Nat) (x : PortSt) : (c.setPort p x).orders = c.orders := rfl
@[simp] theorem Chip.setPort_sched (c : Chip) (p : Nat) (x : PortSt) : (c.setPort p x).sched = c.sched := rfl
@[simp] theorem Chip.setPort_loop (c : Chip) (p : Nat) (x : PortSt) : (c.setPort p x).loop = c.loop := rfl
@[simp] theorem Chip.setPort_policy (c : Chip) (p : Nat) (x : PortSt) : (c.setPort p x).policy = c.policy := rfl
@[simp] theorem Chip.setPort_sweep (c : Chip) (p : Nat) (x : PortSt) : (c.setPort p x).sweep = c.sweep := rfl
@[simp] theorem Chip.setPort_cal (c : Chip) (p : Nat) (x : PortSt) : (c.setPort p x).cal = c.cal := rfl
@[simp] theorem Chip.setPort_safety (c : Chip) (p : Nat) (x : PortSt) : (c.setPort p x).safety = c.safety := rfl
@[simp] theorem Chip.setPort_recov (c : Chip) (p : Nat) (x : PortSt) : (c.setPort p x).recov = c.recov := rfl
@[simp] theorem Chip.setPort_recorder (c : Chip) (p : Nat) (x : PortSt) : (c.setPort p x).recorder = c.recorder := rfl
@[simp] theorem Chip.setPort_start (c : Chip) (p : Nat) (x : PortSt) : (c.setPort p x).start = c.start := rfl
@[simp] theorem Chip.setPort_free (c : Chip) (p : Nat) (x : PortSt) : (c.setPort p x).free = c.free := rfl
@[simp] theorem Chip.setStream_regs (c : Chip) (p st : Nat) (x : StreamSt) : (c.setStream p st x).regs = c.regs := rfl
@[simp] theorem Chip.setStream_card (c : Chip) (p st : Nat) (x : StreamSt) : (c.setStream p st x).card = c.card := rfl
@[simp] theorem Chip.setStream_time (c : Chip) (p st : Nat) (x : StreamSt) : (c.setStream p st x).time = c.time := rfl
@[simp] theorem Chip.setStream_faults (c : Chip) (p st : Nat) (x : StreamSt) : (c.setStream p st x).faults = c.faults := rfl
@[simp] theorem Chip.setStream_orders (c : Chip) (p st : Nat) (x : StreamSt) : (c.setStream p st x).orders = c.orders := rfl
@[simp] theorem Chip.setStream_sched (c : Chip) (p st : Nat) (x : StreamSt) : (c.setStream p st x).sched = c.sched := rfl
@[simp] theorem Chip.setStream_loop (c : Chip) (p st : Nat) (x : StreamSt) : (c.setStream p st x).loop = c.loop := rfl
@[simp] theorem Chip.setStream_policy (c : Chip) (p st : Nat) (x : StreamSt) : (c.setStream p st x).policy = c.policy := rfl
@[simp] theorem Chip.setStream_sweep (c : Chip) (p st : Nat) (x : StreamSt) : (c.setStream p st x).sweep = c.sweep := rfl
@[simp] theorem Chip.setStream_cal (c : Chip) (p st : Nat) (x : StreamSt) : (c.setStream p st x).cal = c.cal := rfl
@[simp] theorem Chip.setStream_safety (c : Chip) (p st : Nat) (x : StreamSt) : (c.setStream p st x).safety = c.safety := rfl
@[simp] theorem Chip.setStream_recov (c : Chip) (p st : Nat) (x : StreamSt) : (c.setStream p st x).recov = c.recov := rfl
@[simp] theorem Chip.setStream_recorder (c : Chip) (p st : Nat) (x : StreamSt) : (c.setStream p st x).recorder = c.recorder := rfl
@[simp] theorem Chip.setStream_start (c : Chip) (p st : Nat) (x : StreamSt) : (c.setStream p st x).start = c.start := rfl
@[simp] theorem Chip.setStream_free (c : Chip) (p st : Nat) (x : StreamSt) : (c.setStream p st x).free = c.free := rfl
@[simp] theorem Chip.setRlane_regs (c : Chip) (g e : Nat) (x : RLaneSt) : (c.setRlane g e x).regs = c.regs := rfl
@[simp] theorem Chip.setRlane_card (c : Chip) (g e : Nat) (x : RLaneSt) : (c.setRlane g e x).card = c.card := rfl
@[simp] theorem Chip.setRlane_time (c : Chip) (g e : Nat) (x : RLaneSt) : (c.setRlane g e x).time = c.time := rfl
@[simp] theorem Chip.setRlane_faults (c : Chip) (g e : Nat) (x : RLaneSt) : (c.setRlane g e x).faults = c.faults := rfl
@[simp] theorem Chip.setRlane_orders (c : Chip) (g e : Nat) (x : RLaneSt) : (c.setRlane g e x).orders = c.orders := rfl
@[simp] theorem Chip.setRlane_sched (c : Chip) (g e : Nat) (x : RLaneSt) : (c.setRlane g e x).sched = c.sched := rfl
@[simp] theorem Chip.setRlane_loop (c : Chip) (g e : Nat) (x : RLaneSt) : (c.setRlane g e x).loop = c.loop := rfl
@[simp] theorem Chip.setRlane_policy (c : Chip) (g e : Nat) (x : RLaneSt) : (c.setRlane g e x).policy = c.policy := rfl
@[simp] theorem Chip.setRlane_sweep (c : Chip) (g e : Nat) (x : RLaneSt) : (c.setRlane g e x).sweep = c.sweep := rfl
@[simp] theorem Chip.setRlane_cal (c : Chip) (g e : Nat) (x : RLaneSt) : (c.setRlane g e x).cal = c.cal := rfl
@[simp] theorem Chip.setRlane_safety (c : Chip) (g e : Nat) (x : RLaneSt) : (c.setRlane g e x).safety = c.safety := rfl
@[simp] theorem Chip.setRlane_recov (c : Chip) (g e : Nat) (x : RLaneSt) : (c.setRlane g e x).recov = c.recov := rfl
@[simp] theorem Chip.setRlane_recorder (c : Chip) (g e : Nat) (x : RLaneSt) : (c.setRlane g e x).recorder = c.recorder := rfl
@[simp] theorem Chip.setRlane_start (c : Chip) (g e : Nat) (x : RLaneSt) : (c.setRlane g e x).start = c.start := rfl
@[simp] theorem Chip.setRlane_free (c : Chip) (g e : Nat) (x : RLaneSt) : (c.setRlane g e x).free = c.free := rfl
@[simp] theorem Chip.setClane_regs (c : Chip) (a b : Nat) (x : CLaneSt) : (c.setClane a b x).regs = c.regs := rfl
@[simp] theorem Chip.setClane_card (c : Chip) (a b : Nat) (x : CLaneSt) : (c.setClane a b x).card = c.card := rfl
@[simp] theorem Chip.setClane_time (c : Chip) (a b : Nat) (x : CLaneSt) : (c.setClane a b x).time = c.time := rfl
@[simp] theorem Chip.setClane_faults (c : Chip) (a b : Nat) (x : CLaneSt) : (c.setClane a b x).faults = c.faults := rfl
@[simp] theorem Chip.setClane_orders (c : Chip) (a b : Nat) (x : CLaneSt) : (c.setClane a b x).orders = c.orders := rfl
@[simp] theorem Chip.setClane_sched (c : Chip) (a b : Nat) (x : CLaneSt) : (c.setClane a b x).sched = c.sched := rfl
@[simp] theorem Chip.setClane_loop (c : Chip) (a b : Nat) (x : CLaneSt) : (c.setClane a b x).loop = c.loop := rfl
@[simp] theorem Chip.setClane_policy (c : Chip) (a b : Nat) (x : CLaneSt) : (c.setClane a b x).policy = c.policy := rfl
@[simp] theorem Chip.setClane_sweep (c : Chip) (a b : Nat) (x : CLaneSt) : (c.setClane a b x).sweep = c.sweep := rfl
@[simp] theorem Chip.setClane_cal (c : Chip) (a b : Nat) (x : CLaneSt) : (c.setClane a b x).cal = c.cal := rfl
@[simp] theorem Chip.setClane_safety (c : Chip) (a b : Nat) (x : CLaneSt) : (c.setClane a b x).safety = c.safety := rfl
@[simp] theorem Chip.setClane_recov (c : Chip) (a b : Nat) (x : CLaneSt) : (c.setClane a b x).recov = c.recov := rfl
@[simp] theorem Chip.setClane_recorder (c : Chip) (a b : Nat) (x : CLaneSt) : (c.setClane a b x).recorder = c.recorder := rfl
@[simp] theorem Chip.setClane_start (c : Chip) (a b : Nat) (x : CLaneSt) : (c.setClane a b x).start = c.start := rfl
@[simp] theorem Chip.setClane_free (c : Chip) (a b : Nat) (x : CLaneSt) : (c.setClane a b x).free = c.free := rfl
@[simp] theorem Chip.setLaneTest_regs (c : Chip) (r : Nat) (x : LaneTestSt) : (c.setLaneTest r x).regs = c.regs := rfl
@[simp] theorem Chip.setLaneTest_card (c : Chip) (r : Nat) (x : LaneTestSt) : (c.setLaneTest r x).card = c.card := rfl
@[simp] theorem Chip.setLaneTest_time (c : Chip) (r : Nat) (x : LaneTestSt) : (c.setLaneTest r x).time = c.time := rfl
@[simp] theorem Chip.setLaneTest_faults (c : Chip) (r : Nat) (x : LaneTestSt) : (c.setLaneTest r x).faults = c.faults := rfl
@[simp] theorem Chip.setLaneTest_orders (c : Chip) (r : Nat) (x : LaneTestSt) : (c.setLaneTest r x).orders = c.orders := rfl
@[simp] theorem Chip.setLaneTest_sched (c : Chip) (r : Nat) (x : LaneTestSt) : (c.setLaneTest r x).sched = c.sched := rfl
@[simp] theorem Chip.setLaneTest_loop (c : Chip) (r : Nat) (x : LaneTestSt) : (c.setLaneTest r x).loop = c.loop := rfl
@[simp] theorem Chip.setLaneTest_policy (c : Chip) (r : Nat) (x : LaneTestSt) : (c.setLaneTest r x).policy = c.policy := rfl
@[simp] theorem Chip.setLaneTest_sweep (c : Chip) (r : Nat) (x : LaneTestSt) : (c.setLaneTest r x).sweep = c.sweep := rfl
@[simp] theorem Chip.setLaneTest_cal (c : Chip) (r : Nat) (x : LaneTestSt) : (c.setLaneTest r x).cal = c.cal := rfl
@[simp] theorem Chip.setLaneTest_safety (c : Chip) (r : Nat) (x : LaneTestSt) : (c.setLaneTest r x).safety = c.safety := rfl
@[simp] theorem Chip.setLaneTest_recov (c : Chip) (r : Nat) (x : LaneTestSt) : (c.setLaneTest r x).recov = c.recov := rfl
@[simp] theorem Chip.setLaneTest_recorder (c : Chip) (r : Nat) (x : LaneTestSt) : (c.setLaneTest r x).recorder = c.recorder := rfl
@[simp] theorem Chip.setLaneTest_start (c : Chip) (r : Nat) (x : LaneTestSt) : (c.setLaneTest r x).start = c.start := rfl
@[simp] theorem Chip.setLaneTest_free (c : Chip) (r : Nat) (x : LaneTestSt) : (c.setLaneTest r x).free = c.free := rfl
@[simp] theorem Chip.setRope_regs (c : Chip) (g : Nat) (x : RopeSt) : (c.setRope g x).regs = c.regs := rfl
@[simp] theorem Chip.setRope_card (c : Chip) (g : Nat) (x : RopeSt) : (c.setRope g x).card = c.card := rfl
@[simp] theorem Chip.setRope_time (c : Chip) (g : Nat) (x : RopeSt) : (c.setRope g x).time = c.time := rfl
@[simp] theorem Chip.setRope_faults (c : Chip) (g : Nat) (x : RopeSt) : (c.setRope g x).faults = c.faults := rfl
@[simp] theorem Chip.setRope_orders (c : Chip) (g : Nat) (x : RopeSt) : (c.setRope g x).orders = c.orders := rfl
@[simp] theorem Chip.setRope_sched (c : Chip) (g : Nat) (x : RopeSt) : (c.setRope g x).sched = c.sched := rfl
@[simp] theorem Chip.setRope_loop (c : Chip) (g : Nat) (x : RopeSt) : (c.setRope g x).loop = c.loop := rfl
@[simp] theorem Chip.setRope_policy (c : Chip) (g : Nat) (x : RopeSt) : (c.setRope g x).policy = c.policy := rfl
@[simp] theorem Chip.setRope_sweep (c : Chip) (g : Nat) (x : RopeSt) : (c.setRope g x).sweep = c.sweep := rfl
@[simp] theorem Chip.setRope_cal (c : Chip) (g : Nat) (x : RopeSt) : (c.setRope g x).cal = c.cal := rfl
@[simp] theorem Chip.setRope_safety (c : Chip) (g : Nat) (x : RopeSt) : (c.setRope g x).safety = c.safety := rfl
@[simp] theorem Chip.setRope_recov (c : Chip) (g : Nat) (x : RopeSt) : (c.setRope g x).recov = c.recov := rfl
@[simp] theorem Chip.setRope_recorder (c : Chip) (g : Nat) (x : RopeSt) : (c.setRope g x).recorder = c.recorder := rfl
@[simp] theorem Chip.setRope_start (c : Chip) (g : Nat) (x : RopeSt) : (c.setRope g x).start = c.start := rfl
@[simp] theorem Chip.setRope_free (c : Chip) (g : Nat) (x : RopeSt) : (c.setRope g x).free = c.free := rfl
@[simp] theorem Chip.setAt_regs (c : Chip) (a : Nat) (x : PosSt) : (c.setAt a x).regs = c.regs := rfl
@[simp] theorem Chip.setAt_card (c : Chip) (a : Nat) (x : PosSt) : (c.setAt a x).card = c.card := rfl
@[simp] theorem Chip.setAt_time (c : Chip) (a : Nat) (x : PosSt) : (c.setAt a x).time = c.time := rfl
@[simp] theorem Chip.setAt_faults (c : Chip) (a : Nat) (x : PosSt) : (c.setAt a x).faults = c.faults := rfl
@[simp] theorem Chip.setAt_orders (c : Chip) (a : Nat) (x : PosSt) : (c.setAt a x).orders = c.orders := rfl
@[simp] theorem Chip.setAt_sched (c : Chip) (a : Nat) (x : PosSt) : (c.setAt a x).sched = c.sched := rfl
@[simp] theorem Chip.setAt_loop (c : Chip) (a : Nat) (x : PosSt) : (c.setAt a x).loop = c.loop := rfl
@[simp] theorem Chip.setAt_policy (c : Chip) (a : Nat) (x : PosSt) : (c.setAt a x).policy = c.policy := rfl
@[simp] theorem Chip.setAt_sweep (c : Chip) (a : Nat) (x : PosSt) : (c.setAt a x).sweep = c.sweep := rfl
@[simp] theorem Chip.setAt_cal (c : Chip) (a : Nat) (x : PosSt) : (c.setAt a x).cal = c.cal := rfl
@[simp] theorem Chip.setAt_safety (c : Chip) (a : Nat) (x : PosSt) : (c.setAt a x).safety = c.safety := rfl
@[simp] theorem Chip.setAt_recov (c : Chip) (a : Nat) (x : PosSt) : (c.setAt a x).recov = c.recov := rfl
@[simp] theorem Chip.setAt_recorder (c : Chip) (a : Nat) (x : PosSt) : (c.setAt a x).recorder = c.recorder := rfl
@[simp] theorem Chip.setAt_start (c : Chip) (a : Nat) (x : PosSt) : (c.setAt a x).start = c.start := rfl
@[simp] theorem Chip.setAt_free (c : Chip) (a : Nat) (x : PosSt) : (c.setAt a x).free = c.free := rfl
@[simp] theorem Chip.setCt_regs (c : Chip) (a : Nat) (x : CTimeSt) : (c.setCt a x).regs = c.regs := rfl
@[simp] theorem Chip.setCt_card (c : Chip) (a : Nat) (x : CTimeSt) : (c.setCt a x).card = c.card := rfl
@[simp] theorem Chip.setCt_time (c : Chip) (a : Nat) (x : CTimeSt) : (c.setCt a x).time = c.time := rfl
@[simp] theorem Chip.setCt_faults (c : Chip) (a : Nat) (x : CTimeSt) : (c.setCt a x).faults = c.faults := rfl
@[simp] theorem Chip.setCt_orders (c : Chip) (a : Nat) (x : CTimeSt) : (c.setCt a x).orders = c.orders := rfl
@[simp] theorem Chip.setCt_sched (c : Chip) (a : Nat) (x : CTimeSt) : (c.setCt a x).sched = c.sched := rfl
@[simp] theorem Chip.setCt_loop (c : Chip) (a : Nat) (x : CTimeSt) : (c.setCt a x).loop = c.loop := rfl
@[simp] theorem Chip.setCt_policy (c : Chip) (a : Nat) (x : CTimeSt) : (c.setCt a x).policy = c.policy := rfl
@[simp] theorem Chip.setCt_sweep (c : Chip) (a : Nat) (x : CTimeSt) : (c.setCt a x).sweep = c.sweep := rfl
@[simp] theorem Chip.setCt_cal (c : Chip) (a : Nat) (x : CTimeSt) : (c.setCt a x).cal = c.cal := rfl
@[simp] theorem Chip.setCt_safety (c : Chip) (a : Nat) (x : CTimeSt) : (c.setCt a x).safety = c.safety := rfl
@[simp] theorem Chip.setCt_recov (c : Chip) (a : Nat) (x : CTimeSt) : (c.setCt a x).recov = c.recov := rfl
@[simp] theorem Chip.setCt_recorder (c : Chip) (a : Nat) (x : CTimeSt) : (c.setCt a x).recorder = c.recorder := rfl
@[simp] theorem Chip.setCt_start (c : Chip) (a : Nat) (x : CTimeSt) : (c.setCt a x).start = c.start := rfl
@[simp] theorem Chip.setCt_free (c : Chip) (a : Nat) (x : CTimeSt) : (c.setCt a x).free = c.free := rfl
@[simp] theorem Chip.setCmd_regs (c : Chip) (a : Nat) (x : CCmdSt) : (c.setCmd a x).regs = c.regs := rfl
@[simp] theorem Chip.setCmd_card (c : Chip) (a : Nat) (x : CCmdSt) : (c.setCmd a x).card = c.card := rfl
@[simp] theorem Chip.setCmd_time (c : Chip) (a : Nat) (x : CCmdSt) : (c.setCmd a x).time = c.time := rfl
@[simp] theorem Chip.setCmd_faults (c : Chip) (a : Nat) (x : CCmdSt) : (c.setCmd a x).faults = c.faults := rfl
@[simp] theorem Chip.setCmd_orders (c : Chip) (a : Nat) (x : CCmdSt) : (c.setCmd a x).orders = c.orders := rfl
@[simp] theorem Chip.setCmd_sched (c : Chip) (a : Nat) (x : CCmdSt) : (c.setCmd a x).sched = c.sched := rfl
@[simp] theorem Chip.setCmd_loop (c : Chip) (a : Nat) (x : CCmdSt) : (c.setCmd a x).loop = c.loop := rfl
@[simp] theorem Chip.setCmd_policy (c : Chip) (a : Nat) (x : CCmdSt) : (c.setCmd a x).policy = c.policy := rfl
@[simp] theorem Chip.setCmd_sweep (c : Chip) (a : Nat) (x : CCmdSt) : (c.setCmd a x).sweep = c.sweep := rfl
@[simp] theorem Chip.setCmd_cal (c : Chip) (a : Nat) (x : CCmdSt) : (c.setCmd a x).cal = c.cal := rfl
@[simp] theorem Chip.setCmd_safety (c : Chip) (a : Nat) (x : CCmdSt) : (c.setCmd a x).safety = c.safety := rfl
@[simp] theorem Chip.setCmd_recov (c : Chip) (a : Nat) (x : CCmdSt) : (c.setCmd a x).recov = c.recov := rfl
@[simp] theorem Chip.setCmd_recorder (c : Chip) (a : Nat) (x : CCmdSt) : (c.setCmd a x).recorder = c.recorder := rfl
@[simp] theorem Chip.setCmd_start (c : Chip) (a : Nat) (x : CCmdSt) : (c.setCmd a x).start = c.start := rfl
@[simp] theorem Chip.setCmd_free (c : Chip) (a : Nat) (x : CCmdSt) : (c.setCmd a x).free = c.free := rfl
@[simp] theorem Chip.setGate_regs (c : Chip) (a : Nat) (x : GateSt) : (c.setGate a x).regs = c.regs := rfl
@[simp] theorem Chip.setGate_card (c : Chip) (a : Nat) (x : GateSt) : (c.setGate a x).card = c.card := rfl
@[simp] theorem Chip.setGate_time (c : Chip) (a : Nat) (x : GateSt) : (c.setGate a x).time = c.time := rfl
@[simp] theorem Chip.setGate_faults (c : Chip) (a : Nat) (x : GateSt) : (c.setGate a x).faults = c.faults := rfl
@[simp] theorem Chip.setGate_orders (c : Chip) (a : Nat) (x : GateSt) : (c.setGate a x).orders = c.orders := rfl
@[simp] theorem Chip.setGate_sched (c : Chip) (a : Nat) (x : GateSt) : (c.setGate a x).sched = c.sched := rfl
@[simp] theorem Chip.setGate_loop (c : Chip) (a : Nat) (x : GateSt) : (c.setGate a x).loop = c.loop := rfl
@[simp] theorem Chip.setGate_policy (c : Chip) (a : Nat) (x : GateSt) : (c.setGate a x).policy = c.policy := rfl
@[simp] theorem Chip.setGate_sweep (c : Chip) (a : Nat) (x : GateSt) : (c.setGate a x).sweep = c.sweep := rfl
@[simp] theorem Chip.setGate_cal (c : Chip) (a : Nat) (x : GateSt) : (c.setGate a x).cal = c.cal := rfl
@[simp] theorem Chip.setGate_safety (c : Chip) (a : Nat) (x : GateSt) : (c.setGate a x).safety = c.safety := rfl
@[simp] theorem Chip.setGate_recov (c : Chip) (a : Nat) (x : GateSt) : (c.setGate a x).recov = c.recov := rfl
@[simp] theorem Chip.setGate_recorder (c : Chip) (a : Nat) (x : GateSt) : (c.setGate a x).recorder = c.recorder := rfl
@[simp] theorem Chip.setGate_start (c : Chip) (a : Nat) (x : GateSt) : (c.setGate a x).start = c.start := rfl
@[simp] theorem Chip.setGate_free (c : Chip) (a : Nat) (x : GateSt) : (c.setGate a x).free = c.free := rfl
@[simp] theorem Chip.setMeas_regs (c : Chip) (a : Nat) (x : MeasSt) : (c.setMeas a x).regs = c.regs := rfl
@[simp] theorem Chip.setMeas_card (c : Chip) (a : Nat) (x : MeasSt) : (c.setMeas a x).card = c.card := rfl
@[simp] theorem Chip.setMeas_time (c : Chip) (a : Nat) (x : MeasSt) : (c.setMeas a x).time = c.time := rfl
@[simp] theorem Chip.setMeas_faults (c : Chip) (a : Nat) (x : MeasSt) : (c.setMeas a x).faults = c.faults := rfl
@[simp] theorem Chip.setMeas_orders (c : Chip) (a : Nat) (x : MeasSt) : (c.setMeas a x).orders = c.orders := rfl
@[simp] theorem Chip.setMeas_sched (c : Chip) (a : Nat) (x : MeasSt) : (c.setMeas a x).sched = c.sched := rfl
@[simp] theorem Chip.setMeas_loop (c : Chip) (a : Nat) (x : MeasSt) : (c.setMeas a x).loop = c.loop := rfl
@[simp] theorem Chip.setMeas_policy (c : Chip) (a : Nat) (x : MeasSt) : (c.setMeas a x).policy = c.policy := rfl
@[simp] theorem Chip.setMeas_sweep (c : Chip) (a : Nat) (x : MeasSt) : (c.setMeas a x).sweep = c.sweep := rfl
@[simp] theorem Chip.setMeas_cal (c : Chip) (a : Nat) (x : MeasSt) : (c.setMeas a x).cal = c.cal := rfl
@[simp] theorem Chip.setMeas_safety (c : Chip) (a : Nat) (x : MeasSt) : (c.setMeas a x).safety = c.safety := rfl
@[simp] theorem Chip.setMeas_recov (c : Chip) (a : Nat) (x : MeasSt) : (c.setMeas a x).recov = c.recov := rfl
@[simp] theorem Chip.setMeas_recorder (c : Chip) (a : Nat) (x : MeasSt) : (c.setMeas a x).recorder = c.recorder := rfl
@[simp] theorem Chip.setMeas_start (c : Chip) (a : Nat) (x : MeasSt) : (c.setMeas a x).start = c.start := rfl
@[simp] theorem Chip.setMeas_free (c : Chip) (a : Nat) (x : MeasSt) : (c.setMeas a x).free = c.free := rfl
@[simp] theorem Chip.setCorr_regs (c : Chip) (a k : Nat) (x : CorrSt) : (c.setCorr a k x).regs = c.regs := rfl
@[simp] theorem Chip.setCorr_card (c : Chip) (a k : Nat) (x : CorrSt) : (c.setCorr a k x).card = c.card := rfl
@[simp] theorem Chip.setCorr_time (c : Chip) (a k : Nat) (x : CorrSt) : (c.setCorr a k x).time = c.time := rfl
@[simp] theorem Chip.setCorr_faults (c : Chip) (a k : Nat) (x : CorrSt) : (c.setCorr a k x).faults = c.faults := rfl
@[simp] theorem Chip.setCorr_orders (c : Chip) (a k : Nat) (x : CorrSt) : (c.setCorr a k x).orders = c.orders := rfl
@[simp] theorem Chip.setCorr_sched (c : Chip) (a k : Nat) (x : CorrSt) : (c.setCorr a k x).sched = c.sched := rfl
@[simp] theorem Chip.setCorr_loop (c : Chip) (a k : Nat) (x : CorrSt) : (c.setCorr a k x).loop = c.loop := rfl
@[simp] theorem Chip.setCorr_policy (c : Chip) (a k : Nat) (x : CorrSt) : (c.setCorr a k x).policy = c.policy := rfl
@[simp] theorem Chip.setCorr_sweep (c : Chip) (a k : Nat) (x : CorrSt) : (c.setCorr a k x).sweep = c.sweep := rfl
@[simp] theorem Chip.setCorr_cal (c : Chip) (a k : Nat) (x : CorrSt) : (c.setCorr a k x).cal = c.cal := rfl
@[simp] theorem Chip.setCorr_safety (c : Chip) (a k : Nat) (x : CorrSt) : (c.setCorr a k x).safety = c.safety := rfl
@[simp] theorem Chip.setCorr_recov (c : Chip) (a k : Nat) (x : CorrSt) : (c.setCorr a k x).recov = c.recov := rfl
@[simp] theorem Chip.setCorr_recorder (c : Chip) (a k : Nat) (x : CorrSt) : (c.setCorr a k x).recorder = c.recorder := rfl
@[simp] theorem Chip.setCorr_start (c : Chip) (a k : Nat) (x : CorrSt) : (c.setCorr a k x).start = c.start := rfl
@[simp] theorem Chip.setCorr_free (c : Chip) (a k : Nat) (x : CorrSt) : (c.setCorr a k x).free = c.free := rfl
@[simp] theorem Chip.setPack_regs (c : Chip) (a : Nat) (x : PackSt) : (c.setPack a x).regs = c.regs := rfl
@[simp] theorem Chip.setPack_card (c : Chip) (a : Nat) (x : PackSt) : (c.setPack a x).card = c.card := rfl
@[simp] theorem Chip.setPack_time (c : Chip) (a : Nat) (x : PackSt) : (c.setPack a x).time = c.time := rfl
@[simp] theorem Chip.setPack_faults (c : Chip) (a : Nat) (x : PackSt) : (c.setPack a x).faults = c.faults := rfl
@[simp] theorem Chip.setPack_orders (c : Chip) (a : Nat) (x : PackSt) : (c.setPack a x).orders = c.orders := rfl
@[simp] theorem Chip.setPack_sched (c : Chip) (a : Nat) (x : PackSt) : (c.setPack a x).sched = c.sched := rfl
@[simp] theorem Chip.setPack_loop (c : Chip) (a : Nat) (x : PackSt) : (c.setPack a x).loop = c.loop := rfl
@[simp] theorem Chip.setPack_policy (c : Chip) (a : Nat) (x : PackSt) : (c.setPack a x).policy = c.policy := rfl
@[simp] theorem Chip.setPack_sweep (c : Chip) (a : Nat) (x : PackSt) : (c.setPack a x).sweep = c.sweep := rfl
@[simp] theorem Chip.setPack_cal (c : Chip) (a : Nat) (x : PackSt) : (c.setPack a x).cal = c.cal := rfl
@[simp] theorem Chip.setPack_safety (c : Chip) (a : Nat) (x : PackSt) : (c.setPack a x).safety = c.safety := rfl
@[simp] theorem Chip.setPack_recov (c : Chip) (a : Nat) (x : PackSt) : (c.setPack a x).recov = c.recov := rfl
@[simp] theorem Chip.setPack_recorder (c : Chip) (a : Nat) (x : PackSt) : (c.setPack a x).recorder = c.recorder := rfl
@[simp] theorem Chip.setPack_start (c : Chip) (a : Nat) (x : PackSt) : (c.setPack a x).start = c.start := rfl
@[simp] theorem Chip.setPack_free (c : Chip) (a : Nat) (x : PackSt) : (c.setPack a x).free = c.free := rfl
@[simp] theorem Chip.setLedger_regs (c : Chip) (a : Nat) (x : LedgSt) : (c.setLedger a x).regs = c.regs := rfl
@[simp] theorem Chip.setLedger_card (c : Chip) (a : Nat) (x : LedgSt) : (c.setLedger a x).card = c.card := rfl
@[simp] theorem Chip.setLedger_time (c : Chip) (a : Nat) (x : LedgSt) : (c.setLedger a x).time = c.time := rfl
@[simp] theorem Chip.setLedger_faults (c : Chip) (a : Nat) (x : LedgSt) : (c.setLedger a x).faults = c.faults := rfl
@[simp] theorem Chip.setLedger_orders (c : Chip) (a : Nat) (x : LedgSt) : (c.setLedger a x).orders = c.orders := rfl
@[simp] theorem Chip.setLedger_sched (c : Chip) (a : Nat) (x : LedgSt) : (c.setLedger a x).sched = c.sched := rfl
@[simp] theorem Chip.setLedger_loop (c : Chip) (a : Nat) (x : LedgSt) : (c.setLedger a x).loop = c.loop := rfl
@[simp] theorem Chip.setLedger_policy (c : Chip) (a : Nat) (x : LedgSt) : (c.setLedger a x).policy = c.policy := rfl
@[simp] theorem Chip.setLedger_sweep (c : Chip) (a : Nat) (x : LedgSt) : (c.setLedger a x).sweep = c.sweep := rfl
@[simp] theorem Chip.setLedger_cal (c : Chip) (a : Nat) (x : LedgSt) : (c.setLedger a x).cal = c.cal := rfl
@[simp] theorem Chip.setLedger_safety (c : Chip) (a : Nat) (x : LedgSt) : (c.setLedger a x).safety = c.safety := rfl
@[simp] theorem Chip.setLedger_recov (c : Chip) (a : Nat) (x : LedgSt) : (c.setLedger a x).recov = c.recov := rfl
@[simp] theorem Chip.setLedger_recorder (c : Chip) (a : Nat) (x : LedgSt) : (c.setLedger a x).recorder = c.recorder := rfl
@[simp] theorem Chip.setLedger_start (c : Chip) (a : Nat) (x : LedgSt) : (c.setLedger a x).start = c.start := rfl
@[simp] theorem Chip.setLedger_free (c : Chip) (a : Nat) (x : LedgSt) : (c.setLedger a x).free = c.free := rfl
@[simp] theorem Chip.setCan_regs (c : Chip) (n : Nat) (x : CanSt) : (c.setCan n x).regs = c.regs := rfl
@[simp] theorem Chip.setCan_card (c : Chip) (n : Nat) (x : CanSt) : (c.setCan n x).card = c.card := rfl
@[simp] theorem Chip.setCan_time (c : Chip) (n : Nat) (x : CanSt) : (c.setCan n x).time = c.time := rfl
@[simp] theorem Chip.setCan_faults (c : Chip) (n : Nat) (x : CanSt) : (c.setCan n x).faults = c.faults := rfl
@[simp] theorem Chip.setCan_orders (c : Chip) (n : Nat) (x : CanSt) : (c.setCan n x).orders = c.orders := rfl
@[simp] theorem Chip.setCan_sched (c : Chip) (n : Nat) (x : CanSt) : (c.setCan n x).sched = c.sched := rfl
@[simp] theorem Chip.setCan_loop (c : Chip) (n : Nat) (x : CanSt) : (c.setCan n x).loop = c.loop := rfl
@[simp] theorem Chip.setCan_policy (c : Chip) (n : Nat) (x : CanSt) : (c.setCan n x).policy = c.policy := rfl
@[simp] theorem Chip.setCan_sweep (c : Chip) (n : Nat) (x : CanSt) : (c.setCan n x).sweep = c.sweep := rfl
@[simp] theorem Chip.setCan_cal (c : Chip) (n : Nat) (x : CanSt) : (c.setCan n x).cal = c.cal := rfl
@[simp] theorem Chip.setCan_safety (c : Chip) (n : Nat) (x : CanSt) : (c.setCan n x).safety = c.safety := rfl
@[simp] theorem Chip.setCan_recov (c : Chip) (n : Nat) (x : CanSt) : (c.setCan n x).recov = c.recov := rfl
@[simp] theorem Chip.setCan_recorder (c : Chip) (n : Nat) (x : CanSt) : (c.setCan n x).recorder = c.recorder := rfl
@[simp] theorem Chip.setCan_start (c : Chip) (n : Nat) (x : CanSt) : (c.setCan n x).start = c.start := rfl
@[simp] theorem Chip.setCan_free (c : Chip) (n : Nat) (x : CanSt) : (c.setCan n x).free = c.free := rfl
@[simp] theorem Chip.setBc_regs (c : Chip) (a : Nat) (x : BcSt) : (c.setBc a x).regs = c.regs := rfl
@[simp] theorem Chip.setBc_card (c : Chip) (a : Nat) (x : BcSt) : (c.setBc a x).card = c.card := rfl
@[simp] theorem Chip.setBc_time (c : Chip) (a : Nat) (x : BcSt) : (c.setBc a x).time = c.time := rfl
@[simp] theorem Chip.setBc_faults (c : Chip) (a : Nat) (x : BcSt) : (c.setBc a x).faults = c.faults := rfl
@[simp] theorem Chip.setBc_orders (c : Chip) (a : Nat) (x : BcSt) : (c.setBc a x).orders = c.orders := rfl
@[simp] theorem Chip.setBc_sched (c : Chip) (a : Nat) (x : BcSt) : (c.setBc a x).sched = c.sched := rfl
@[simp] theorem Chip.setBc_loop (c : Chip) (a : Nat) (x : BcSt) : (c.setBc a x).loop = c.loop := rfl
@[simp] theorem Chip.setBc_policy (c : Chip) (a : Nat) (x : BcSt) : (c.setBc a x).policy = c.policy := rfl
@[simp] theorem Chip.setBc_sweep (c : Chip) (a : Nat) (x : BcSt) : (c.setBc a x).sweep = c.sweep := rfl
@[simp] theorem Chip.setBc_cal (c : Chip) (a : Nat) (x : BcSt) : (c.setBc a x).cal = c.cal := rfl
@[simp] theorem Chip.setBc_safety (c : Chip) (a : Nat) (x : BcSt) : (c.setBc a x).safety = c.safety := rfl
@[simp] theorem Chip.setBc_recov (c : Chip) (a : Nat) (x : BcSt) : (c.setBc a x).recov = c.recov := rfl
@[simp] theorem Chip.setBc_recorder (c : Chip) (a : Nat) (x : BcSt) : (c.setBc a x).recorder = c.recorder := rfl
@[simp] theorem Chip.setBc_start (c : Chip) (a : Nat) (x : BcSt) : (c.setBc a x).start = c.start := rfl
@[simp] theorem Chip.setBc_free (c : Chip) (a : Nat) (x : BcSt) : (c.setBc a x).free = c.free := rfl
@[simp] theorem Chip.setCapture_regs (c : Chip) (a : Nat) (x : CaptureSt) : (c.setCapture a x).regs = c.regs := rfl
@[simp] theorem Chip.setCapture_card (c : Chip) (a : Nat) (x : CaptureSt) : (c.setCapture a x).card = c.card := rfl
@[simp] theorem Chip.setCapture_time (c : Chip) (a : Nat) (x : CaptureSt) : (c.setCapture a x).time = c.time := rfl
@[simp] theorem Chip.setCapture_faults (c : Chip) (a : Nat) (x : CaptureSt) : (c.setCapture a x).faults = c.faults := rfl
@[simp] theorem Chip.setCapture_orders (c : Chip) (a : Nat) (x : CaptureSt) : (c.setCapture a x).orders = c.orders := rfl
@[simp] theorem Chip.setCapture_sched (c : Chip) (a : Nat) (x : CaptureSt) : (c.setCapture a x).sched = c.sched := rfl
@[simp] theorem Chip.setCapture_loop (c : Chip) (a : Nat) (x : CaptureSt) : (c.setCapture a x).loop = c.loop := rfl
@[simp] theorem Chip.setCapture_policy (c : Chip) (a : Nat) (x : CaptureSt) : (c.setCapture a x).policy = c.policy := rfl
@[simp] theorem Chip.setCapture_sweep (c : Chip) (a : Nat) (x : CaptureSt) : (c.setCapture a x).sweep = c.sweep := rfl
@[simp] theorem Chip.setCapture_cal (c : Chip) (a : Nat) (x : CaptureSt) : (c.setCapture a x).cal = c.cal := rfl
@[simp] theorem Chip.setCapture_safety (c : Chip) (a : Nat) (x : CaptureSt) : (c.setCapture a x).safety = c.safety := rfl
@[simp] theorem Chip.setCapture_recov (c : Chip) (a : Nat) (x : CaptureSt) : (c.setCapture a x).recov = c.recov := rfl
@[simp] theorem Chip.setCapture_recorder (c : Chip) (a : Nat) (x : CaptureSt) : (c.setCapture a x).recorder = c.recorder := rfl
@[simp] theorem Chip.setCapture_start (c : Chip) (a : Nat) (x : CaptureSt) : (c.setCapture a x).start = c.start := rfl
@[simp] theorem Chip.setCapture_free (c : Chip) (a : Nat) (x : CaptureSt) : (c.setCapture a x).free = c.free := rfl
@[simp] theorem Chip.setXch_regs (c : Chip) (a : Nat) (x : XchgSt) : (c.setXch a x).regs = c.regs := rfl
@[simp] theorem Chip.setXch_card (c : Chip) (a : Nat) (x : XchgSt) : (c.setXch a x).card = c.card := rfl
@[simp] theorem Chip.setXch_time (c : Chip) (a : Nat) (x : XchgSt) : (c.setXch a x).time = c.time := rfl
@[simp] theorem Chip.setXch_faults (c : Chip) (a : Nat) (x : XchgSt) : (c.setXch a x).faults = c.faults := rfl
@[simp] theorem Chip.setXch_orders (c : Chip) (a : Nat) (x : XchgSt) : (c.setXch a x).orders = c.orders := rfl
@[simp] theorem Chip.setXch_sched (c : Chip) (a : Nat) (x : XchgSt) : (c.setXch a x).sched = c.sched := rfl
@[simp] theorem Chip.setXch_loop (c : Chip) (a : Nat) (x : XchgSt) : (c.setXch a x).loop = c.loop := rfl
@[simp] theorem Chip.setXch_policy (c : Chip) (a : Nat) (x : XchgSt) : (c.setXch a x).policy = c.policy := rfl
@[simp] theorem Chip.setXch_sweep (c : Chip) (a : Nat) (x : XchgSt) : (c.setXch a x).sweep = c.sweep := rfl
@[simp] theorem Chip.setXch_cal (c : Chip) (a : Nat) (x : XchgSt) : (c.setXch a x).cal = c.cal := rfl
@[simp] theorem Chip.setXch_safety (c : Chip) (a : Nat) (x : XchgSt) : (c.setXch a x).safety = c.safety := rfl
@[simp] theorem Chip.setXch_recov (c : Chip) (a : Nat) (x : XchgSt) : (c.setXch a x).recov = c.recov := rfl
@[simp] theorem Chip.setXch_recorder (c : Chip) (a : Nat) (x : XchgSt) : (c.setXch a x).recorder = c.recorder := rfl
@[simp] theorem Chip.setXch_start (c : Chip) (a : Nat) (x : XchgSt) : (c.setXch a x).start = c.start := rfl
@[simp] theorem Chip.setXch_free (c : Chip) (a : Nat) (x : XchgSt) : (c.setXch a x).free = c.free := rfl
@[simp] theorem Chip.setSlot_regs (c : Chip) (j : Nat) (x : SlotSt) : (c.setSlot j x).regs = c.regs := rfl
@[simp] theorem Chip.setSlot_card (c : Chip) (j : Nat) (x : SlotSt) : (c.setSlot j x).card = c.card := rfl
@[simp] theorem Chip.setSlot_time (c : Chip) (j : Nat) (x : SlotSt) : (c.setSlot j x).time = c.time := rfl
@[simp] theorem Chip.setSlot_faults (c : Chip) (j : Nat) (x : SlotSt) : (c.setSlot j x).faults = c.faults := rfl
@[simp] theorem Chip.setSlot_orders (c : Chip) (j : Nat) (x : SlotSt) : (c.setSlot j x).orders = c.orders := rfl
@[simp] theorem Chip.setSlot_sched (c : Chip) (j : Nat) (x : SlotSt) : (c.setSlot j x).sched = c.sched := rfl
@[simp] theorem Chip.setSlot_policy (c : Chip) (j : Nat) (x : SlotSt) : (c.setSlot j x).policy = c.policy := rfl
@[simp] theorem Chip.setSlot_sweep (c : Chip) (j : Nat) (x : SlotSt) : (c.setSlot j x).sweep = c.sweep := rfl
@[simp] theorem Chip.setSlot_cal (c : Chip) (j : Nat) (x : SlotSt) : (c.setSlot j x).cal = c.cal := rfl
@[simp] theorem Chip.setSlot_safety (c : Chip) (j : Nat) (x : SlotSt) : (c.setSlot j x).safety = c.safety := rfl
@[simp] theorem Chip.setSlot_recov (c : Chip) (j : Nat) (x : SlotSt) : (c.setSlot j x).recov = c.recov := rfl
@[simp] theorem Chip.setSlot_recorder (c : Chip) (j : Nat) (x : SlotSt) : (c.setSlot j x).recorder = c.recorder := rfl
@[simp] theorem Chip.setSlot_start (c : Chip) (j : Nat) (x : SlotSt) : (c.setSlot j x).start = c.start := rfl
@[simp] theorem Chip.setSlot_free (c : Chip) (j : Nat) (x : SlotSt) : (c.setSlot j x).free = c.free := rfl
@[simp] theorem Chip.setRcell_regs (c : Chip) (a : Nat) (x : RankCell) : (c.setRcell a x).regs = c.regs := rfl
@[simp] theorem Chip.setRcell_card (c : Chip) (a : Nat) (x : RankCell) : (c.setRcell a x).card = c.card := rfl
@[simp] theorem Chip.setRcell_time (c : Chip) (a : Nat) (x : RankCell) : (c.setRcell a x).time = c.time := rfl
@[simp] theorem Chip.setRcell_faults (c : Chip) (a : Nat) (x : RankCell) : (c.setRcell a x).faults = c.faults := rfl
@[simp] theorem Chip.setRcell_orders (c : Chip) (a : Nat) (x : RankCell) : (c.setRcell a x).orders = c.orders := rfl
@[simp] theorem Chip.setRcell_sched (c : Chip) (a : Nat) (x : RankCell) : (c.setRcell a x).sched = c.sched := rfl
@[simp] theorem Chip.setRcell_loop (c : Chip) (a : Nat) (x : RankCell) : (c.setRcell a x).loop = c.loop := rfl
@[simp] theorem Chip.setRcell_policy (c : Chip) (a : Nat) (x : RankCell) : (c.setRcell a x).policy = c.policy := rfl
@[simp] theorem Chip.setRcell_sweep (c : Chip) (a : Nat) (x : RankCell) : (c.setRcell a x).sweep = c.sweep := rfl
@[simp] theorem Chip.setRcell_cal (c : Chip) (a : Nat) (x : RankCell) : (c.setRcell a x).cal = c.cal := rfl
@[simp] theorem Chip.setRcell_safety (c : Chip) (a : Nat) (x : RankCell) : (c.setRcell a x).safety = c.safety := rfl
@[simp] theorem Chip.setRcell_recov (c : Chip) (a : Nat) (x : RankCell) : (c.setRcell a x).recov = c.recov := rfl
@[simp] theorem Chip.setRcell_recorder (c : Chip) (a : Nat) (x : RankCell) : (c.setRcell a x).recorder = c.recorder := rfl
@[simp] theorem Chip.setRcell_start (c : Chip) (a : Nat) (x : RankCell) : (c.setRcell a x).start = c.start := rfl
@[simp] theorem Chip.setRcell_free (c : Chip) (a : Nat) (x : RankCell) : (c.setRcell a x).free = c.free := rfl
@[simp] theorem Chip.setRreg_regs (c : Chip) (r : Nat) (x : RegRank) : (c.setRreg r x).regs = c.regs := rfl
@[simp] theorem Chip.setRreg_card (c : Chip) (r : Nat) (x : RegRank) : (c.setRreg r x).card = c.card := rfl
@[simp] theorem Chip.setRreg_time (c : Chip) (r : Nat) (x : RegRank) : (c.setRreg r x).time = c.time := rfl
@[simp] theorem Chip.setRreg_faults (c : Chip) (r : Nat) (x : RegRank) : (c.setRreg r x).faults = c.faults := rfl
@[simp] theorem Chip.setRreg_orders (c : Chip) (r : Nat) (x : RegRank) : (c.setRreg r x).orders = c.orders := rfl
@[simp] theorem Chip.setRreg_sched (c : Chip) (r : Nat) (x : RegRank) : (c.setRreg r x).sched = c.sched := rfl
@[simp] theorem Chip.setRreg_loop (c : Chip) (r : Nat) (x : RegRank) : (c.setRreg r x).loop = c.loop := rfl
@[simp] theorem Chip.setRreg_policy (c : Chip) (r : Nat) (x : RegRank) : (c.setRreg r x).policy = c.policy := rfl
@[simp] theorem Chip.setRreg_sweep (c : Chip) (r : Nat) (x : RegRank) : (c.setRreg r x).sweep = c.sweep := rfl
@[simp] theorem Chip.setRreg_cal (c : Chip) (r : Nat) (x : RegRank) : (c.setRreg r x).cal = c.cal := rfl
@[simp] theorem Chip.setRreg_safety (c : Chip) (r : Nat) (x : RegRank) : (c.setRreg r x).safety = c.safety := rfl
@[simp] theorem Chip.setRreg_recov (c : Chip) (r : Nat) (x : RegRank) : (c.setRreg r x).recov = c.recov := rfl
@[simp] theorem Chip.setRreg_recorder (c : Chip) (r : Nat) (x : RegRank) : (c.setRreg r x).recorder = c.recorder := rfl
@[simp] theorem Chip.setRreg_start (c : Chip) (r : Nat) (x : RegRank) : (c.setRreg r x).start = c.start := rfl
@[simp] theorem Chip.setRreg_free (c : Chip) (r : Nat) (x : RegRank) : (c.setRreg r x).free = c.free := rfl
@[simp] theorem Chip.setPol_regs (c : Chip) (a : Nat) (x : PolSt) : (c.setPol a x).regs = c.regs := rfl
@[simp] theorem Chip.setPol_card (c : Chip) (a : Nat) (x : PolSt) : (c.setPol a x).card = c.card := rfl
@[simp] theorem Chip.setPol_time (c : Chip) (a : Nat) (x : PolSt) : (c.setPol a x).time = c.time := rfl
@[simp] theorem Chip.setPol_faults (c : Chip) (a : Nat) (x : PolSt) : (c.setPol a x).faults = c.faults := rfl
@[simp] theorem Chip.setPol_orders (c : Chip) (a : Nat) (x : PolSt) : (c.setPol a x).orders = c.orders := rfl
@[simp] theorem Chip.setPol_sched (c : Chip) (a : Nat) (x : PolSt) : (c.setPol a x).sched = c.sched := rfl
@[simp] theorem Chip.setPol_loop (c : Chip) (a : Nat) (x : PolSt) : (c.setPol a x).loop = c.loop := rfl
@[simp] theorem Chip.setPol_policy (c : Chip) (a : Nat) (x : PolSt) : (c.setPol a x).policy = c.policy := rfl
@[simp] theorem Chip.setPol_sweep (c : Chip) (a : Nat) (x : PolSt) : (c.setPol a x).sweep = c.sweep := rfl
@[simp] theorem Chip.setPol_cal (c : Chip) (a : Nat) (x : PolSt) : (c.setPol a x).cal = c.cal := rfl
@[simp] theorem Chip.setPol_safety (c : Chip) (a : Nat) (x : PolSt) : (c.setPol a x).safety = c.safety := rfl
@[simp] theorem Chip.setPol_recov (c : Chip) (a : Nat) (x : PolSt) : (c.setPol a x).recov = c.recov := rfl
@[simp] theorem Chip.setPol_recorder (c : Chip) (a : Nat) (x : PolSt) : (c.setPol a x).recorder = c.recorder := rfl
@[simp] theorem Chip.setPol_start (c : Chip) (a : Nat) (x : PolSt) : (c.setPol a x).start = c.start := rfl
@[simp] theorem Chip.setPol_free (c : Chip) (a : Nat) (x : PolSt) : (c.setPol a x).free = c.free := rfl

/-! ### The accessors after an update -/

@[simp] theorem Chip.wr_chan (c : Chip) (f : Fld) (v : Nat) (n' : Nat) : (c.wr f v).chan n' = c.chan n' := rfl
@[simp] theorem Chip.wr_port (c : Chip) (f : Fld) (v : Nat) (p' : Nat) : (c.wr f v).port p' = c.port p' := rfl
@[simp] theorem Chip.wr_stream (c : Chip) (f : Fld) (v : Nat) (p' st' : Nat) : (c.wr f v).stream p' st' = c.stream p' st' := rfl
@[simp] theorem Chip.wr_rlane (c : Chip) (f : Fld) (v : Nat) (g' e' : Nat) : (c.wr f v).rlane g' e' = c.rlane g' e' := rfl
@[simp] theorem Chip.wr_clane (c : Chip) (f : Fld) (v : Nat) (a' b' : Nat) : (c.wr f v).clane a' b' = c.clane a' b' := rfl
@[simp] theorem Chip.wr_laneTest (c : Chip) (f : Fld) (v : Nat) (r' : Nat) : (c.wr f v).laneTest r' = c.laneTest r' := rfl
@[simp] theorem Chip.wr_rope (c : Chip) (f : Fld) (v : Nat) (g' : Nat) : (c.wr f v).rope g' = c.rope g' := rfl
@[simp] theorem Chip.wr_posn (c : Chip) (f : Fld) (v : Nat) (a' : Nat) : (c.wr f v).posn a' = c.posn a' := rfl
@[simp] theorem Chip.wr_ct (c : Chip) (f : Fld) (v : Nat) (a' : Nat) : (c.wr f v).ct a' = c.ct a' := rfl
@[simp] theorem Chip.wr_cmd (c : Chip) (f : Fld) (v : Nat) (a' : Nat) : (c.wr f v).cmd a' = c.cmd a' := rfl
@[simp] theorem Chip.wr_gate (c : Chip) (f : Fld) (v : Nat) (a' : Nat) : (c.wr f v).gate a' = c.gate a' := rfl
@[simp] theorem Chip.wr_meas1 (c : Chip) (f : Fld) (v : Nat) (a' : Nat) : (c.wr f v).meas1 a' = c.meas1 a' := rfl
@[simp] theorem Chip.wr_corr (c : Chip) (f : Fld) (v : Nat) (a' k' : Nat) : (c.wr f v).corr a' k' = c.corr a' k' := rfl
@[simp] theorem Chip.wr_pack (c : Chip) (f : Fld) (v : Nat) (a' : Nat) : (c.wr f v).pack a' = c.pack a' := rfl
@[simp] theorem Chip.wr_ledger (c : Chip) (f : Fld) (v : Nat) (a' : Nat) : (c.wr f v).ledger a' = c.ledger a' := rfl
@[simp] theorem Chip.wr_can (c : Chip) (f : Fld) (v : Nat) (n' : Nat) : (c.wr f v).can n' = c.can n' := rfl
@[simp] theorem Chip.wr_bc (c : Chip) (f : Fld) (v : Nat) (a' : Nat) : (c.wr f v).bc a' = c.bc a' := rfl
@[simp] theorem Chip.wr_capture (c : Chip) (f : Fld) (v : Nat) (a' : Nat) : (c.wr f v).capture a' = c.capture a' := rfl
@[simp] theorem Chip.wr_xch (c : Chip) (f : Fld) (v : Nat) (a' : Nat) : (c.wr f v).xch a' = c.xch a' := rfl
@[simp] theorem Chip.wr_slot (c : Chip) (f : Fld) (v : Nat) (j' : Nat) : (c.wr f v).slot j' = c.slot j' := rfl
@[simp] theorem Chip.wr_rcell (c : Chip) (f : Fld) (v : Nat) (a' : Nat) : (c.wr f v).rcell a' = c.rcell a' := rfl
@[simp] theorem Chip.wr_rreg (c : Chip) (f : Fld) (v : Nat) (r' : Nat) : (c.wr f v).rreg r' = c.rreg r' := rfl
@[simp] theorem Chip.wr_pol (c : Chip) (f : Fld) (v : Nat) (a' : Nat) : (c.wr f v).pol a' = c.pol a' := rfl
@[simp] theorem Chip.wr_part (c : Chip) (f : Fld) (v : Nat) (a' : Nat) : (c.wr f v).part a' = c.part a' := rfl
@[simp] theorem Chip.setChan_rd (c : Chip) (n : Nat) (x : ChanSt) (f' : Fld) : (c.setChan n x).rd f' = c.rd f' := rfl
@[simp] theorem Chip.setChan_port (c : Chip) (n : Nat) (x : ChanSt) (p' : Nat) : (c.setChan n x).port p' = c.port p' := rfl
@[simp] theorem Chip.setChan_stream (c : Chip) (n : Nat) (x : ChanSt) (p' st' : Nat) : (c.setChan n x).stream p' st' = c.stream p' st' := rfl
@[simp] theorem Chip.setChan_rlane (c : Chip) (n : Nat) (x : ChanSt) (g' e' : Nat) : (c.setChan n x).rlane g' e' = c.rlane g' e' := rfl
@[simp] theorem Chip.setChan_clane (c : Chip) (n : Nat) (x : ChanSt) (a' b' : Nat) : (c.setChan n x).clane a' b' = c.clane a' b' := rfl
@[simp] theorem Chip.setChan_laneTest (c : Chip) (n : Nat) (x : ChanSt) (r' : Nat) : (c.setChan n x).laneTest r' = c.laneTest r' := rfl
@[simp] theorem Chip.setChan_rope (c : Chip) (n : Nat) (x : ChanSt) (g' : Nat) : (c.setChan n x).rope g' = c.rope g' := rfl
@[simp] theorem Chip.setChan_posn (c : Chip) (n : Nat) (x : ChanSt) (a' : Nat) : (c.setChan n x).posn a' = c.posn a' := rfl
@[simp] theorem Chip.setChan_ct (c : Chip) (n : Nat) (x : ChanSt) (a' : Nat) : (c.setChan n x).ct a' = c.ct a' := rfl
@[simp] theorem Chip.setChan_cmd (c : Chip) (n : Nat) (x : ChanSt) (a' : Nat) : (c.setChan n x).cmd a' = c.cmd a' := rfl
@[simp] theorem Chip.setChan_gate (c : Chip) (n : Nat) (x : ChanSt) (a' : Nat) : (c.setChan n x).gate a' = c.gate a' := rfl
@[simp] theorem Chip.setChan_meas1 (c : Chip) (n : Nat) (x : ChanSt) (a' : Nat) : (c.setChan n x).meas1 a' = c.meas1 a' := rfl
@[simp] theorem Chip.setChan_corr (c : Chip) (n : Nat) (x : ChanSt) (a' k' : Nat) : (c.setChan n x).corr a' k' = c.corr a' k' := rfl
@[simp] theorem Chip.setChan_pack (c : Chip) (n : Nat) (x : ChanSt) (a' : Nat) : (c.setChan n x).pack a' = c.pack a' := rfl
@[simp] theorem Chip.setChan_ledger (c : Chip) (n : Nat) (x : ChanSt) (a' : Nat) : (c.setChan n x).ledger a' = c.ledger a' := rfl
@[simp] theorem Chip.setChan_can (c : Chip) (n : Nat) (x : ChanSt) (n' : Nat) : (c.setChan n x).can n' = c.can n' := rfl
@[simp] theorem Chip.setChan_bc (c : Chip) (n : Nat) (x : ChanSt) (a' : Nat) : (c.setChan n x).bc a' = c.bc a' := rfl
@[simp] theorem Chip.setChan_capture (c : Chip) (n : Nat) (x : ChanSt) (a' : Nat) : (c.setChan n x).capture a' = c.capture a' := rfl
@[simp] theorem Chip.setChan_xch (c : Chip) (n : Nat) (x : ChanSt) (a' : Nat) : (c.setChan n x).xch a' = c.xch a' := rfl
@[simp] theorem Chip.setChan_slot (c : Chip) (n : Nat) (x : ChanSt) (j' : Nat) : (c.setChan n x).slot j' = c.slot j' := rfl
@[simp] theorem Chip.setChan_rcell (c : Chip) (n : Nat) (x : ChanSt) (a' : Nat) : (c.setChan n x).rcell a' = c.rcell a' := rfl
@[simp] theorem Chip.setChan_rreg (c : Chip) (n : Nat) (x : ChanSt) (r' : Nat) : (c.setChan n x).rreg r' = c.rreg r' := rfl
@[simp] theorem Chip.setChan_pol (c : Chip) (n : Nat) (x : ChanSt) (a' : Nat) : (c.setChan n x).pol a' = c.pol a' := rfl
@[simp] theorem Chip.setChan_part (c : Chip) (n : Nat) (x : ChanSt) (a' : Nat) : (c.setChan n x).part a' = c.part a' := rfl
@[simp] theorem Chip.setPort_rd (c : Chip) (p : Nat) (x : PortSt) (f' : Fld) : (c.setPort p x).rd f' = c.rd f' := rfl
@[simp] theorem Chip.setPort_chan (c : Chip) (p : Nat) (x : PortSt) (n' : Nat) : (c.setPort p x).chan n' = c.chan n' := rfl
@[simp] theorem Chip.setPort_stream (c : Chip) (p : Nat) (x : PortSt) (p' st' : Nat) : (c.setPort p x).stream p' st' = c.stream p' st' := rfl
@[simp] theorem Chip.setPort_rlane (c : Chip) (p : Nat) (x : PortSt) (g' e' : Nat) : (c.setPort p x).rlane g' e' = c.rlane g' e' := rfl
@[simp] theorem Chip.setPort_clane (c : Chip) (p : Nat) (x : PortSt) (a' b' : Nat) : (c.setPort p x).clane a' b' = c.clane a' b' := rfl
@[simp] theorem Chip.setPort_laneTest (c : Chip) (p : Nat) (x : PortSt) (r' : Nat) : (c.setPort p x).laneTest r' = c.laneTest r' := rfl
@[simp] theorem Chip.setPort_rope (c : Chip) (p : Nat) (x : PortSt) (g' : Nat) : (c.setPort p x).rope g' = c.rope g' := rfl
@[simp] theorem Chip.setPort_posn (c : Chip) (p : Nat) (x : PortSt) (a' : Nat) : (c.setPort p x).posn a' = c.posn a' := rfl
@[simp] theorem Chip.setPort_ct (c : Chip) (p : Nat) (x : PortSt) (a' : Nat) : (c.setPort p x).ct a' = c.ct a' := rfl
@[simp] theorem Chip.setPort_cmd (c : Chip) (p : Nat) (x : PortSt) (a' : Nat) : (c.setPort p x).cmd a' = c.cmd a' := rfl
@[simp] theorem Chip.setPort_gate (c : Chip) (p : Nat) (x : PortSt) (a' : Nat) : (c.setPort p x).gate a' = c.gate a' := rfl
@[simp] theorem Chip.setPort_meas1 (c : Chip) (p : Nat) (x : PortSt) (a' : Nat) : (c.setPort p x).meas1 a' = c.meas1 a' := rfl
@[simp] theorem Chip.setPort_corr (c : Chip) (p : Nat) (x : PortSt) (a' k' : Nat) : (c.setPort p x).corr a' k' = c.corr a' k' := rfl
@[simp] theorem Chip.setPort_pack (c : Chip) (p : Nat) (x : PortSt) (a' : Nat) : (c.setPort p x).pack a' = c.pack a' := rfl
@[simp] theorem Chip.setPort_ledger (c : Chip) (p : Nat) (x : PortSt) (a' : Nat) : (c.setPort p x).ledger a' = c.ledger a' := rfl
@[simp] theorem Chip.setPort_can (c : Chip) (p : Nat) (x : PortSt) (n' : Nat) : (c.setPort p x).can n' = c.can n' := rfl
@[simp] theorem Chip.setPort_bc (c : Chip) (p : Nat) (x : PortSt) (a' : Nat) : (c.setPort p x).bc a' = c.bc a' := rfl
@[simp] theorem Chip.setPort_capture (c : Chip) (p : Nat) (x : PortSt) (a' : Nat) : (c.setPort p x).capture a' = c.capture a' := rfl
@[simp] theorem Chip.setPort_xch (c : Chip) (p : Nat) (x : PortSt) (a' : Nat) : (c.setPort p x).xch a' = c.xch a' := rfl
@[simp] theorem Chip.setPort_slot (c : Chip) (p : Nat) (x : PortSt) (j' : Nat) : (c.setPort p x).slot j' = c.slot j' := rfl
@[simp] theorem Chip.setPort_rcell (c : Chip) (p : Nat) (x : PortSt) (a' : Nat) : (c.setPort p x).rcell a' = c.rcell a' := rfl
@[simp] theorem Chip.setPort_rreg (c : Chip) (p : Nat) (x : PortSt) (r' : Nat) : (c.setPort p x).rreg r' = c.rreg r' := rfl
@[simp] theorem Chip.setPort_pol (c : Chip) (p : Nat) (x : PortSt) (a' : Nat) : (c.setPort p x).pol a' = c.pol a' := rfl
@[simp] theorem Chip.setPort_part (c : Chip) (p : Nat) (x : PortSt) (a' : Nat) : (c.setPort p x).part a' = c.part a' := rfl
@[simp] theorem Chip.setStream_rd (c : Chip) (p st : Nat) (x : StreamSt) (f' : Fld) : (c.setStream p st x).rd f' = c.rd f' := rfl
@[simp] theorem Chip.setStream_chan (c : Chip) (p st : Nat) (x : StreamSt) (n' : Nat) : (c.setStream p st x).chan n' = c.chan n' := rfl
@[simp] theorem Chip.setStream_port (c : Chip) (p st : Nat) (x : StreamSt) (p' : Nat) : (c.setStream p st x).port p' = c.port p' := rfl
@[simp] theorem Chip.setStream_rlane (c : Chip) (p st : Nat) (x : StreamSt) (g' e' : Nat) : (c.setStream p st x).rlane g' e' = c.rlane g' e' := rfl
@[simp] theorem Chip.setStream_clane (c : Chip) (p st : Nat) (x : StreamSt) (a' b' : Nat) : (c.setStream p st x).clane a' b' = c.clane a' b' := rfl
@[simp] theorem Chip.setStream_laneTest (c : Chip) (p st : Nat) (x : StreamSt) (r' : Nat) : (c.setStream p st x).laneTest r' = c.laneTest r' := rfl
@[simp] theorem Chip.setStream_rope (c : Chip) (p st : Nat) (x : StreamSt) (g' : Nat) : (c.setStream p st x).rope g' = c.rope g' := rfl
@[simp] theorem Chip.setStream_posn (c : Chip) (p st : Nat) (x : StreamSt) (a' : Nat) : (c.setStream p st x).posn a' = c.posn a' := rfl
@[simp] theorem Chip.setStream_ct (c : Chip) (p st : Nat) (x : StreamSt) (a' : Nat) : (c.setStream p st x).ct a' = c.ct a' := rfl
@[simp] theorem Chip.setStream_cmd (c : Chip) (p st : Nat) (x : StreamSt) (a' : Nat) : (c.setStream p st x).cmd a' = c.cmd a' := rfl
@[simp] theorem Chip.setStream_gate (c : Chip) (p st : Nat) (x : StreamSt) (a' : Nat) : (c.setStream p st x).gate a' = c.gate a' := rfl
@[simp] theorem Chip.setStream_meas1 (c : Chip) (p st : Nat) (x : StreamSt) (a' : Nat) : (c.setStream p st x).meas1 a' = c.meas1 a' := rfl
@[simp] theorem Chip.setStream_corr (c : Chip) (p st : Nat) (x : StreamSt) (a' k' : Nat) : (c.setStream p st x).corr a' k' = c.corr a' k' := rfl
@[simp] theorem Chip.setStream_pack (c : Chip) (p st : Nat) (x : StreamSt) (a' : Nat) : (c.setStream p st x).pack a' = c.pack a' := rfl
@[simp] theorem Chip.setStream_ledger (c : Chip) (p st : Nat) (x : StreamSt) (a' : Nat) : (c.setStream p st x).ledger a' = c.ledger a' := rfl
@[simp] theorem Chip.setStream_can (c : Chip) (p st : Nat) (x : StreamSt) (n' : Nat) : (c.setStream p st x).can n' = c.can n' := rfl
@[simp] theorem Chip.setStream_bc (c : Chip) (p st : Nat) (x : StreamSt) (a' : Nat) : (c.setStream p st x).bc a' = c.bc a' := rfl
@[simp] theorem Chip.setStream_capture (c : Chip) (p st : Nat) (x : StreamSt) (a' : Nat) : (c.setStream p st x).capture a' = c.capture a' := rfl
@[simp] theorem Chip.setStream_xch (c : Chip) (p st : Nat) (x : StreamSt) (a' : Nat) : (c.setStream p st x).xch a' = c.xch a' := rfl
@[simp] theorem Chip.setStream_slot (c : Chip) (p st : Nat) (x : StreamSt) (j' : Nat) : (c.setStream p st x).slot j' = c.slot j' := rfl
@[simp] theorem Chip.setStream_rcell (c : Chip) (p st : Nat) (x : StreamSt) (a' : Nat) : (c.setStream p st x).rcell a' = c.rcell a' := rfl
@[simp] theorem Chip.setStream_rreg (c : Chip) (p st : Nat) (x : StreamSt) (r' : Nat) : (c.setStream p st x).rreg r' = c.rreg r' := rfl
@[simp] theorem Chip.setStream_pol (c : Chip) (p st : Nat) (x : StreamSt) (a' : Nat) : (c.setStream p st x).pol a' = c.pol a' := rfl
@[simp] theorem Chip.setStream_part (c : Chip) (p st : Nat) (x : StreamSt) (a' : Nat) : (c.setStream p st x).part a' = c.part a' := rfl
@[simp] theorem Chip.setRlane_rd (c : Chip) (g e : Nat) (x : RLaneSt) (f' : Fld) : (c.setRlane g e x).rd f' = c.rd f' := rfl
@[simp] theorem Chip.setRlane_chan (c : Chip) (g e : Nat) (x : RLaneSt) (n' : Nat) : (c.setRlane g e x).chan n' = c.chan n' := rfl
@[simp] theorem Chip.setRlane_port (c : Chip) (g e : Nat) (x : RLaneSt) (p' : Nat) : (c.setRlane g e x).port p' = c.port p' := rfl
@[simp] theorem Chip.setRlane_stream (c : Chip) (g e : Nat) (x : RLaneSt) (p' st' : Nat) : (c.setRlane g e x).stream p' st' = c.stream p' st' := rfl
@[simp] theorem Chip.setRlane_clane (c : Chip) (g e : Nat) (x : RLaneSt) (a' b' : Nat) : (c.setRlane g e x).clane a' b' = c.clane a' b' := rfl
@[simp] theorem Chip.setRlane_laneTest (c : Chip) (g e : Nat) (x : RLaneSt) (r' : Nat) : (c.setRlane g e x).laneTest r' = c.laneTest r' := rfl
@[simp] theorem Chip.setRlane_rope (c : Chip) (g e : Nat) (x : RLaneSt) (g' : Nat) : (c.setRlane g e x).rope g' = c.rope g' := rfl
@[simp] theorem Chip.setRlane_posn (c : Chip) (g e : Nat) (x : RLaneSt) (a' : Nat) : (c.setRlane g e x).posn a' = c.posn a' := rfl
@[simp] theorem Chip.setRlane_ct (c : Chip) (g e : Nat) (x : RLaneSt) (a' : Nat) : (c.setRlane g e x).ct a' = c.ct a' := rfl
@[simp] theorem Chip.setRlane_cmd (c : Chip) (g e : Nat) (x : RLaneSt) (a' : Nat) : (c.setRlane g e x).cmd a' = c.cmd a' := rfl
@[simp] theorem Chip.setRlane_gate (c : Chip) (g e : Nat) (x : RLaneSt) (a' : Nat) : (c.setRlane g e x).gate a' = c.gate a' := rfl
@[simp] theorem Chip.setRlane_meas1 (c : Chip) (g e : Nat) (x : RLaneSt) (a' : Nat) : (c.setRlane g e x).meas1 a' = c.meas1 a' := rfl
@[simp] theorem Chip.setRlane_corr (c : Chip) (g e : Nat) (x : RLaneSt) (a' k' : Nat) : (c.setRlane g e x).corr a' k' = c.corr a' k' := rfl
@[simp] theorem Chip.setRlane_pack (c : Chip) (g e : Nat) (x : RLaneSt) (a' : Nat) : (c.setRlane g e x).pack a' = c.pack a' := rfl
@[simp] theorem Chip.setRlane_ledger (c : Chip) (g e : Nat) (x : RLaneSt) (a' : Nat) : (c.setRlane g e x).ledger a' = c.ledger a' := rfl
@[simp] theorem Chip.setRlane_can (c : Chip) (g e : Nat) (x : RLaneSt) (n' : Nat) : (c.setRlane g e x).can n' = c.can n' := rfl
@[simp] theorem Chip.setRlane_bc (c : Chip) (g e : Nat) (x : RLaneSt) (a' : Nat) : (c.setRlane g e x).bc a' = c.bc a' := rfl
@[simp] theorem Chip.setRlane_capture (c : Chip) (g e : Nat) (x : RLaneSt) (a' : Nat) : (c.setRlane g e x).capture a' = c.capture a' := rfl
@[simp] theorem Chip.setRlane_xch (c : Chip) (g e : Nat) (x : RLaneSt) (a' : Nat) : (c.setRlane g e x).xch a' = c.xch a' := rfl
@[simp] theorem Chip.setRlane_slot (c : Chip) (g e : Nat) (x : RLaneSt) (j' : Nat) : (c.setRlane g e x).slot j' = c.slot j' := rfl
@[simp] theorem Chip.setRlane_rcell (c : Chip) (g e : Nat) (x : RLaneSt) (a' : Nat) : (c.setRlane g e x).rcell a' = c.rcell a' := rfl
@[simp] theorem Chip.setRlane_rreg (c : Chip) (g e : Nat) (x : RLaneSt) (r' : Nat) : (c.setRlane g e x).rreg r' = c.rreg r' := rfl
@[simp] theorem Chip.setRlane_pol (c : Chip) (g e : Nat) (x : RLaneSt) (a' : Nat) : (c.setRlane g e x).pol a' = c.pol a' := rfl
@[simp] theorem Chip.setRlane_part (c : Chip) (g e : Nat) (x : RLaneSt) (a' : Nat) : (c.setRlane g e x).part a' = c.part a' := rfl
@[simp] theorem Chip.setClane_rd (c : Chip) (a b : Nat) (x : CLaneSt) (f' : Fld) : (c.setClane a b x).rd f' = c.rd f' := rfl
@[simp] theorem Chip.setClane_chan (c : Chip) (a b : Nat) (x : CLaneSt) (n' : Nat) : (c.setClane a b x).chan n' = c.chan n' := rfl
@[simp] theorem Chip.setClane_port (c : Chip) (a b : Nat) (x : CLaneSt) (p' : Nat) : (c.setClane a b x).port p' = c.port p' := rfl
@[simp] theorem Chip.setClane_stream (c : Chip) (a b : Nat) (x : CLaneSt) (p' st' : Nat) : (c.setClane a b x).stream p' st' = c.stream p' st' := rfl
@[simp] theorem Chip.setClane_rlane (c : Chip) (a b : Nat) (x : CLaneSt) (g' e' : Nat) : (c.setClane a b x).rlane g' e' = c.rlane g' e' := rfl
@[simp] theorem Chip.setClane_laneTest (c : Chip) (a b : Nat) (x : CLaneSt) (r' : Nat) : (c.setClane a b x).laneTest r' = c.laneTest r' := rfl
@[simp] theorem Chip.setClane_rope (c : Chip) (a b : Nat) (x : CLaneSt) (g' : Nat) : (c.setClane a b x).rope g' = c.rope g' := rfl
@[simp] theorem Chip.setClane_posn (c : Chip) (a b : Nat) (x : CLaneSt) (a' : Nat) : (c.setClane a b x).posn a' = c.posn a' := rfl
@[simp] theorem Chip.setClane_ct (c : Chip) (a b : Nat) (x : CLaneSt) (a' : Nat) : (c.setClane a b x).ct a' = c.ct a' := rfl
@[simp] theorem Chip.setClane_cmd (c : Chip) (a b : Nat) (x : CLaneSt) (a' : Nat) : (c.setClane a b x).cmd a' = c.cmd a' := rfl
@[simp] theorem Chip.setClane_gate (c : Chip) (a b : Nat) (x : CLaneSt) (a' : Nat) : (c.setClane a b x).gate a' = c.gate a' := rfl
@[simp] theorem Chip.setClane_meas1 (c : Chip) (a b : Nat) (x : CLaneSt) (a' : Nat) : (c.setClane a b x).meas1 a' = c.meas1 a' := rfl
@[simp] theorem Chip.setClane_corr (c : Chip) (a b : Nat) (x : CLaneSt) (a' k' : Nat) : (c.setClane a b x).corr a' k' = c.corr a' k' := rfl
@[simp] theorem Chip.setClane_pack (c : Chip) (a b : Nat) (x : CLaneSt) (a' : Nat) : (c.setClane a b x).pack a' = c.pack a' := rfl
@[simp] theorem Chip.setClane_ledger (c : Chip) (a b : Nat) (x : CLaneSt) (a' : Nat) : (c.setClane a b x).ledger a' = c.ledger a' := rfl
@[simp] theorem Chip.setClane_can (c : Chip) (a b : Nat) (x : CLaneSt) (n' : Nat) : (c.setClane a b x).can n' = c.can n' := rfl
@[simp] theorem Chip.setClane_bc (c : Chip) (a b : Nat) (x : CLaneSt) (a' : Nat) : (c.setClane a b x).bc a' = c.bc a' := rfl
@[simp] theorem Chip.setClane_capture (c : Chip) (a b : Nat) (x : CLaneSt) (a' : Nat) : (c.setClane a b x).capture a' = c.capture a' := rfl
@[simp] theorem Chip.setClane_xch (c : Chip) (a b : Nat) (x : CLaneSt) (a' : Nat) : (c.setClane a b x).xch a' = c.xch a' := rfl
@[simp] theorem Chip.setClane_slot (c : Chip) (a b : Nat) (x : CLaneSt) (j' : Nat) : (c.setClane a b x).slot j' = c.slot j' := rfl
@[simp] theorem Chip.setClane_rcell (c : Chip) (a b : Nat) (x : CLaneSt) (a' : Nat) : (c.setClane a b x).rcell a' = c.rcell a' := rfl
@[simp] theorem Chip.setClane_rreg (c : Chip) (a b : Nat) (x : CLaneSt) (r' : Nat) : (c.setClane a b x).rreg r' = c.rreg r' := rfl
@[simp] theorem Chip.setClane_pol (c : Chip) (a b : Nat) (x : CLaneSt) (a' : Nat) : (c.setClane a b x).pol a' = c.pol a' := rfl
@[simp] theorem Chip.setClane_part (c : Chip) (a b : Nat) (x : CLaneSt) (a' : Nat) : (c.setClane a b x).part a' = c.part a' := rfl
@[simp] theorem Chip.setLaneTest_rd (c : Chip) (r : Nat) (x : LaneTestSt) (f' : Fld) : (c.setLaneTest r x).rd f' = c.rd f' := rfl
@[simp] theorem Chip.setLaneTest_chan (c : Chip) (r : Nat) (x : LaneTestSt) (n' : Nat) : (c.setLaneTest r x).chan n' = c.chan n' := rfl
@[simp] theorem Chip.setLaneTest_port (c : Chip) (r : Nat) (x : LaneTestSt) (p' : Nat) : (c.setLaneTest r x).port p' = c.port p' := rfl
@[simp] theorem Chip.setLaneTest_stream (c : Chip) (r : Nat) (x : LaneTestSt) (p' st' : Nat) : (c.setLaneTest r x).stream p' st' = c.stream p' st' := rfl
@[simp] theorem Chip.setLaneTest_rlane (c : Chip) (r : Nat) (x : LaneTestSt) (g' e' : Nat) : (c.setLaneTest r x).rlane g' e' = c.rlane g' e' := rfl
@[simp] theorem Chip.setLaneTest_clane (c : Chip) (r : Nat) (x : LaneTestSt) (a' b' : Nat) : (c.setLaneTest r x).clane a' b' = c.clane a' b' := rfl
@[simp] theorem Chip.setLaneTest_rope (c : Chip) (r : Nat) (x : LaneTestSt) (g' : Nat) : (c.setLaneTest r x).rope g' = c.rope g' := rfl
@[simp] theorem Chip.setLaneTest_posn (c : Chip) (r : Nat) (x : LaneTestSt) (a' : Nat) : (c.setLaneTest r x).posn a' = c.posn a' := rfl
@[simp] theorem Chip.setLaneTest_ct (c : Chip) (r : Nat) (x : LaneTestSt) (a' : Nat) : (c.setLaneTest r x).ct a' = c.ct a' := rfl
@[simp] theorem Chip.setLaneTest_cmd (c : Chip) (r : Nat) (x : LaneTestSt) (a' : Nat) : (c.setLaneTest r x).cmd a' = c.cmd a' := rfl
@[simp] theorem Chip.setLaneTest_gate (c : Chip) (r : Nat) (x : LaneTestSt) (a' : Nat) : (c.setLaneTest r x).gate a' = c.gate a' := rfl
@[simp] theorem Chip.setLaneTest_meas1 (c : Chip) (r : Nat) (x : LaneTestSt) (a' : Nat) : (c.setLaneTest r x).meas1 a' = c.meas1 a' := rfl
@[simp] theorem Chip.setLaneTest_corr (c : Chip) (r : Nat) (x : LaneTestSt) (a' k' : Nat) : (c.setLaneTest r x).corr a' k' = c.corr a' k' := rfl
@[simp] theorem Chip.setLaneTest_pack (c : Chip) (r : Nat) (x : LaneTestSt) (a' : Nat) : (c.setLaneTest r x).pack a' = c.pack a' := rfl
@[simp] theorem Chip.setLaneTest_ledger (c : Chip) (r : Nat) (x : LaneTestSt) (a' : Nat) : (c.setLaneTest r x).ledger a' = c.ledger a' := rfl
@[simp] theorem Chip.setLaneTest_can (c : Chip) (r : Nat) (x : LaneTestSt) (n' : Nat) : (c.setLaneTest r x).can n' = c.can n' := rfl
@[simp] theorem Chip.setLaneTest_bc (c : Chip) (r : Nat) (x : LaneTestSt) (a' : Nat) : (c.setLaneTest r x).bc a' = c.bc a' := rfl
@[simp] theorem Chip.setLaneTest_capture (c : Chip) (r : Nat) (x : LaneTestSt) (a' : Nat) : (c.setLaneTest r x).capture a' = c.capture a' := rfl
@[simp] theorem Chip.setLaneTest_xch (c : Chip) (r : Nat) (x : LaneTestSt) (a' : Nat) : (c.setLaneTest r x).xch a' = c.xch a' := rfl
@[simp] theorem Chip.setLaneTest_slot (c : Chip) (r : Nat) (x : LaneTestSt) (j' : Nat) : (c.setLaneTest r x).slot j' = c.slot j' := rfl
@[simp] theorem Chip.setLaneTest_rcell (c : Chip) (r : Nat) (x : LaneTestSt) (a' : Nat) : (c.setLaneTest r x).rcell a' = c.rcell a' := rfl
@[simp] theorem Chip.setLaneTest_rreg (c : Chip) (r : Nat) (x : LaneTestSt) (r' : Nat) : (c.setLaneTest r x).rreg r' = c.rreg r' := rfl
@[simp] theorem Chip.setLaneTest_pol (c : Chip) (r : Nat) (x : LaneTestSt) (a' : Nat) : (c.setLaneTest r x).pol a' = c.pol a' := rfl
@[simp] theorem Chip.setLaneTest_part (c : Chip) (r : Nat) (x : LaneTestSt) (a' : Nat) : (c.setLaneTest r x).part a' = c.part a' := rfl
@[simp] theorem Chip.setRope_rd (c : Chip) (g : Nat) (x : RopeSt) (f' : Fld) : (c.setRope g x).rd f' = c.rd f' := rfl
@[simp] theorem Chip.setRope_chan (c : Chip) (g : Nat) (x : RopeSt) (n' : Nat) : (c.setRope g x).chan n' = c.chan n' := rfl
@[simp] theorem Chip.setRope_port (c : Chip) (g : Nat) (x : RopeSt) (p' : Nat) : (c.setRope g x).port p' = c.port p' := rfl
@[simp] theorem Chip.setRope_stream (c : Chip) (g : Nat) (x : RopeSt) (p' st' : Nat) : (c.setRope g x).stream p' st' = c.stream p' st' := rfl
@[simp] theorem Chip.setRope_rlane (c : Chip) (g : Nat) (x : RopeSt) (g' e' : Nat) : (c.setRope g x).rlane g' e' = c.rlane g' e' := rfl
@[simp] theorem Chip.setRope_clane (c : Chip) (g : Nat) (x : RopeSt) (a' b' : Nat) : (c.setRope g x).clane a' b' = c.clane a' b' := rfl
@[simp] theorem Chip.setRope_laneTest (c : Chip) (g : Nat) (x : RopeSt) (r' : Nat) : (c.setRope g x).laneTest r' = c.laneTest r' := rfl
@[simp] theorem Chip.setRope_posn (c : Chip) (g : Nat) (x : RopeSt) (a' : Nat) : (c.setRope g x).posn a' = c.posn a' := rfl
@[simp] theorem Chip.setRope_ct (c : Chip) (g : Nat) (x : RopeSt) (a' : Nat) : (c.setRope g x).ct a' = c.ct a' := rfl
@[simp] theorem Chip.setRope_cmd (c : Chip) (g : Nat) (x : RopeSt) (a' : Nat) : (c.setRope g x).cmd a' = c.cmd a' := rfl
@[simp] theorem Chip.setRope_gate (c : Chip) (g : Nat) (x : RopeSt) (a' : Nat) : (c.setRope g x).gate a' = c.gate a' := rfl
@[simp] theorem Chip.setRope_meas1 (c : Chip) (g : Nat) (x : RopeSt) (a' : Nat) : (c.setRope g x).meas1 a' = c.meas1 a' := rfl
@[simp] theorem Chip.setRope_corr (c : Chip) (g : Nat) (x : RopeSt) (a' k' : Nat) : (c.setRope g x).corr a' k' = c.corr a' k' := rfl
@[simp] theorem Chip.setRope_pack (c : Chip) (g : Nat) (x : RopeSt) (a' : Nat) : (c.setRope g x).pack a' = c.pack a' := rfl
@[simp] theorem Chip.setRope_ledger (c : Chip) (g : Nat) (x : RopeSt) (a' : Nat) : (c.setRope g x).ledger a' = c.ledger a' := rfl
@[simp] theorem Chip.setRope_can (c : Chip) (g : Nat) (x : RopeSt) (n' : Nat) : (c.setRope g x).can n' = c.can n' := rfl
@[simp] theorem Chip.setRope_bc (c : Chip) (g : Nat) (x : RopeSt) (a' : Nat) : (c.setRope g x).bc a' = c.bc a' := rfl
@[simp] theorem Chip.setRope_capture (c : Chip) (g : Nat) (x : RopeSt) (a' : Nat) : (c.setRope g x).capture a' = c.capture a' := rfl
@[simp] theorem Chip.setRope_xch (c : Chip) (g : Nat) (x : RopeSt) (a' : Nat) : (c.setRope g x).xch a' = c.xch a' := rfl
@[simp] theorem Chip.setRope_slot (c : Chip) (g : Nat) (x : RopeSt) (j' : Nat) : (c.setRope g x).slot j' = c.slot j' := rfl
@[simp] theorem Chip.setRope_rcell (c : Chip) (g : Nat) (x : RopeSt) (a' : Nat) : (c.setRope g x).rcell a' = c.rcell a' := rfl
@[simp] theorem Chip.setRope_rreg (c : Chip) (g : Nat) (x : RopeSt) (r' : Nat) : (c.setRope g x).rreg r' = c.rreg r' := rfl
@[simp] theorem Chip.setRope_pol (c : Chip) (g : Nat) (x : RopeSt) (a' : Nat) : (c.setRope g x).pol a' = c.pol a' := rfl
@[simp] theorem Chip.setRope_part (c : Chip) (g : Nat) (x : RopeSt) (a' : Nat) : (c.setRope g x).part a' = c.part a' := rfl
@[simp] theorem Chip.setAt_rd (c : Chip) (a : Nat) (x : PosSt) (f' : Fld) : (c.setAt a x).rd f' = c.rd f' := rfl
@[simp] theorem Chip.setAt_chan (c : Chip) (a : Nat) (x : PosSt) (n' : Nat) : (c.setAt a x).chan n' = c.chan n' := rfl
@[simp] theorem Chip.setAt_port (c : Chip) (a : Nat) (x : PosSt) (p' : Nat) : (c.setAt a x).port p' = c.port p' := rfl
@[simp] theorem Chip.setAt_stream (c : Chip) (a : Nat) (x : PosSt) (p' st' : Nat) : (c.setAt a x).stream p' st' = c.stream p' st' := rfl
@[simp] theorem Chip.setAt_rlane (c : Chip) (a : Nat) (x : PosSt) (g' e' : Nat) : (c.setAt a x).rlane g' e' = c.rlane g' e' := rfl
@[simp] theorem Chip.setAt_clane (c : Chip) (a : Nat) (x : PosSt) (a' b' : Nat) : (c.setAt a x).clane a' b' = c.clane a' b' := rfl
@[simp] theorem Chip.setAt_laneTest (c : Chip) (a : Nat) (x : PosSt) (r' : Nat) : (c.setAt a x).laneTest r' = c.laneTest r' := rfl
@[simp] theorem Chip.setAt_rope (c : Chip) (a : Nat) (x : PosSt) (g' : Nat) : (c.setAt a x).rope g' = c.rope g' := rfl
@[simp] theorem Chip.setAt_ct (c : Chip) (a : Nat) (x : PosSt) (a' : Nat) : (c.setAt a x).ct a' = c.ct a' := rfl
@[simp] theorem Chip.setAt_cmd (c : Chip) (a : Nat) (x : PosSt) (a' : Nat) : (c.setAt a x).cmd a' = c.cmd a' := rfl
@[simp] theorem Chip.setAt_gate (c : Chip) (a : Nat) (x : PosSt) (a' : Nat) : (c.setAt a x).gate a' = c.gate a' := rfl
@[simp] theorem Chip.setAt_meas1 (c : Chip) (a : Nat) (x : PosSt) (a' : Nat) : (c.setAt a x).meas1 a' = c.meas1 a' := rfl
@[simp] theorem Chip.setAt_corr (c : Chip) (a : Nat) (x : PosSt) (a' k' : Nat) : (c.setAt a x).corr a' k' = c.corr a' k' := rfl
@[simp] theorem Chip.setAt_pack (c : Chip) (a : Nat) (x : PosSt) (a' : Nat) : (c.setAt a x).pack a' = c.pack a' := rfl
@[simp] theorem Chip.setAt_ledger (c : Chip) (a : Nat) (x : PosSt) (a' : Nat) : (c.setAt a x).ledger a' = c.ledger a' := rfl
@[simp] theorem Chip.setAt_can (c : Chip) (a : Nat) (x : PosSt) (n' : Nat) : (c.setAt a x).can n' = c.can n' := rfl
@[simp] theorem Chip.setAt_bc (c : Chip) (a : Nat) (x : PosSt) (a' : Nat) : (c.setAt a x).bc a' = c.bc a' := rfl
@[simp] theorem Chip.setAt_capture (c : Chip) (a : Nat) (x : PosSt) (a' : Nat) : (c.setAt a x).capture a' = c.capture a' := rfl
@[simp] theorem Chip.setAt_xch (c : Chip) (a : Nat) (x : PosSt) (a' : Nat) : (c.setAt a x).xch a' = c.xch a' := rfl
@[simp] theorem Chip.setAt_slot (c : Chip) (a : Nat) (x : PosSt) (j' : Nat) : (c.setAt a x).slot j' = c.slot j' := rfl
@[simp] theorem Chip.setAt_rcell (c : Chip) (a : Nat) (x : PosSt) (a' : Nat) : (c.setAt a x).rcell a' = c.rcell a' := rfl
@[simp] theorem Chip.setAt_rreg (c : Chip) (a : Nat) (x : PosSt) (r' : Nat) : (c.setAt a x).rreg r' = c.rreg r' := rfl
@[simp] theorem Chip.setAt_pol (c : Chip) (a : Nat) (x : PosSt) (a' : Nat) : (c.setAt a x).pol a' = c.pol a' := rfl
@[simp] theorem Chip.setAt_part (c : Chip) (a : Nat) (x : PosSt) (a' : Nat) : (c.setAt a x).part a' = c.part a' := rfl
@[simp] theorem Chip.setCt_rd (c : Chip) (a : Nat) (x : CTimeSt) (f' : Fld) : (c.setCt a x).rd f' = c.rd f' := rfl
@[simp] theorem Chip.setCt_chan (c : Chip) (a : Nat) (x : CTimeSt) (n' : Nat) : (c.setCt a x).chan n' = c.chan n' := rfl
@[simp] theorem Chip.setCt_port (c : Chip) (a : Nat) (x : CTimeSt) (p' : Nat) : (c.setCt a x).port p' = c.port p' := rfl
@[simp] theorem Chip.setCt_stream (c : Chip) (a : Nat) (x : CTimeSt) (p' st' : Nat) : (c.setCt a x).stream p' st' = c.stream p' st' := rfl
@[simp] theorem Chip.setCt_rlane (c : Chip) (a : Nat) (x : CTimeSt) (g' e' : Nat) : (c.setCt a x).rlane g' e' = c.rlane g' e' := rfl
@[simp] theorem Chip.setCt_clane (c : Chip) (a : Nat) (x : CTimeSt) (a' b' : Nat) : (c.setCt a x).clane a' b' = c.clane a' b' := rfl
@[simp] theorem Chip.setCt_laneTest (c : Chip) (a : Nat) (x : CTimeSt) (r' : Nat) : (c.setCt a x).laneTest r' = c.laneTest r' := rfl
@[simp] theorem Chip.setCt_rope (c : Chip) (a : Nat) (x : CTimeSt) (g' : Nat) : (c.setCt a x).rope g' = c.rope g' := rfl
@[simp] theorem Chip.setCt_posn (c : Chip) (a : Nat) (x : CTimeSt) (a' : Nat) : (c.setCt a x).posn a' = c.posn a' := rfl
@[simp] theorem Chip.setCt_cmd (c : Chip) (a : Nat) (x : CTimeSt) (a' : Nat) : (c.setCt a x).cmd a' = c.cmd a' := rfl
@[simp] theorem Chip.setCt_gate (c : Chip) (a : Nat) (x : CTimeSt) (a' : Nat) : (c.setCt a x).gate a' = c.gate a' := rfl
@[simp] theorem Chip.setCt_meas1 (c : Chip) (a : Nat) (x : CTimeSt) (a' : Nat) : (c.setCt a x).meas1 a' = c.meas1 a' := rfl
@[simp] theorem Chip.setCt_corr (c : Chip) (a : Nat) (x : CTimeSt) (a' k' : Nat) : (c.setCt a x).corr a' k' = c.corr a' k' := rfl
@[simp] theorem Chip.setCt_pack (c : Chip) (a : Nat) (x : CTimeSt) (a' : Nat) : (c.setCt a x).pack a' = c.pack a' := rfl
@[simp] theorem Chip.setCt_ledger (c : Chip) (a : Nat) (x : CTimeSt) (a' : Nat) : (c.setCt a x).ledger a' = c.ledger a' := rfl
@[simp] theorem Chip.setCt_can (c : Chip) (a : Nat) (x : CTimeSt) (n' : Nat) : (c.setCt a x).can n' = c.can n' := rfl
@[simp] theorem Chip.setCt_bc (c : Chip) (a : Nat) (x : CTimeSt) (a' : Nat) : (c.setCt a x).bc a' = c.bc a' := rfl
@[simp] theorem Chip.setCt_capture (c : Chip) (a : Nat) (x : CTimeSt) (a' : Nat) : (c.setCt a x).capture a' = c.capture a' := rfl
@[simp] theorem Chip.setCt_xch (c : Chip) (a : Nat) (x : CTimeSt) (a' : Nat) : (c.setCt a x).xch a' = c.xch a' := rfl
@[simp] theorem Chip.setCt_slot (c : Chip) (a : Nat) (x : CTimeSt) (j' : Nat) : (c.setCt a x).slot j' = c.slot j' := rfl
@[simp] theorem Chip.setCt_rcell (c : Chip) (a : Nat) (x : CTimeSt) (a' : Nat) : (c.setCt a x).rcell a' = c.rcell a' := rfl
@[simp] theorem Chip.setCt_rreg (c : Chip) (a : Nat) (x : CTimeSt) (r' : Nat) : (c.setCt a x).rreg r' = c.rreg r' := rfl
@[simp] theorem Chip.setCt_pol (c : Chip) (a : Nat) (x : CTimeSt) (a' : Nat) : (c.setCt a x).pol a' = c.pol a' := rfl
@[simp] theorem Chip.setCt_part (c : Chip) (a : Nat) (x : CTimeSt) (a' : Nat) : (c.setCt a x).part a' = c.part a' := rfl
@[simp] theorem Chip.setCmd_rd (c : Chip) (a : Nat) (x : CCmdSt) (f' : Fld) : (c.setCmd a x).rd f' = c.rd f' := rfl
@[simp] theorem Chip.setCmd_chan (c : Chip) (a : Nat) (x : CCmdSt) (n' : Nat) : (c.setCmd a x).chan n' = c.chan n' := rfl
@[simp] theorem Chip.setCmd_port (c : Chip) (a : Nat) (x : CCmdSt) (p' : Nat) : (c.setCmd a x).port p' = c.port p' := rfl
@[simp] theorem Chip.setCmd_stream (c : Chip) (a : Nat) (x : CCmdSt) (p' st' : Nat) : (c.setCmd a x).stream p' st' = c.stream p' st' := rfl
@[simp] theorem Chip.setCmd_rlane (c : Chip) (a : Nat) (x : CCmdSt) (g' e' : Nat) : (c.setCmd a x).rlane g' e' = c.rlane g' e' := rfl
@[simp] theorem Chip.setCmd_clane (c : Chip) (a : Nat) (x : CCmdSt) (a' b' : Nat) : (c.setCmd a x).clane a' b' = c.clane a' b' := rfl
@[simp] theorem Chip.setCmd_laneTest (c : Chip) (a : Nat) (x : CCmdSt) (r' : Nat) : (c.setCmd a x).laneTest r' = c.laneTest r' := rfl
@[simp] theorem Chip.setCmd_rope (c : Chip) (a : Nat) (x : CCmdSt) (g' : Nat) : (c.setCmd a x).rope g' = c.rope g' := rfl
@[simp] theorem Chip.setCmd_posn (c : Chip) (a : Nat) (x : CCmdSt) (a' : Nat) : (c.setCmd a x).posn a' = c.posn a' := rfl
@[simp] theorem Chip.setCmd_ct (c : Chip) (a : Nat) (x : CCmdSt) (a' : Nat) : (c.setCmd a x).ct a' = c.ct a' := rfl
@[simp] theorem Chip.setCmd_gate (c : Chip) (a : Nat) (x : CCmdSt) (a' : Nat) : (c.setCmd a x).gate a' = c.gate a' := rfl
@[simp] theorem Chip.setCmd_meas1 (c : Chip) (a : Nat) (x : CCmdSt) (a' : Nat) : (c.setCmd a x).meas1 a' = c.meas1 a' := rfl
@[simp] theorem Chip.setCmd_corr (c : Chip) (a : Nat) (x : CCmdSt) (a' k' : Nat) : (c.setCmd a x).corr a' k' = c.corr a' k' := rfl
@[simp] theorem Chip.setCmd_pack (c : Chip) (a : Nat) (x : CCmdSt) (a' : Nat) : (c.setCmd a x).pack a' = c.pack a' := rfl
@[simp] theorem Chip.setCmd_ledger (c : Chip) (a : Nat) (x : CCmdSt) (a' : Nat) : (c.setCmd a x).ledger a' = c.ledger a' := rfl
@[simp] theorem Chip.setCmd_can (c : Chip) (a : Nat) (x : CCmdSt) (n' : Nat) : (c.setCmd a x).can n' = c.can n' := rfl
@[simp] theorem Chip.setCmd_bc (c : Chip) (a : Nat) (x : CCmdSt) (a' : Nat) : (c.setCmd a x).bc a' = c.bc a' := rfl
@[simp] theorem Chip.setCmd_capture (c : Chip) (a : Nat) (x : CCmdSt) (a' : Nat) : (c.setCmd a x).capture a' = c.capture a' := rfl
@[simp] theorem Chip.setCmd_xch (c : Chip) (a : Nat) (x : CCmdSt) (a' : Nat) : (c.setCmd a x).xch a' = c.xch a' := rfl
@[simp] theorem Chip.setCmd_slot (c : Chip) (a : Nat) (x : CCmdSt) (j' : Nat) : (c.setCmd a x).slot j' = c.slot j' := rfl
@[simp] theorem Chip.setCmd_rcell (c : Chip) (a : Nat) (x : CCmdSt) (a' : Nat) : (c.setCmd a x).rcell a' = c.rcell a' := rfl
@[simp] theorem Chip.setCmd_rreg (c : Chip) (a : Nat) (x : CCmdSt) (r' : Nat) : (c.setCmd a x).rreg r' = c.rreg r' := rfl
@[simp] theorem Chip.setCmd_pol (c : Chip) (a : Nat) (x : CCmdSt) (a' : Nat) : (c.setCmd a x).pol a' = c.pol a' := rfl
@[simp] theorem Chip.setCmd_part (c : Chip) (a : Nat) (x : CCmdSt) (a' : Nat) : (c.setCmd a x).part a' = c.part a' := rfl
@[simp] theorem Chip.setGate_rd (c : Chip) (a : Nat) (x : GateSt) (f' : Fld) : (c.setGate a x).rd f' = c.rd f' := rfl
@[simp] theorem Chip.setGate_chan (c : Chip) (a : Nat) (x : GateSt) (n' : Nat) : (c.setGate a x).chan n' = c.chan n' := rfl
@[simp] theorem Chip.setGate_port (c : Chip) (a : Nat) (x : GateSt) (p' : Nat) : (c.setGate a x).port p' = c.port p' := rfl
@[simp] theorem Chip.setGate_stream (c : Chip) (a : Nat) (x : GateSt) (p' st' : Nat) : (c.setGate a x).stream p' st' = c.stream p' st' := rfl
@[simp] theorem Chip.setGate_rlane (c : Chip) (a : Nat) (x : GateSt) (g' e' : Nat) : (c.setGate a x).rlane g' e' = c.rlane g' e' := rfl
@[simp] theorem Chip.setGate_clane (c : Chip) (a : Nat) (x : GateSt) (a' b' : Nat) : (c.setGate a x).clane a' b' = c.clane a' b' := rfl
@[simp] theorem Chip.setGate_laneTest (c : Chip) (a : Nat) (x : GateSt) (r' : Nat) : (c.setGate a x).laneTest r' = c.laneTest r' := rfl
@[simp] theorem Chip.setGate_rope (c : Chip) (a : Nat) (x : GateSt) (g' : Nat) : (c.setGate a x).rope g' = c.rope g' := rfl
@[simp] theorem Chip.setGate_posn (c : Chip) (a : Nat) (x : GateSt) (a' : Nat) : (c.setGate a x).posn a' = c.posn a' := rfl
@[simp] theorem Chip.setGate_ct (c : Chip) (a : Nat) (x : GateSt) (a' : Nat) : (c.setGate a x).ct a' = c.ct a' := rfl
@[simp] theorem Chip.setGate_cmd (c : Chip) (a : Nat) (x : GateSt) (a' : Nat) : (c.setGate a x).cmd a' = c.cmd a' := rfl
@[simp] theorem Chip.setGate_meas1 (c : Chip) (a : Nat) (x : GateSt) (a' : Nat) : (c.setGate a x).meas1 a' = c.meas1 a' := rfl
@[simp] theorem Chip.setGate_corr (c : Chip) (a : Nat) (x : GateSt) (a' k' : Nat) : (c.setGate a x).corr a' k' = c.corr a' k' := rfl
@[simp] theorem Chip.setGate_pack (c : Chip) (a : Nat) (x : GateSt) (a' : Nat) : (c.setGate a x).pack a' = c.pack a' := rfl
@[simp] theorem Chip.setGate_ledger (c : Chip) (a : Nat) (x : GateSt) (a' : Nat) : (c.setGate a x).ledger a' = c.ledger a' := rfl
@[simp] theorem Chip.setGate_can (c : Chip) (a : Nat) (x : GateSt) (n' : Nat) : (c.setGate a x).can n' = c.can n' := rfl
@[simp] theorem Chip.setGate_bc (c : Chip) (a : Nat) (x : GateSt) (a' : Nat) : (c.setGate a x).bc a' = c.bc a' := rfl
@[simp] theorem Chip.setGate_capture (c : Chip) (a : Nat) (x : GateSt) (a' : Nat) : (c.setGate a x).capture a' = c.capture a' := rfl
@[simp] theorem Chip.setGate_xch (c : Chip) (a : Nat) (x : GateSt) (a' : Nat) : (c.setGate a x).xch a' = c.xch a' := rfl
@[simp] theorem Chip.setGate_slot (c : Chip) (a : Nat) (x : GateSt) (j' : Nat) : (c.setGate a x).slot j' = c.slot j' := rfl
@[simp] theorem Chip.setGate_rcell (c : Chip) (a : Nat) (x : GateSt) (a' : Nat) : (c.setGate a x).rcell a' = c.rcell a' := rfl
@[simp] theorem Chip.setGate_rreg (c : Chip) (a : Nat) (x : GateSt) (r' : Nat) : (c.setGate a x).rreg r' = c.rreg r' := rfl
@[simp] theorem Chip.setGate_pol (c : Chip) (a : Nat) (x : GateSt) (a' : Nat) : (c.setGate a x).pol a' = c.pol a' := rfl
@[simp] theorem Chip.setGate_part (c : Chip) (a : Nat) (x : GateSt) (a' : Nat) : (c.setGate a x).part a' = c.part a' := rfl
@[simp] theorem Chip.setMeas_rd (c : Chip) (a : Nat) (x : MeasSt) (f' : Fld) : (c.setMeas a x).rd f' = c.rd f' := rfl
@[simp] theorem Chip.setMeas_chan (c : Chip) (a : Nat) (x : MeasSt) (n' : Nat) : (c.setMeas a x).chan n' = c.chan n' := rfl
@[simp] theorem Chip.setMeas_port (c : Chip) (a : Nat) (x : MeasSt) (p' : Nat) : (c.setMeas a x).port p' = c.port p' := rfl
@[simp] theorem Chip.setMeas_stream (c : Chip) (a : Nat) (x : MeasSt) (p' st' : Nat) : (c.setMeas a x).stream p' st' = c.stream p' st' := rfl
@[simp] theorem Chip.setMeas_rlane (c : Chip) (a : Nat) (x : MeasSt) (g' e' : Nat) : (c.setMeas a x).rlane g' e' = c.rlane g' e' := rfl
@[simp] theorem Chip.setMeas_clane (c : Chip) (a : Nat) (x : MeasSt) (a' b' : Nat) : (c.setMeas a x).clane a' b' = c.clane a' b' := rfl
@[simp] theorem Chip.setMeas_laneTest (c : Chip) (a : Nat) (x : MeasSt) (r' : Nat) : (c.setMeas a x).laneTest r' = c.laneTest r' := rfl
@[simp] theorem Chip.setMeas_rope (c : Chip) (a : Nat) (x : MeasSt) (g' : Nat) : (c.setMeas a x).rope g' = c.rope g' := rfl
@[simp] theorem Chip.setMeas_posn (c : Chip) (a : Nat) (x : MeasSt) (a' : Nat) : (c.setMeas a x).posn a' = c.posn a' := rfl
@[simp] theorem Chip.setMeas_ct (c : Chip) (a : Nat) (x : MeasSt) (a' : Nat) : (c.setMeas a x).ct a' = c.ct a' := rfl
@[simp] theorem Chip.setMeas_cmd (c : Chip) (a : Nat) (x : MeasSt) (a' : Nat) : (c.setMeas a x).cmd a' = c.cmd a' := rfl
@[simp] theorem Chip.setMeas_gate (c : Chip) (a : Nat) (x : MeasSt) (a' : Nat) : (c.setMeas a x).gate a' = c.gate a' := rfl
@[simp] theorem Chip.setMeas_corr (c : Chip) (a : Nat) (x : MeasSt) (a' k' : Nat) : (c.setMeas a x).corr a' k' = c.corr a' k' := rfl
@[simp] theorem Chip.setMeas_pack (c : Chip) (a : Nat) (x : MeasSt) (a' : Nat) : (c.setMeas a x).pack a' = c.pack a' := rfl
@[simp] theorem Chip.setMeas_ledger (c : Chip) (a : Nat) (x : MeasSt) (a' : Nat) : (c.setMeas a x).ledger a' = c.ledger a' := rfl
@[simp] theorem Chip.setMeas_can (c : Chip) (a : Nat) (x : MeasSt) (n' : Nat) : (c.setMeas a x).can n' = c.can n' := rfl
@[simp] theorem Chip.setMeas_bc (c : Chip) (a : Nat) (x : MeasSt) (a' : Nat) : (c.setMeas a x).bc a' = c.bc a' := rfl
@[simp] theorem Chip.setMeas_capture (c : Chip) (a : Nat) (x : MeasSt) (a' : Nat) : (c.setMeas a x).capture a' = c.capture a' := rfl
@[simp] theorem Chip.setMeas_xch (c : Chip) (a : Nat) (x : MeasSt) (a' : Nat) : (c.setMeas a x).xch a' = c.xch a' := rfl
@[simp] theorem Chip.setMeas_slot (c : Chip) (a : Nat) (x : MeasSt) (j' : Nat) : (c.setMeas a x).slot j' = c.slot j' := rfl
@[simp] theorem Chip.setMeas_rcell (c : Chip) (a : Nat) (x : MeasSt) (a' : Nat) : (c.setMeas a x).rcell a' = c.rcell a' := rfl
@[simp] theorem Chip.setMeas_rreg (c : Chip) (a : Nat) (x : MeasSt) (r' : Nat) : (c.setMeas a x).rreg r' = c.rreg r' := rfl
@[simp] theorem Chip.setMeas_pol (c : Chip) (a : Nat) (x : MeasSt) (a' : Nat) : (c.setMeas a x).pol a' = c.pol a' := rfl
@[simp] theorem Chip.setMeas_part (c : Chip) (a : Nat) (x : MeasSt) (a' : Nat) : (c.setMeas a x).part a' = c.part a' := rfl
@[simp] theorem Chip.setCorr_rd (c : Chip) (a k : Nat) (x : CorrSt) (f' : Fld) : (c.setCorr a k x).rd f' = c.rd f' := rfl
@[simp] theorem Chip.setCorr_chan (c : Chip) (a k : Nat) (x : CorrSt) (n' : Nat) : (c.setCorr a k x).chan n' = c.chan n' := rfl
@[simp] theorem Chip.setCorr_port (c : Chip) (a k : Nat) (x : CorrSt) (p' : Nat) : (c.setCorr a k x).port p' = c.port p' := rfl
@[simp] theorem Chip.setCorr_stream (c : Chip) (a k : Nat) (x : CorrSt) (p' st' : Nat) : (c.setCorr a k x).stream p' st' = c.stream p' st' := rfl
@[simp] theorem Chip.setCorr_rlane (c : Chip) (a k : Nat) (x : CorrSt) (g' e' : Nat) : (c.setCorr a k x).rlane g' e' = c.rlane g' e' := rfl
@[simp] theorem Chip.setCorr_clane (c : Chip) (a k : Nat) (x : CorrSt) (a' b' : Nat) : (c.setCorr a k x).clane a' b' = c.clane a' b' := rfl
@[simp] theorem Chip.setCorr_laneTest (c : Chip) (a k : Nat) (x : CorrSt) (r' : Nat) : (c.setCorr a k x).laneTest r' = c.laneTest r' := rfl
@[simp] theorem Chip.setCorr_rope (c : Chip) (a k : Nat) (x : CorrSt) (g' : Nat) : (c.setCorr a k x).rope g' = c.rope g' := rfl
@[simp] theorem Chip.setCorr_posn (c : Chip) (a k : Nat) (x : CorrSt) (a' : Nat) : (c.setCorr a k x).posn a' = c.posn a' := rfl
@[simp] theorem Chip.setCorr_ct (c : Chip) (a k : Nat) (x : CorrSt) (a' : Nat) : (c.setCorr a k x).ct a' = c.ct a' := rfl
@[simp] theorem Chip.setCorr_cmd (c : Chip) (a k : Nat) (x : CorrSt) (a' : Nat) : (c.setCorr a k x).cmd a' = c.cmd a' := rfl
@[simp] theorem Chip.setCorr_gate (c : Chip) (a k : Nat) (x : CorrSt) (a' : Nat) : (c.setCorr a k x).gate a' = c.gate a' := rfl
@[simp] theorem Chip.setCorr_meas1 (c : Chip) (a k : Nat) (x : CorrSt) (a' : Nat) : (c.setCorr a k x).meas1 a' = c.meas1 a' := rfl
@[simp] theorem Chip.setCorr_pack (c : Chip) (a k : Nat) (x : CorrSt) (a' : Nat) : (c.setCorr a k x).pack a' = c.pack a' := rfl
@[simp] theorem Chip.setCorr_ledger (c : Chip) (a k : Nat) (x : CorrSt) (a' : Nat) : (c.setCorr a k x).ledger a' = c.ledger a' := rfl
@[simp] theorem Chip.setCorr_can (c : Chip) (a k : Nat) (x : CorrSt) (n' : Nat) : (c.setCorr a k x).can n' = c.can n' := rfl
@[simp] theorem Chip.setCorr_bc (c : Chip) (a k : Nat) (x : CorrSt) (a' : Nat) : (c.setCorr a k x).bc a' = c.bc a' := rfl
@[simp] theorem Chip.setCorr_capture (c : Chip) (a k : Nat) (x : CorrSt) (a' : Nat) : (c.setCorr a k x).capture a' = c.capture a' := rfl
@[simp] theorem Chip.setCorr_xch (c : Chip) (a k : Nat) (x : CorrSt) (a' : Nat) : (c.setCorr a k x).xch a' = c.xch a' := rfl
@[simp] theorem Chip.setCorr_slot (c : Chip) (a k : Nat) (x : CorrSt) (j' : Nat) : (c.setCorr a k x).slot j' = c.slot j' := rfl
@[simp] theorem Chip.setCorr_rcell (c : Chip) (a k : Nat) (x : CorrSt) (a' : Nat) : (c.setCorr a k x).rcell a' = c.rcell a' := rfl
@[simp] theorem Chip.setCorr_rreg (c : Chip) (a k : Nat) (x : CorrSt) (r' : Nat) : (c.setCorr a k x).rreg r' = c.rreg r' := rfl
@[simp] theorem Chip.setCorr_pol (c : Chip) (a k : Nat) (x : CorrSt) (a' : Nat) : (c.setCorr a k x).pol a' = c.pol a' := rfl
@[simp] theorem Chip.setCorr_part (c : Chip) (a k : Nat) (x : CorrSt) (a' : Nat) : (c.setCorr a k x).part a' = c.part a' := rfl
@[simp] theorem Chip.setPack_rd (c : Chip) (a : Nat) (x : PackSt) (f' : Fld) : (c.setPack a x).rd f' = c.rd f' := rfl
@[simp] theorem Chip.setPack_chan (c : Chip) (a : Nat) (x : PackSt) (n' : Nat) : (c.setPack a x).chan n' = c.chan n' := rfl
@[simp] theorem Chip.setPack_port (c : Chip) (a : Nat) (x : PackSt) (p' : Nat) : (c.setPack a x).port p' = c.port p' := rfl
@[simp] theorem Chip.setPack_stream (c : Chip) (a : Nat) (x : PackSt) (p' st' : Nat) : (c.setPack a x).stream p' st' = c.stream p' st' := rfl
@[simp] theorem Chip.setPack_rlane (c : Chip) (a : Nat) (x : PackSt) (g' e' : Nat) : (c.setPack a x).rlane g' e' = c.rlane g' e' := rfl
@[simp] theorem Chip.setPack_clane (c : Chip) (a : Nat) (x : PackSt) (a' b' : Nat) : (c.setPack a x).clane a' b' = c.clane a' b' := rfl
@[simp] theorem Chip.setPack_laneTest (c : Chip) (a : Nat) (x : PackSt) (r' : Nat) : (c.setPack a x).laneTest r' = c.laneTest r' := rfl
@[simp] theorem Chip.setPack_rope (c : Chip) (a : Nat) (x : PackSt) (g' : Nat) : (c.setPack a x).rope g' = c.rope g' := rfl
@[simp] theorem Chip.setPack_posn (c : Chip) (a : Nat) (x : PackSt) (a' : Nat) : (c.setPack a x).posn a' = c.posn a' := rfl
@[simp] theorem Chip.setPack_ct (c : Chip) (a : Nat) (x : PackSt) (a' : Nat) : (c.setPack a x).ct a' = c.ct a' := rfl
@[simp] theorem Chip.setPack_cmd (c : Chip) (a : Nat) (x : PackSt) (a' : Nat) : (c.setPack a x).cmd a' = c.cmd a' := rfl
@[simp] theorem Chip.setPack_gate (c : Chip) (a : Nat) (x : PackSt) (a' : Nat) : (c.setPack a x).gate a' = c.gate a' := rfl
@[simp] theorem Chip.setPack_meas1 (c : Chip) (a : Nat) (x : PackSt) (a' : Nat) : (c.setPack a x).meas1 a' = c.meas1 a' := rfl
@[simp] theorem Chip.setPack_corr (c : Chip) (a : Nat) (x : PackSt) (a' k' : Nat) : (c.setPack a x).corr a' k' = c.corr a' k' := rfl
@[simp] theorem Chip.setPack_ledger (c : Chip) (a : Nat) (x : PackSt) (a' : Nat) : (c.setPack a x).ledger a' = c.ledger a' := rfl
@[simp] theorem Chip.setPack_can (c : Chip) (a : Nat) (x : PackSt) (n' : Nat) : (c.setPack a x).can n' = c.can n' := rfl
@[simp] theorem Chip.setPack_bc (c : Chip) (a : Nat) (x : PackSt) (a' : Nat) : (c.setPack a x).bc a' = c.bc a' := rfl
@[simp] theorem Chip.setPack_capture (c : Chip) (a : Nat) (x : PackSt) (a' : Nat) : (c.setPack a x).capture a' = c.capture a' := rfl
@[simp] theorem Chip.setPack_xch (c : Chip) (a : Nat) (x : PackSt) (a' : Nat) : (c.setPack a x).xch a' = c.xch a' := rfl
@[simp] theorem Chip.setPack_slot (c : Chip) (a : Nat) (x : PackSt) (j' : Nat) : (c.setPack a x).slot j' = c.slot j' := rfl
@[simp] theorem Chip.setPack_rcell (c : Chip) (a : Nat) (x : PackSt) (a' : Nat) : (c.setPack a x).rcell a' = c.rcell a' := rfl
@[simp] theorem Chip.setPack_rreg (c : Chip) (a : Nat) (x : PackSt) (r' : Nat) : (c.setPack a x).rreg r' = c.rreg r' := rfl
@[simp] theorem Chip.setPack_pol (c : Chip) (a : Nat) (x : PackSt) (a' : Nat) : (c.setPack a x).pol a' = c.pol a' := rfl
@[simp] theorem Chip.setPack_part (c : Chip) (a : Nat) (x : PackSt) (a' : Nat) : (c.setPack a x).part a' = c.part a' := rfl
@[simp] theorem Chip.setLedger_rd (c : Chip) (a : Nat) (x : LedgSt) (f' : Fld) : (c.setLedger a x).rd f' = c.rd f' := rfl
@[simp] theorem Chip.setLedger_chan (c : Chip) (a : Nat) (x : LedgSt) (n' : Nat) : (c.setLedger a x).chan n' = c.chan n' := rfl
@[simp] theorem Chip.setLedger_port (c : Chip) (a : Nat) (x : LedgSt) (p' : Nat) : (c.setLedger a x).port p' = c.port p' := rfl
@[simp] theorem Chip.setLedger_stream (c : Chip) (a : Nat) (x : LedgSt) (p' st' : Nat) : (c.setLedger a x).stream p' st' = c.stream p' st' := rfl
@[simp] theorem Chip.setLedger_rlane (c : Chip) (a : Nat) (x : LedgSt) (g' e' : Nat) : (c.setLedger a x).rlane g' e' = c.rlane g' e' := rfl
@[simp] theorem Chip.setLedger_clane (c : Chip) (a : Nat) (x : LedgSt) (a' b' : Nat) : (c.setLedger a x).clane a' b' = c.clane a' b' := rfl
@[simp] theorem Chip.setLedger_laneTest (c : Chip) (a : Nat) (x : LedgSt) (r' : Nat) : (c.setLedger a x).laneTest r' = c.laneTest r' := rfl
@[simp] theorem Chip.setLedger_rope (c : Chip) (a : Nat) (x : LedgSt) (g' : Nat) : (c.setLedger a x).rope g' = c.rope g' := rfl
@[simp] theorem Chip.setLedger_posn (c : Chip) (a : Nat) (x : LedgSt) (a' : Nat) : (c.setLedger a x).posn a' = c.posn a' := rfl
@[simp] theorem Chip.setLedger_ct (c : Chip) (a : Nat) (x : LedgSt) (a' : Nat) : (c.setLedger a x).ct a' = c.ct a' := rfl
@[simp] theorem Chip.setLedger_cmd (c : Chip) (a : Nat) (x : LedgSt) (a' : Nat) : (c.setLedger a x).cmd a' = c.cmd a' := rfl
@[simp] theorem Chip.setLedger_gate (c : Chip) (a : Nat) (x : LedgSt) (a' : Nat) : (c.setLedger a x).gate a' = c.gate a' := rfl
@[simp] theorem Chip.setLedger_meas1 (c : Chip) (a : Nat) (x : LedgSt) (a' : Nat) : (c.setLedger a x).meas1 a' = c.meas1 a' := rfl
@[simp] theorem Chip.setLedger_corr (c : Chip) (a : Nat) (x : LedgSt) (a' k' : Nat) : (c.setLedger a x).corr a' k' = c.corr a' k' := rfl
@[simp] theorem Chip.setLedger_pack (c : Chip) (a : Nat) (x : LedgSt) (a' : Nat) : (c.setLedger a x).pack a' = c.pack a' := rfl
@[simp] theorem Chip.setLedger_can (c : Chip) (a : Nat) (x : LedgSt) (n' : Nat) : (c.setLedger a x).can n' = c.can n' := rfl
@[simp] theorem Chip.setLedger_bc (c : Chip) (a : Nat) (x : LedgSt) (a' : Nat) : (c.setLedger a x).bc a' = c.bc a' := rfl
@[simp] theorem Chip.setLedger_capture (c : Chip) (a : Nat) (x : LedgSt) (a' : Nat) : (c.setLedger a x).capture a' = c.capture a' := rfl
@[simp] theorem Chip.setLedger_xch (c : Chip) (a : Nat) (x : LedgSt) (a' : Nat) : (c.setLedger a x).xch a' = c.xch a' := rfl
@[simp] theorem Chip.setLedger_slot (c : Chip) (a : Nat) (x : LedgSt) (j' : Nat) : (c.setLedger a x).slot j' = c.slot j' := rfl
@[simp] theorem Chip.setLedger_rcell (c : Chip) (a : Nat) (x : LedgSt) (a' : Nat) : (c.setLedger a x).rcell a' = c.rcell a' := rfl
@[simp] theorem Chip.setLedger_rreg (c : Chip) (a : Nat) (x : LedgSt) (r' : Nat) : (c.setLedger a x).rreg r' = c.rreg r' := rfl
@[simp] theorem Chip.setLedger_pol (c : Chip) (a : Nat) (x : LedgSt) (a' : Nat) : (c.setLedger a x).pol a' = c.pol a' := rfl
@[simp] theorem Chip.setLedger_part (c : Chip) (a : Nat) (x : LedgSt) (a' : Nat) : (c.setLedger a x).part a' = c.part a' := rfl
@[simp] theorem Chip.setCan_rd (c : Chip) (n : Nat) (x : CanSt) (f' : Fld) : (c.setCan n x).rd f' = c.rd f' := rfl
@[simp] theorem Chip.setCan_chan (c : Chip) (n : Nat) (x : CanSt) (n' : Nat) : (c.setCan n x).chan n' = c.chan n' := rfl
@[simp] theorem Chip.setCan_port (c : Chip) (n : Nat) (x : CanSt) (p' : Nat) : (c.setCan n x).port p' = c.port p' := rfl
@[simp] theorem Chip.setCan_stream (c : Chip) (n : Nat) (x : CanSt) (p' st' : Nat) : (c.setCan n x).stream p' st' = c.stream p' st' := rfl
@[simp] theorem Chip.setCan_rlane (c : Chip) (n : Nat) (x : CanSt) (g' e' : Nat) : (c.setCan n x).rlane g' e' = c.rlane g' e' := rfl
@[simp] theorem Chip.setCan_clane (c : Chip) (n : Nat) (x : CanSt) (a' b' : Nat) : (c.setCan n x).clane a' b' = c.clane a' b' := rfl
@[simp] theorem Chip.setCan_laneTest (c : Chip) (n : Nat) (x : CanSt) (r' : Nat) : (c.setCan n x).laneTest r' = c.laneTest r' := rfl
@[simp] theorem Chip.setCan_rope (c : Chip) (n : Nat) (x : CanSt) (g' : Nat) : (c.setCan n x).rope g' = c.rope g' := rfl
@[simp] theorem Chip.setCan_posn (c : Chip) (n : Nat) (x : CanSt) (a' : Nat) : (c.setCan n x).posn a' = c.posn a' := rfl
@[simp] theorem Chip.setCan_ct (c : Chip) (n : Nat) (x : CanSt) (a' : Nat) : (c.setCan n x).ct a' = c.ct a' := rfl
@[simp] theorem Chip.setCan_cmd (c : Chip) (n : Nat) (x : CanSt) (a' : Nat) : (c.setCan n x).cmd a' = c.cmd a' := rfl
@[simp] theorem Chip.setCan_gate (c : Chip) (n : Nat) (x : CanSt) (a' : Nat) : (c.setCan n x).gate a' = c.gate a' := rfl
@[simp] theorem Chip.setCan_meas1 (c : Chip) (n : Nat) (x : CanSt) (a' : Nat) : (c.setCan n x).meas1 a' = c.meas1 a' := rfl
@[simp] theorem Chip.setCan_corr (c : Chip) (n : Nat) (x : CanSt) (a' k' : Nat) : (c.setCan n x).corr a' k' = c.corr a' k' := rfl
@[simp] theorem Chip.setCan_pack (c : Chip) (n : Nat) (x : CanSt) (a' : Nat) : (c.setCan n x).pack a' = c.pack a' := rfl
@[simp] theorem Chip.setCan_ledger (c : Chip) (n : Nat) (x : CanSt) (a' : Nat) : (c.setCan n x).ledger a' = c.ledger a' := rfl
@[simp] theorem Chip.setCan_bc (c : Chip) (n : Nat) (x : CanSt) (a' : Nat) : (c.setCan n x).bc a' = c.bc a' := rfl
@[simp] theorem Chip.setCan_capture (c : Chip) (n : Nat) (x : CanSt) (a' : Nat) : (c.setCan n x).capture a' = c.capture a' := rfl
@[simp] theorem Chip.setCan_xch (c : Chip) (n : Nat) (x : CanSt) (a' : Nat) : (c.setCan n x).xch a' = c.xch a' := rfl
@[simp] theorem Chip.setCan_slot (c : Chip) (n : Nat) (x : CanSt) (j' : Nat) : (c.setCan n x).slot j' = c.slot j' := rfl
@[simp] theorem Chip.setCan_rcell (c : Chip) (n : Nat) (x : CanSt) (a' : Nat) : (c.setCan n x).rcell a' = c.rcell a' := rfl
@[simp] theorem Chip.setCan_rreg (c : Chip) (n : Nat) (x : CanSt) (r' : Nat) : (c.setCan n x).rreg r' = c.rreg r' := rfl
@[simp] theorem Chip.setCan_pol (c : Chip) (n : Nat) (x : CanSt) (a' : Nat) : (c.setCan n x).pol a' = c.pol a' := rfl
@[simp] theorem Chip.setCan_part (c : Chip) (n : Nat) (x : CanSt) (a' : Nat) : (c.setCan n x).part a' = c.part a' := rfl
@[simp] theorem Chip.setBc_rd (c : Chip) (a : Nat) (x : BcSt) (f' : Fld) : (c.setBc a x).rd f' = c.rd f' := rfl
@[simp] theorem Chip.setBc_chan (c : Chip) (a : Nat) (x : BcSt) (n' : Nat) : (c.setBc a x).chan n' = c.chan n' := rfl
@[simp] theorem Chip.setBc_port (c : Chip) (a : Nat) (x : BcSt) (p' : Nat) : (c.setBc a x).port p' = c.port p' := rfl
@[simp] theorem Chip.setBc_stream (c : Chip) (a : Nat) (x : BcSt) (p' st' : Nat) : (c.setBc a x).stream p' st' = c.stream p' st' := rfl
@[simp] theorem Chip.setBc_rlane (c : Chip) (a : Nat) (x : BcSt) (g' e' : Nat) : (c.setBc a x).rlane g' e' = c.rlane g' e' := rfl
@[simp] theorem Chip.setBc_clane (c : Chip) (a : Nat) (x : BcSt) (a' b' : Nat) : (c.setBc a x).clane a' b' = c.clane a' b' := rfl
@[simp] theorem Chip.setBc_laneTest (c : Chip) (a : Nat) (x : BcSt) (r' : Nat) : (c.setBc a x).laneTest r' = c.laneTest r' := rfl
@[simp] theorem Chip.setBc_rope (c : Chip) (a : Nat) (x : BcSt) (g' : Nat) : (c.setBc a x).rope g' = c.rope g' := rfl
@[simp] theorem Chip.setBc_posn (c : Chip) (a : Nat) (x : BcSt) (a' : Nat) : (c.setBc a x).posn a' = c.posn a' := rfl
@[simp] theorem Chip.setBc_ct (c : Chip) (a : Nat) (x : BcSt) (a' : Nat) : (c.setBc a x).ct a' = c.ct a' := rfl
@[simp] theorem Chip.setBc_cmd (c : Chip) (a : Nat) (x : BcSt) (a' : Nat) : (c.setBc a x).cmd a' = c.cmd a' := rfl
@[simp] theorem Chip.setBc_gate (c : Chip) (a : Nat) (x : BcSt) (a' : Nat) : (c.setBc a x).gate a' = c.gate a' := rfl
@[simp] theorem Chip.setBc_meas1 (c : Chip) (a : Nat) (x : BcSt) (a' : Nat) : (c.setBc a x).meas1 a' = c.meas1 a' := rfl
@[simp] theorem Chip.setBc_corr (c : Chip) (a : Nat) (x : BcSt) (a' k' : Nat) : (c.setBc a x).corr a' k' = c.corr a' k' := rfl
@[simp] theorem Chip.setBc_pack (c : Chip) (a : Nat) (x : BcSt) (a' : Nat) : (c.setBc a x).pack a' = c.pack a' := rfl
@[simp] theorem Chip.setBc_ledger (c : Chip) (a : Nat) (x : BcSt) (a' : Nat) : (c.setBc a x).ledger a' = c.ledger a' := rfl
@[simp] theorem Chip.setBc_can (c : Chip) (a : Nat) (x : BcSt) (n' : Nat) : (c.setBc a x).can n' = c.can n' := rfl
@[simp] theorem Chip.setBc_capture (c : Chip) (a : Nat) (x : BcSt) (a' : Nat) : (c.setBc a x).capture a' = c.capture a' := rfl
@[simp] theorem Chip.setBc_xch (c : Chip) (a : Nat) (x : BcSt) (a' : Nat) : (c.setBc a x).xch a' = c.xch a' := rfl
@[simp] theorem Chip.setBc_slot (c : Chip) (a : Nat) (x : BcSt) (j' : Nat) : (c.setBc a x).slot j' = c.slot j' := rfl
@[simp] theorem Chip.setBc_rcell (c : Chip) (a : Nat) (x : BcSt) (a' : Nat) : (c.setBc a x).rcell a' = c.rcell a' := rfl
@[simp] theorem Chip.setBc_rreg (c : Chip) (a : Nat) (x : BcSt) (r' : Nat) : (c.setBc a x).rreg r' = c.rreg r' := rfl
@[simp] theorem Chip.setBc_pol (c : Chip) (a : Nat) (x : BcSt) (a' : Nat) : (c.setBc a x).pol a' = c.pol a' := rfl
@[simp] theorem Chip.setBc_part (c : Chip) (a : Nat) (x : BcSt) (a' : Nat) : (c.setBc a x).part a' = c.part a' := rfl
@[simp] theorem Chip.setCapture_rd (c : Chip) (a : Nat) (x : CaptureSt) (f' : Fld) : (c.setCapture a x).rd f' = c.rd f' := rfl
@[simp] theorem Chip.setCapture_chan (c : Chip) (a : Nat) (x : CaptureSt) (n' : Nat) : (c.setCapture a x).chan n' = c.chan n' := rfl
@[simp] theorem Chip.setCapture_port (c : Chip) (a : Nat) (x : CaptureSt) (p' : Nat) : (c.setCapture a x).port p' = c.port p' := rfl
@[simp] theorem Chip.setCapture_stream (c : Chip) (a : Nat) (x : CaptureSt) (p' st' : Nat) : (c.setCapture a x).stream p' st' = c.stream p' st' := rfl
@[simp] theorem Chip.setCapture_rlane (c : Chip) (a : Nat) (x : CaptureSt) (g' e' : Nat) : (c.setCapture a x).rlane g' e' = c.rlane g' e' := rfl
@[simp] theorem Chip.setCapture_clane (c : Chip) (a : Nat) (x : CaptureSt) (a' b' : Nat) : (c.setCapture a x).clane a' b' = c.clane a' b' := rfl
@[simp] theorem Chip.setCapture_laneTest (c : Chip) (a : Nat) (x : CaptureSt) (r' : Nat) : (c.setCapture a x).laneTest r' = c.laneTest r' := rfl
@[simp] theorem Chip.setCapture_rope (c : Chip) (a : Nat) (x : CaptureSt) (g' : Nat) : (c.setCapture a x).rope g' = c.rope g' := rfl
@[simp] theorem Chip.setCapture_posn (c : Chip) (a : Nat) (x : CaptureSt) (a' : Nat) : (c.setCapture a x).posn a' = c.posn a' := rfl
@[simp] theorem Chip.setCapture_ct (c : Chip) (a : Nat) (x : CaptureSt) (a' : Nat) : (c.setCapture a x).ct a' = c.ct a' := rfl
@[simp] theorem Chip.setCapture_cmd (c : Chip) (a : Nat) (x : CaptureSt) (a' : Nat) : (c.setCapture a x).cmd a' = c.cmd a' := rfl
@[simp] theorem Chip.setCapture_gate (c : Chip) (a : Nat) (x : CaptureSt) (a' : Nat) : (c.setCapture a x).gate a' = c.gate a' := rfl
@[simp] theorem Chip.setCapture_meas1 (c : Chip) (a : Nat) (x : CaptureSt) (a' : Nat) : (c.setCapture a x).meas1 a' = c.meas1 a' := rfl
@[simp] theorem Chip.setCapture_corr (c : Chip) (a : Nat) (x : CaptureSt) (a' k' : Nat) : (c.setCapture a x).corr a' k' = c.corr a' k' := rfl
@[simp] theorem Chip.setCapture_pack (c : Chip) (a : Nat) (x : CaptureSt) (a' : Nat) : (c.setCapture a x).pack a' = c.pack a' := rfl
@[simp] theorem Chip.setCapture_ledger (c : Chip) (a : Nat) (x : CaptureSt) (a' : Nat) : (c.setCapture a x).ledger a' = c.ledger a' := rfl
@[simp] theorem Chip.setCapture_can (c : Chip) (a : Nat) (x : CaptureSt) (n' : Nat) : (c.setCapture a x).can n' = c.can n' := rfl
@[simp] theorem Chip.setCapture_bc (c : Chip) (a : Nat) (x : CaptureSt) (a' : Nat) : (c.setCapture a x).bc a' = c.bc a' := rfl
@[simp] theorem Chip.setCapture_xch (c : Chip) (a : Nat) (x : CaptureSt) (a' : Nat) : (c.setCapture a x).xch a' = c.xch a' := rfl
@[simp] theorem Chip.setCapture_slot (c : Chip) (a : Nat) (x : CaptureSt) (j' : Nat) : (c.setCapture a x).slot j' = c.slot j' := rfl
@[simp] theorem Chip.setCapture_rcell (c : Chip) (a : Nat) (x : CaptureSt) (a' : Nat) : (c.setCapture a x).rcell a' = c.rcell a' := rfl
@[simp] theorem Chip.setCapture_rreg (c : Chip) (a : Nat) (x : CaptureSt) (r' : Nat) : (c.setCapture a x).rreg r' = c.rreg r' := rfl
@[simp] theorem Chip.setCapture_pol (c : Chip) (a : Nat) (x : CaptureSt) (a' : Nat) : (c.setCapture a x).pol a' = c.pol a' := rfl
@[simp] theorem Chip.setCapture_part (c : Chip) (a : Nat) (x : CaptureSt) (a' : Nat) : (c.setCapture a x).part a' = c.part a' := rfl
@[simp] theorem Chip.setXch_rd (c : Chip) (a : Nat) (x : XchgSt) (f' : Fld) : (c.setXch a x).rd f' = c.rd f' := rfl
@[simp] theorem Chip.setXch_chan (c : Chip) (a : Nat) (x : XchgSt) (n' : Nat) : (c.setXch a x).chan n' = c.chan n' := rfl
@[simp] theorem Chip.setXch_port (c : Chip) (a : Nat) (x : XchgSt) (p' : Nat) : (c.setXch a x).port p' = c.port p' := rfl
@[simp] theorem Chip.setXch_stream (c : Chip) (a : Nat) (x : XchgSt) (p' st' : Nat) : (c.setXch a x).stream p' st' = c.stream p' st' := rfl
@[simp] theorem Chip.setXch_rlane (c : Chip) (a : Nat) (x : XchgSt) (g' e' : Nat) : (c.setXch a x).rlane g' e' = c.rlane g' e' := rfl
@[simp] theorem Chip.setXch_clane (c : Chip) (a : Nat) (x : XchgSt) (a' b' : Nat) : (c.setXch a x).clane a' b' = c.clane a' b' := rfl
@[simp] theorem Chip.setXch_laneTest (c : Chip) (a : Nat) (x : XchgSt) (r' : Nat) : (c.setXch a x).laneTest r' = c.laneTest r' := rfl
@[simp] theorem Chip.setXch_rope (c : Chip) (a : Nat) (x : XchgSt) (g' : Nat) : (c.setXch a x).rope g' = c.rope g' := rfl
@[simp] theorem Chip.setXch_posn (c : Chip) (a : Nat) (x : XchgSt) (a' : Nat) : (c.setXch a x).posn a' = c.posn a' := rfl
@[simp] theorem Chip.setXch_ct (c : Chip) (a : Nat) (x : XchgSt) (a' : Nat) : (c.setXch a x).ct a' = c.ct a' := rfl
@[simp] theorem Chip.setXch_cmd (c : Chip) (a : Nat) (x : XchgSt) (a' : Nat) : (c.setXch a x).cmd a' = c.cmd a' := rfl
@[simp] theorem Chip.setXch_gate (c : Chip) (a : Nat) (x : XchgSt) (a' : Nat) : (c.setXch a x).gate a' = c.gate a' := rfl
@[simp] theorem Chip.setXch_meas1 (c : Chip) (a : Nat) (x : XchgSt) (a' : Nat) : (c.setXch a x).meas1 a' = c.meas1 a' := rfl
@[simp] theorem Chip.setXch_corr (c : Chip) (a : Nat) (x : XchgSt) (a' k' : Nat) : (c.setXch a x).corr a' k' = c.corr a' k' := rfl
@[simp] theorem Chip.setXch_pack (c : Chip) (a : Nat) (x : XchgSt) (a' : Nat) : (c.setXch a x).pack a' = c.pack a' := rfl
@[simp] theorem Chip.setXch_ledger (c : Chip) (a : Nat) (x : XchgSt) (a' : Nat) : (c.setXch a x).ledger a' = c.ledger a' := rfl
@[simp] theorem Chip.setXch_can (c : Chip) (a : Nat) (x : XchgSt) (n' : Nat) : (c.setXch a x).can n' = c.can n' := rfl
@[simp] theorem Chip.setXch_bc (c : Chip) (a : Nat) (x : XchgSt) (a' : Nat) : (c.setXch a x).bc a' = c.bc a' := rfl
@[simp] theorem Chip.setXch_capture (c : Chip) (a : Nat) (x : XchgSt) (a' : Nat) : (c.setXch a x).capture a' = c.capture a' := rfl
@[simp] theorem Chip.setXch_slot (c : Chip) (a : Nat) (x : XchgSt) (j' : Nat) : (c.setXch a x).slot j' = c.slot j' := rfl
@[simp] theorem Chip.setXch_rcell (c : Chip) (a : Nat) (x : XchgSt) (a' : Nat) : (c.setXch a x).rcell a' = c.rcell a' := rfl
@[simp] theorem Chip.setXch_rreg (c : Chip) (a : Nat) (x : XchgSt) (r' : Nat) : (c.setXch a x).rreg r' = c.rreg r' := rfl
@[simp] theorem Chip.setXch_pol (c : Chip) (a : Nat) (x : XchgSt) (a' : Nat) : (c.setXch a x).pol a' = c.pol a' := rfl
@[simp] theorem Chip.setXch_part (c : Chip) (a : Nat) (x : XchgSt) (a' : Nat) : (c.setXch a x).part a' = c.part a' := rfl
@[simp] theorem Chip.setSlot_rd (c : Chip) (j : Nat) (x : SlotSt) (f' : Fld) : (c.setSlot j x).rd f' = c.rd f' := rfl
@[simp] theorem Chip.setSlot_chan (c : Chip) (j : Nat) (x : SlotSt) (n' : Nat) : (c.setSlot j x).chan n' = c.chan n' := rfl
@[simp] theorem Chip.setSlot_port (c : Chip) (j : Nat) (x : SlotSt) (p' : Nat) : (c.setSlot j x).port p' = c.port p' := rfl
@[simp] theorem Chip.setSlot_stream (c : Chip) (j : Nat) (x : SlotSt) (p' st' : Nat) : (c.setSlot j x).stream p' st' = c.stream p' st' := rfl
@[simp] theorem Chip.setSlot_rlane (c : Chip) (j : Nat) (x : SlotSt) (g' e' : Nat) : (c.setSlot j x).rlane g' e' = c.rlane g' e' := rfl
@[simp] theorem Chip.setSlot_clane (c : Chip) (j : Nat) (x : SlotSt) (a' b' : Nat) : (c.setSlot j x).clane a' b' = c.clane a' b' := rfl
@[simp] theorem Chip.setSlot_laneTest (c : Chip) (j : Nat) (x : SlotSt) (r' : Nat) : (c.setSlot j x).laneTest r' = c.laneTest r' := rfl
@[simp] theorem Chip.setSlot_rope (c : Chip) (j : Nat) (x : SlotSt) (g' : Nat) : (c.setSlot j x).rope g' = c.rope g' := rfl
@[simp] theorem Chip.setSlot_posn (c : Chip) (j : Nat) (x : SlotSt) (a' : Nat) : (c.setSlot j x).posn a' = c.posn a' := rfl
@[simp] theorem Chip.setSlot_ct (c : Chip) (j : Nat) (x : SlotSt) (a' : Nat) : (c.setSlot j x).ct a' = c.ct a' := rfl
@[simp] theorem Chip.setSlot_cmd (c : Chip) (j : Nat) (x : SlotSt) (a' : Nat) : (c.setSlot j x).cmd a' = c.cmd a' := rfl
@[simp] theorem Chip.setSlot_gate (c : Chip) (j : Nat) (x : SlotSt) (a' : Nat) : (c.setSlot j x).gate a' = c.gate a' := rfl
@[simp] theorem Chip.setSlot_meas1 (c : Chip) (j : Nat) (x : SlotSt) (a' : Nat) : (c.setSlot j x).meas1 a' = c.meas1 a' := rfl
@[simp] theorem Chip.setSlot_corr (c : Chip) (j : Nat) (x : SlotSt) (a' k' : Nat) : (c.setSlot j x).corr a' k' = c.corr a' k' := rfl
@[simp] theorem Chip.setSlot_pack (c : Chip) (j : Nat) (x : SlotSt) (a' : Nat) : (c.setSlot j x).pack a' = c.pack a' := rfl
@[simp] theorem Chip.setSlot_ledger (c : Chip) (j : Nat) (x : SlotSt) (a' : Nat) : (c.setSlot j x).ledger a' = c.ledger a' := rfl
@[simp] theorem Chip.setSlot_can (c : Chip) (j : Nat) (x : SlotSt) (n' : Nat) : (c.setSlot j x).can n' = c.can n' := rfl
@[simp] theorem Chip.setSlot_bc (c : Chip) (j : Nat) (x : SlotSt) (a' : Nat) : (c.setSlot j x).bc a' = c.bc a' := rfl
@[simp] theorem Chip.setSlot_capture (c : Chip) (j : Nat) (x : SlotSt) (a' : Nat) : (c.setSlot j x).capture a' = c.capture a' := rfl
@[simp] theorem Chip.setSlot_xch (c : Chip) (j : Nat) (x : SlotSt) (a' : Nat) : (c.setSlot j x).xch a' = c.xch a' := rfl
@[simp] theorem Chip.setSlot_rcell (c : Chip) (j : Nat) (x : SlotSt) (a' : Nat) : (c.setSlot j x).rcell a' = c.rcell a' := rfl
@[simp] theorem Chip.setSlot_rreg (c : Chip) (j : Nat) (x : SlotSt) (r' : Nat) : (c.setSlot j x).rreg r' = c.rreg r' := rfl
@[simp] theorem Chip.setSlot_pol (c : Chip) (j : Nat) (x : SlotSt) (a' : Nat) : (c.setSlot j x).pol a' = c.pol a' := rfl
@[simp] theorem Chip.setSlot_part (c : Chip) (j : Nat) (x : SlotSt) (a' : Nat) : (c.setSlot j x).part a' = c.part a' := rfl
@[simp] theorem Chip.setRcell_rd (c : Chip) (a : Nat) (x : RankCell) (f' : Fld) : (c.setRcell a x).rd f' = c.rd f' := rfl
@[simp] theorem Chip.setRcell_chan (c : Chip) (a : Nat) (x : RankCell) (n' : Nat) : (c.setRcell a x).chan n' = c.chan n' := rfl
@[simp] theorem Chip.setRcell_port (c : Chip) (a : Nat) (x : RankCell) (p' : Nat) : (c.setRcell a x).port p' = c.port p' := rfl
@[simp] theorem Chip.setRcell_stream (c : Chip) (a : Nat) (x : RankCell) (p' st' : Nat) : (c.setRcell a x).stream p' st' = c.stream p' st' := rfl
@[simp] theorem Chip.setRcell_rlane (c : Chip) (a : Nat) (x : RankCell) (g' e' : Nat) : (c.setRcell a x).rlane g' e' = c.rlane g' e' := rfl
@[simp] theorem Chip.setRcell_clane (c : Chip) (a : Nat) (x : RankCell) (a' b' : Nat) : (c.setRcell a x).clane a' b' = c.clane a' b' := rfl
@[simp] theorem Chip.setRcell_laneTest (c : Chip) (a : Nat) (x : RankCell) (r' : Nat) : (c.setRcell a x).laneTest r' = c.laneTest r' := rfl
@[simp] theorem Chip.setRcell_rope (c : Chip) (a : Nat) (x : RankCell) (g' : Nat) : (c.setRcell a x).rope g' = c.rope g' := rfl
@[simp] theorem Chip.setRcell_posn (c : Chip) (a : Nat) (x : RankCell) (a' : Nat) : (c.setRcell a x).posn a' = c.posn a' := rfl
@[simp] theorem Chip.setRcell_ct (c : Chip) (a : Nat) (x : RankCell) (a' : Nat) : (c.setRcell a x).ct a' = c.ct a' := rfl
@[simp] theorem Chip.setRcell_cmd (c : Chip) (a : Nat) (x : RankCell) (a' : Nat) : (c.setRcell a x).cmd a' = c.cmd a' := rfl
@[simp] theorem Chip.setRcell_gate (c : Chip) (a : Nat) (x : RankCell) (a' : Nat) : (c.setRcell a x).gate a' = c.gate a' := rfl
@[simp] theorem Chip.setRcell_meas1 (c : Chip) (a : Nat) (x : RankCell) (a' : Nat) : (c.setRcell a x).meas1 a' = c.meas1 a' := rfl
@[simp] theorem Chip.setRcell_corr (c : Chip) (a : Nat) (x : RankCell) (a' k' : Nat) : (c.setRcell a x).corr a' k' = c.corr a' k' := rfl
@[simp] theorem Chip.setRcell_pack (c : Chip) (a : Nat) (x : RankCell) (a' : Nat) : (c.setRcell a x).pack a' = c.pack a' := rfl
@[simp] theorem Chip.setRcell_ledger (c : Chip) (a : Nat) (x : RankCell) (a' : Nat) : (c.setRcell a x).ledger a' = c.ledger a' := rfl
@[simp] theorem Chip.setRcell_can (c : Chip) (a : Nat) (x : RankCell) (n' : Nat) : (c.setRcell a x).can n' = c.can n' := rfl
@[simp] theorem Chip.setRcell_bc (c : Chip) (a : Nat) (x : RankCell) (a' : Nat) : (c.setRcell a x).bc a' = c.bc a' := rfl
@[simp] theorem Chip.setRcell_capture (c : Chip) (a : Nat) (x : RankCell) (a' : Nat) : (c.setRcell a x).capture a' = c.capture a' := rfl
@[simp] theorem Chip.setRcell_xch (c : Chip) (a : Nat) (x : RankCell) (a' : Nat) : (c.setRcell a x).xch a' = c.xch a' := rfl
@[simp] theorem Chip.setRcell_slot (c : Chip) (a : Nat) (x : RankCell) (j' : Nat) : (c.setRcell a x).slot j' = c.slot j' := rfl
@[simp] theorem Chip.setRcell_rreg (c : Chip) (a : Nat) (x : RankCell) (r' : Nat) : (c.setRcell a x).rreg r' = c.rreg r' := rfl
@[simp] theorem Chip.setRcell_pol (c : Chip) (a : Nat) (x : RankCell) (a' : Nat) : (c.setRcell a x).pol a' = c.pol a' := rfl
@[simp] theorem Chip.setRcell_part (c : Chip) (a : Nat) (x : RankCell) (a' : Nat) : (c.setRcell a x).part a' = c.part a' := rfl
@[simp] theorem Chip.setRreg_rd (c : Chip) (r : Nat) (x : RegRank) (f' : Fld) : (c.setRreg r x).rd f' = c.rd f' := rfl
@[simp] theorem Chip.setRreg_chan (c : Chip) (r : Nat) (x : RegRank) (n' : Nat) : (c.setRreg r x).chan n' = c.chan n' := rfl
@[simp] theorem Chip.setRreg_port (c : Chip) (r : Nat) (x : RegRank) (p' : Nat) : (c.setRreg r x).port p' = c.port p' := rfl
@[simp] theorem Chip.setRreg_stream (c : Chip) (r : Nat) (x : RegRank) (p' st' : Nat) : (c.setRreg r x).stream p' st' = c.stream p' st' := rfl
@[simp] theorem Chip.setRreg_rlane (c : Chip) (r : Nat) (x : RegRank) (g' e' : Nat) : (c.setRreg r x).rlane g' e' = c.rlane g' e' := rfl
@[simp] theorem Chip.setRreg_clane (c : Chip) (r : Nat) (x : RegRank) (a' b' : Nat) : (c.setRreg r x).clane a' b' = c.clane a' b' := rfl
@[simp] theorem Chip.setRreg_laneTest (c : Chip) (r : Nat) (x : RegRank) (r' : Nat) : (c.setRreg r x).laneTest r' = c.laneTest r' := rfl
@[simp] theorem Chip.setRreg_rope (c : Chip) (r : Nat) (x : RegRank) (g' : Nat) : (c.setRreg r x).rope g' = c.rope g' := rfl
@[simp] theorem Chip.setRreg_posn (c : Chip) (r : Nat) (x : RegRank) (a' : Nat) : (c.setRreg r x).posn a' = c.posn a' := rfl
@[simp] theorem Chip.setRreg_ct (c : Chip) (r : Nat) (x : RegRank) (a' : Nat) : (c.setRreg r x).ct a' = c.ct a' := rfl
@[simp] theorem Chip.setRreg_cmd (c : Chip) (r : Nat) (x : RegRank) (a' : Nat) : (c.setRreg r x).cmd a' = c.cmd a' := rfl
@[simp] theorem Chip.setRreg_gate (c : Chip) (r : Nat) (x : RegRank) (a' : Nat) : (c.setRreg r x).gate a' = c.gate a' := rfl
@[simp] theorem Chip.setRreg_meas1 (c : Chip) (r : Nat) (x : RegRank) (a' : Nat) : (c.setRreg r x).meas1 a' = c.meas1 a' := rfl
@[simp] theorem Chip.setRreg_corr (c : Chip) (r : Nat) (x : RegRank) (a' k' : Nat) : (c.setRreg r x).corr a' k' = c.corr a' k' := rfl
@[simp] theorem Chip.setRreg_pack (c : Chip) (r : Nat) (x : RegRank) (a' : Nat) : (c.setRreg r x).pack a' = c.pack a' := rfl
@[simp] theorem Chip.setRreg_ledger (c : Chip) (r : Nat) (x : RegRank) (a' : Nat) : (c.setRreg r x).ledger a' = c.ledger a' := rfl
@[simp] theorem Chip.setRreg_can (c : Chip) (r : Nat) (x : RegRank) (n' : Nat) : (c.setRreg r x).can n' = c.can n' := rfl
@[simp] theorem Chip.setRreg_bc (c : Chip) (r : Nat) (x : RegRank) (a' : Nat) : (c.setRreg r x).bc a' = c.bc a' := rfl
@[simp] theorem Chip.setRreg_capture (c : Chip) (r : Nat) (x : RegRank) (a' : Nat) : (c.setRreg r x).capture a' = c.capture a' := rfl
@[simp] theorem Chip.setRreg_xch (c : Chip) (r : Nat) (x : RegRank) (a' : Nat) : (c.setRreg r x).xch a' = c.xch a' := rfl
@[simp] theorem Chip.setRreg_slot (c : Chip) (r : Nat) (x : RegRank) (j' : Nat) : (c.setRreg r x).slot j' = c.slot j' := rfl
@[simp] theorem Chip.setRreg_rcell (c : Chip) (r : Nat) (x : RegRank) (a' : Nat) : (c.setRreg r x).rcell a' = c.rcell a' := rfl
@[simp] theorem Chip.setRreg_pol (c : Chip) (r : Nat) (x : RegRank) (a' : Nat) : (c.setRreg r x).pol a' = c.pol a' := rfl
@[simp] theorem Chip.setRreg_part (c : Chip) (r : Nat) (x : RegRank) (a' : Nat) : (c.setRreg r x).part a' = c.part a' := rfl
@[simp] theorem Chip.setPol_rd (c : Chip) (a : Nat) (x : PolSt) (f' : Fld) : (c.setPol a x).rd f' = c.rd f' := rfl
@[simp] theorem Chip.setPol_chan (c : Chip) (a : Nat) (x : PolSt) (n' : Nat) : (c.setPol a x).chan n' = c.chan n' := rfl
@[simp] theorem Chip.setPol_port (c : Chip) (a : Nat) (x : PolSt) (p' : Nat) : (c.setPol a x).port p' = c.port p' := rfl
@[simp] theorem Chip.setPol_stream (c : Chip) (a : Nat) (x : PolSt) (p' st' : Nat) : (c.setPol a x).stream p' st' = c.stream p' st' := rfl
@[simp] theorem Chip.setPol_rlane (c : Chip) (a : Nat) (x : PolSt) (g' e' : Nat) : (c.setPol a x).rlane g' e' = c.rlane g' e' := rfl
@[simp] theorem Chip.setPol_clane (c : Chip) (a : Nat) (x : PolSt) (a' b' : Nat) : (c.setPol a x).clane a' b' = c.clane a' b' := rfl
@[simp] theorem Chip.setPol_laneTest (c : Chip) (a : Nat) (x : PolSt) (r' : Nat) : (c.setPol a x).laneTest r' = c.laneTest r' := rfl
@[simp] theorem Chip.setPol_rope (c : Chip) (a : Nat) (x : PolSt) (g' : Nat) : (c.setPol a x).rope g' = c.rope g' := rfl
@[simp] theorem Chip.setPol_posn (c : Chip) (a : Nat) (x : PolSt) (a' : Nat) : (c.setPol a x).posn a' = c.posn a' := rfl
@[simp] theorem Chip.setPol_ct (c : Chip) (a : Nat) (x : PolSt) (a' : Nat) : (c.setPol a x).ct a' = c.ct a' := rfl
@[simp] theorem Chip.setPol_cmd (c : Chip) (a : Nat) (x : PolSt) (a' : Nat) : (c.setPol a x).cmd a' = c.cmd a' := rfl
@[simp] theorem Chip.setPol_gate (c : Chip) (a : Nat) (x : PolSt) (a' : Nat) : (c.setPol a x).gate a' = c.gate a' := rfl
@[simp] theorem Chip.setPol_meas1 (c : Chip) (a : Nat) (x : PolSt) (a' : Nat) : (c.setPol a x).meas1 a' = c.meas1 a' := rfl
@[simp] theorem Chip.setPol_corr (c : Chip) (a : Nat) (x : PolSt) (a' k' : Nat) : (c.setPol a x).corr a' k' = c.corr a' k' := rfl
@[simp] theorem Chip.setPol_pack (c : Chip) (a : Nat) (x : PolSt) (a' : Nat) : (c.setPol a x).pack a' = c.pack a' := rfl
@[simp] theorem Chip.setPol_ledger (c : Chip) (a : Nat) (x : PolSt) (a' : Nat) : (c.setPol a x).ledger a' = c.ledger a' := rfl
@[simp] theorem Chip.setPol_can (c : Chip) (a : Nat) (x : PolSt) (n' : Nat) : (c.setPol a x).can n' = c.can n' := rfl
@[simp] theorem Chip.setPol_bc (c : Chip) (a : Nat) (x : PolSt) (a' : Nat) : (c.setPol a x).bc a' = c.bc a' := rfl
@[simp] theorem Chip.setPol_capture (c : Chip) (a : Nat) (x : PolSt) (a' : Nat) : (c.setPol a x).capture a' = c.capture a' := rfl
@[simp] theorem Chip.setPol_xch (c : Chip) (a : Nat) (x : PolSt) (a' : Nat) : (c.setPol a x).xch a' = c.xch a' := rfl
@[simp] theorem Chip.setPol_slot (c : Chip) (a : Nat) (x : PolSt) (j' : Nat) : (c.setPol a x).slot j' = c.slot j' := rfl
@[simp] theorem Chip.setPol_rcell (c : Chip) (a : Nat) (x : PolSt) (a' : Nat) : (c.setPol a x).rcell a' = c.rcell a' := rfl
@[simp] theorem Chip.setPol_rreg (c : Chip) (a : Nat) (x : PolSt) (r' : Nat) : (c.setPol a x).rreg r' = c.rreg r' := rfl
@[simp] theorem Chip.setPol_part (c : Chip) (a : Nat) (x : PolSt) (a' : Nat) : (c.setPol a x).part a' = c.part a' := rfl

/-! ### Read after write -/

@[simp] theorem Chip.rd_wr_self (c : Chip) (f : Fld) (v : Nat) : (c.wr f v).rd f = v % 2 ^ f.width := regGet_regSet_self ..
theorem Chip.rd_wr_ne (c : Chip) {f g : Fld} (h : g.key ≠ f.key) (v : Nat) : (c.wr f v).rd g = c.rd g := regGet_regSet_ne _ h v
@[simp] theorem Chip.setChan_chan_self (c : Chip) (n : Nat) (x : ChanSt) : (c.setChan n x).chan n = x := mapGet_mapSet_self ..
theorem Chip.setChan_chan_ne (c : Chip) (n : Nat) (x : ChanSt) (n' : Nat) (h : n' ≠ n) : (c.setChan n x).chan n' = c.chan n' :=
  mapGet_mapSet_ne _ _ h _
@[simp] theorem Chip.setPort_port_self (c : Chip) (p : Nat) (x : PortSt) : (c.setPort p x).port p = x := mapGet_mapSet_self ..
theorem Chip.setPort_port_ne (c : Chip) (p : Nat) (x : PortSt) (p' : Nat) (h : p' ≠ p) : (c.setPort p x).port p' = c.port p' :=
  mapGet_mapSet_ne _ _ h _
@[simp] theorem Chip.setStream_stream_self (c : Chip) (p st : Nat) (x : StreamSt) : (c.setStream p st x).stream p st = x := mapGet_mapSet_self ..
theorem Chip.setStream_stream_ne (c : Chip) (p st : Nat) (x : StreamSt) (p' st' : Nat) (h : (8 * p' + st') ≠ (8 * p + st)) : (c.setStream p st x).stream p' st' = c.stream p' st' :=
  mapGet_mapSet_ne _ _ h _
@[simp] theorem Chip.setRlane_rlane_self (c : Chip) (g e : Nat) (x : RLaneSt) : (c.setRlane g e x).rlane g e = x := mapGet_mapSet_self ..
theorem Chip.setRlane_rlane_ne (c : Chip) (g e : Nat) (x : RLaneSt) (g' e' : Nat) (h : (2 * g' + e') ≠ (2 * g + e)) : (c.setRlane g e x).rlane g' e' = c.rlane g' e' :=
  mapGet_mapSet_ne _ _ h _
@[simp] theorem Chip.setClane_clane_self (c : Chip) (a b : Nat) (x : CLaneSt) : (c.setClane a b x).clane a b = x := mapGet_mapSet_self ..
theorem Chip.setClane_clane_ne (c : Chip) (a b : Nat) (x : CLaneSt) (a' b' : Nat) (h : (2 * a' + b') ≠ (2 * a + b)) : (c.setClane a b x).clane a' b' = c.clane a' b' :=
  mapGet_mapSet_ne _ _ h _
@[simp] theorem Chip.setLaneTest_laneTest_self (c : Chip) (r : Nat) (x : LaneTestSt) : (c.setLaneTest r x).laneTest r = x := mapGet_mapSet_self ..
theorem Chip.setLaneTest_laneTest_ne (c : Chip) (r : Nat) (x : LaneTestSt) (r' : Nat) (h : r' ≠ r) : (c.setLaneTest r x).laneTest r' = c.laneTest r' :=
  mapGet_mapSet_ne _ _ h _
@[simp] theorem Chip.setRope_rope_self (c : Chip) (g : Nat) (x : RopeSt) : (c.setRope g x).rope g = x := mapGet_mapSet_self ..
theorem Chip.setRope_rope_ne (c : Chip) (g : Nat) (x : RopeSt) (g' : Nat) (h : g' ≠ g) : (c.setRope g x).rope g' = c.rope g' :=
  mapGet_mapSet_ne _ _ h _
@[simp] theorem Chip.setAt_posn_self (c : Chip) (a : Nat) (x : PosSt) : (c.setAt a x).posn a = x := mapGet_mapSet_self ..
theorem Chip.setAt_posn_ne (c : Chip) (a : Nat) (x : PosSt) (a' : Nat) (h : a' ≠ a) : (c.setAt a x).posn a' = c.posn a' :=
  mapGet_mapSet_ne _ _ h _
@[simp] theorem Chip.setCt_ct_self (c : Chip) (a : Nat) (x : CTimeSt) : (c.setCt a x).ct a = x := mapGet_mapSet_self ..
theorem Chip.setCt_ct_ne (c : Chip) (a : Nat) (x : CTimeSt) (a' : Nat) (h : a' ≠ a) : (c.setCt a x).ct a' = c.ct a' :=
  mapGet_mapSet_ne _ _ h _
@[simp] theorem Chip.setCmd_cmd_self (c : Chip) (a : Nat) (x : CCmdSt) : (c.setCmd a x).cmd a = x := mapGet_mapSet_self ..
theorem Chip.setCmd_cmd_ne (c : Chip) (a : Nat) (x : CCmdSt) (a' : Nat) (h : a' ≠ a) : (c.setCmd a x).cmd a' = c.cmd a' :=
  mapGet_mapSet_ne _ _ h _
@[simp] theorem Chip.setGate_gate_self (c : Chip) (a : Nat) (x : GateSt) : (c.setGate a x).gate a = x := mapGet_mapSet_self ..
theorem Chip.setGate_gate_ne (c : Chip) (a : Nat) (x : GateSt) (a' : Nat) (h : a' ≠ a) : (c.setGate a x).gate a' = c.gate a' :=
  mapGet_mapSet_ne _ _ h _
@[simp] theorem Chip.setMeas_meas1_self (c : Chip) (a : Nat) (x : MeasSt) : (c.setMeas a x).meas1 a = x := mapGet_mapSet_self ..
theorem Chip.setMeas_meas1_ne (c : Chip) (a : Nat) (x : MeasSt) (a' : Nat) (h : a' ≠ a) : (c.setMeas a x).meas1 a' = c.meas1 a' :=
  mapGet_mapSet_ne _ _ h _
@[simp] theorem Chip.setCorr_corr_self (c : Chip) (a k : Nat) (x : CorrSt) : (c.setCorr a k x).corr a k = x := mapGet_mapSet_self ..
theorem Chip.setCorr_corr_ne (c : Chip) (a k : Nat) (x : CorrSt) (a' k' : Nat) (h : (4 * a' + k') ≠ (4 * a + k)) : (c.setCorr a k x).corr a' k' = c.corr a' k' :=
  mapGet_mapSet_ne _ _ h _
@[simp] theorem Chip.setPack_pack_self (c : Chip) (a : Nat) (x : PackSt) : (c.setPack a x).pack a = x := mapGet_mapSet_self ..
theorem Chip.setPack_pack_ne (c : Chip) (a : Nat) (x : PackSt) (a' : Nat) (h : a' ≠ a) : (c.setPack a x).pack a' = c.pack a' :=
  mapGet_mapSet_ne _ _ h _
@[simp] theorem Chip.setLedger_ledger_self (c : Chip) (a : Nat) (x : LedgSt) : (c.setLedger a x).ledger a = x := mapGet_mapSet_self ..
theorem Chip.setLedger_ledger_ne (c : Chip) (a : Nat) (x : LedgSt) (a' : Nat) (h : a' ≠ a) : (c.setLedger a x).ledger a' = c.ledger a' :=
  mapGet_mapSet_ne _ _ h _
@[simp] theorem Chip.setCan_can_self (c : Chip) (n : Nat) (x : CanSt) : (c.setCan n x).can n = x := mapGet_mapSet_self ..
theorem Chip.setCan_can_ne (c : Chip) (n : Nat) (x : CanSt) (n' : Nat) (h : n' ≠ n) : (c.setCan n x).can n' = c.can n' :=
  mapGet_mapSet_ne _ _ h _
@[simp] theorem Chip.setBc_bc_self (c : Chip) (a : Nat) (x : BcSt) : (c.setBc a x).bc a = x := mapGet_mapSet_self ..
theorem Chip.setBc_bc_ne (c : Chip) (a : Nat) (x : BcSt) (a' : Nat) (h : a' ≠ a) : (c.setBc a x).bc a' = c.bc a' :=
  mapGet_mapSet_ne _ _ h _
@[simp] theorem Chip.setCapture_capture_self (c : Chip) (a : Nat) (x : CaptureSt) : (c.setCapture a x).capture a = x := mapGet_mapSet_self ..
theorem Chip.setCapture_capture_ne (c : Chip) (a : Nat) (x : CaptureSt) (a' : Nat) (h : a' ≠ a) : (c.setCapture a x).capture a' = c.capture a' :=
  mapGet_mapSet_ne _ _ h _
@[simp] theorem Chip.setXch_xch_self (c : Chip) (a : Nat) (x : XchgSt) : (c.setXch a x).xch a = x := mapGet_mapSet_self ..
theorem Chip.setXch_xch_ne (c : Chip) (a : Nat) (x : XchgSt) (a' : Nat) (h : a' ≠ a) : (c.setXch a x).xch a' = c.xch a' :=
  mapGet_mapSet_ne _ _ h _
@[simp] theorem Chip.setSlot_slot_self (c : Chip) (j : Nat) (x : SlotSt) : (c.setSlot j x).slot j = x := mapGet_mapSet_self ..
theorem Chip.setSlot_slot_ne (c : Chip) (j : Nat) (x : SlotSt) (j' : Nat) (h : j' ≠ j) : (c.setSlot j x).slot j' = c.slot j' :=
  mapGet_mapSet_ne _ _ h _
@[simp] theorem Chip.setRcell_rcell_self (c : Chip) (a : Nat) (x : RankCell) : (c.setRcell a x).rcell a = x := mapGet_mapSet_self ..
theorem Chip.setRcell_rcell_ne (c : Chip) (a : Nat) (x : RankCell) (a' : Nat) (h : a' ≠ a) : (c.setRcell a x).rcell a' = c.rcell a' :=
  mapGet_mapSet_ne _ _ h _
@[simp] theorem Chip.setRreg_rreg_self (c : Chip) (r : Nat) (x : RegRank) : (c.setRreg r x).rreg r = x := mapGet_mapSet_self ..
theorem Chip.setRreg_rreg_ne (c : Chip) (r : Nat) (x : RegRank) (r' : Nat) (h : r' ≠ r) : (c.setRreg r x).rreg r' = c.rreg r' :=
  mapGet_mapSet_ne _ _ h _
@[simp] theorem Chip.setPol_pol_self (c : Chip) (a : Nat) (x : PolSt) : (c.setPol a x).pol a = x := mapGet_mapSet_self ..
theorem Chip.setPol_pol_ne (c : Chip) (a : Nat) (x : PolSt) (a' : Nat) (h : a' ≠ a) : (c.setPol a x).pol a' = c.pol a' :=
  mapGet_mapSet_ne _ _ h _

/-! ### A read of a chip that is written out, and how a read folds back -/

section
variable (regs : Regs) (card : Card) (time : TimeSt) (chans : List (Nat × ChanSt)) (faults : FaultSt) (ports : List (Nat × PortSt)) (streams : List (Nat × StreamSt)) (orders : OrderSt) (rlanes : List (Nat × RLaneSt)) (clanes : List (Nat × CLaneSt)) (laneTests : List (Nat × LaneTestSt)) (ropes : List (Nat × RopeSt)) (slots : List (Nat × SlotOut)) (pos : List (Nat × PosSt)) (ctime : List (Nat × CTimeSt)) (ccmd : List (Nat × CCmdSt)) (gates : List (Nat × GateSt)) (meas : List (Nat × MeasSt)) (corrs : List (Nat × CorrSt)) (packs : List (Nat × PackSt)) (ledgers : List (Nat × LedgSt)) (cans : List (Nat × CanSt)) (bcs : List (Nat × BcSt)) (captures : List (Nat × CaptureSt)) (xchs : List (Nat × XchgSt)) (sched : SchedSt) (loop : LoopSt) (rcells : List (Nat × RankCell)) (rregs : List (Nat × RegRank)) (pols : List (Nat × PolSt)) (policy : PolicySt) (sweep : SweepSt) (cal : CalSt) (fetches : List (Nat × Fetch)) (parts : List (Nat × CellPart)) (safety : SafetySt) (recov : RecovSt) (recorder : RecSt) (start : StartSt) (flash : List (Nat × List Nat)) (free : Nat)
@[simp] theorem Chip.rd_mk (f' : Fld) : (Chip.mk regs card time chans faults ports streams orders rlanes clanes laneTests ropes slots pos ctime ccmd gates meas corrs packs ledgers cans bcs captures xchs sched loop rcells rregs pols policy sweep cal fetches parts safety recov recorder start flash free).rd f' = regGet regs f' := rfl
@[simp] theorem Chip.chan_mk (n' : Nat) : (Chip.mk regs card time chans faults ports streams orders rlanes clanes laneTests ropes slots pos ctime ccmd gates meas corrs packs ledgers cans bcs captures xchs sched loop rcells rregs pols policy sweep cal fetches parts safety recov recorder start flash free).chan n' = mapGet ChanSt.idle chans n' := rfl
@[simp] theorem Chip.port_mk (p' : Nat) : (Chip.mk regs card time chans faults ports streams orders rlanes clanes laneTests ropes slots pos ctime ccmd gates meas corrs packs ledgers cans bcs captures xchs sched loop rcells rregs pols policy sweep cal fetches parts safety recov recorder start flash free).port p' = mapGet PortSt.down ports p' := rfl
@[simp] theorem Chip.stream_mk (p' st' : Nat) : (Chip.mk regs card time chans faults ports streams orders rlanes clanes laneTests ropes slots pos ctime ccmd gates meas corrs packs ledgers cans bcs captures xchs sched loop rcells rregs pols policy sweep cal fetches parts safety recov recorder start flash free).stream p' st' = mapGet StreamSt.idle streams (8 * p' + st') := rfl
@[simp] theorem Chip.rlane_mk (g' e' : Nat) : (Chip.mk regs card time chans faults ports streams orders rlanes clanes laneTests ropes slots pos ctime ccmd gates meas corrs packs ledgers cans bcs captures xchs sched loop rcells rregs pols policy sweep cal fetches parts safety recov recorder start flash free).rlane g' e' = mapGet RLaneSt.idle rlanes (2 * g' + e') := rfl
@[simp] theorem Chip.clane_mk (a' b' : Nat) : (Chip.mk regs card time chans faults ports streams orders rlanes clanes laneTests ropes slots pos ctime ccmd gates meas corrs packs ledgers cans bcs captures xchs sched loop rcells rregs pols policy sweep cal fetches parts safety recov recorder start flash free).clane a' b' = mapGet CLaneSt.idle clanes (2 * a' + b') := rfl
@[simp] theorem Chip.laneTest_mk (r' : Nat) : (Chip.mk regs card time chans faults ports streams orders rlanes clanes laneTests ropes slots pos ctime ccmd gates meas corrs packs ledgers cans bcs captures xchs sched loop rcells rregs pols policy sweep cal fetches parts safety recov recorder start flash free).laneTest r' = mapGet LaneTestSt.idle laneTests r' := rfl
@[simp] theorem Chip.rope_mk (g' : Nat) : (Chip.mk regs card time chans faults ports streams orders rlanes clanes laneTests ropes slots pos ctime ccmd gates meas corrs packs ledgers cans bcs captures xchs sched loop rcells rregs pols policy sweep cal fetches parts safety recov recorder start flash free).rope g' = mapGet RopeSt.idle ropes g' := rfl
@[simp] theorem Chip.posn_mk (a' : Nat) : (Chip.mk regs card time chans faults ports streams orders rlanes clanes laneTests ropes slots pos ctime ccmd gates meas corrs packs ledgers cans bcs captures xchs sched loop rcells rregs pols policy sweep cal fetches parts safety recov recorder start flash free).posn a' = mapGet PosSt.idle pos a' := rfl
@[simp] theorem Chip.ct_mk (a' : Nat) : (Chip.mk regs card time chans faults ports streams orders rlanes clanes laneTests ropes slots pos ctime ccmd gates meas corrs packs ledgers cans bcs captures xchs sched loop rcells rregs pols policy sweep cal fetches parts safety recov recorder start flash free).ct a' = mapGet CTimeSt.idle ctime a' := rfl
@[simp] theorem Chip.cmd_mk (a' : Nat) : (Chip.mk regs card time chans faults ports streams orders rlanes clanes laneTests ropes slots pos ctime ccmd gates meas corrs packs ledgers cans bcs captures xchs sched loop rcells rregs pols policy sweep cal fetches parts safety recov recorder start flash free).cmd a' = mapGet CCmdSt.idle ccmd a' := rfl
@[simp] theorem Chip.gate_mk (a' : Nat) : (Chip.mk regs card time chans faults ports streams orders rlanes clanes laneTests ropes slots pos ctime ccmd gates meas corrs packs ledgers cans bcs captures xchs sched loop rcells rregs pols policy sweep cal fetches parts safety recov recorder start flash free).gate a' = mapGet GateSt.idle gates a' := rfl
@[simp] theorem Chip.meas1_mk (a' : Nat) : (Chip.mk regs card time chans faults ports streams orders rlanes clanes laneTests ropes slots pos ctime ccmd gates meas corrs packs ledgers cans bcs captures xchs sched loop rcells rregs pols policy sweep cal fetches parts safety recov recorder start flash free).meas1 a' = mapGet MeasSt.idle meas a' := rfl
@[simp] theorem Chip.corr_mk (a' k' : Nat) : (Chip.mk regs card time chans faults ports streams orders rlanes clanes laneTests ropes slots pos ctime ccmd gates meas corrs packs ledgers cans bcs captures xchs sched loop rcells rregs pols policy sweep cal fetches parts safety recov recorder start flash free).corr a' k' = mapGet CorrSt.idle corrs (4 * a' + k') := rfl
@[simp] theorem Chip.pack_mk (a' : Nat) : (Chip.mk regs card time chans faults ports streams orders rlanes clanes laneTests ropes slots pos ctime ccmd gates meas corrs packs ledgers cans bcs captures xchs sched loop rcells rregs pols policy sweep cal fetches parts safety recov recorder start flash free).pack a' = mapGet PackSt.idle packs a' := rfl
@[simp] theorem Chip.ledger_mk (a' : Nat) : (Chip.mk regs card time chans faults ports streams orders rlanes clanes laneTests ropes slots pos ctime ccmd gates meas corrs packs ledgers cans bcs captures xchs sched loop rcells rregs pols policy sweep cal fetches parts safety recov recorder start flash free).ledger a' = mapGet LedgSt.idle ledgers a' := rfl
@[simp] theorem Chip.can_mk (n' : Nat) : (Chip.mk regs card time chans faults ports streams orders rlanes clanes laneTests ropes slots pos ctime ccmd gates meas corrs packs ledgers cans bcs captures xchs sched loop rcells rregs pols policy sweep cal fetches parts safety recov recorder start flash free).can n' = mapGet CanSt.idle cans n' := rfl
@[simp] theorem Chip.bc_mk (a' : Nat) : (Chip.mk regs card time chans faults ports streams orders rlanes clanes laneTests ropes slots pos ctime ccmd gates meas corrs packs ledgers cans bcs captures xchs sched loop rcells rregs pols policy sweep cal fetches parts safety recov recorder start flash free).bc a' = mapGet BcSt.idle bcs a' := rfl
@[simp] theorem Chip.capture_mk (a' : Nat) : (Chip.mk regs card time chans faults ports streams orders rlanes clanes laneTests ropes slots pos ctime ccmd gates meas corrs packs ledgers cans bcs captures xchs sched loop rcells rregs pols policy sweep cal fetches parts safety recov recorder start flash free).capture a' = mapGet CaptureSt.idle captures a' := rfl
@[simp] theorem Chip.xch_mk (a' : Nat) : (Chip.mk regs card time chans faults ports streams orders rlanes clanes laneTests ropes slots pos ctime ccmd gates meas corrs packs ledgers cans bcs captures xchs sched loop rcells rregs pols policy sweep cal fetches parts safety recov recorder start flash free).xch a' = mapGet XchgSt.idle xchs a' := rfl
@[simp] theorem Chip.slot_mk (j' : Nat) : (Chip.mk regs card time chans faults ports streams orders rlanes clanes laneTests ropes slots pos ctime ccmd gates meas corrs packs ledgers cans bcs captures xchs sched loop rcells rregs pols policy sweep cal fetches parts safety recov recorder start flash free).slot j' = mapGet SlotSt.idle loop.slots j' := rfl
@[simp] theorem Chip.rcell_mk (a' : Nat) : (Chip.mk regs card time chans faults ports streams orders rlanes clanes laneTests ropes slots pos ctime ccmd gates meas corrs packs ledgers cans bcs captures xchs sched loop rcells rregs pols policy sweep cal fetches parts safety recov recorder start flash free).rcell a' = mapGet RankCell.idle rcells a' := rfl
@[simp] theorem Chip.rreg_mk (r' : Nat) : (Chip.mk regs card time chans faults ports streams orders rlanes clanes laneTests ropes slots pos ctime ccmd gates meas corrs packs ledgers cans bcs captures xchs sched loop rcells rregs pols policy sweep cal fetches parts safety recov recorder start flash free).rreg r' = mapGet RegRank.idle rregs r' := rfl
@[simp] theorem Chip.pol_mk (a' : Nat) : (Chip.mk regs card time chans faults ports streams orders rlanes clanes laneTests ropes slots pos ctime ccmd gates meas corrs packs ledgers cans bcs captures xchs sched loop rcells rregs pols policy sweep cal fetches parts safety recov recorder start flash free).pol a' = mapGet PolSt.idle pols a' := rfl
@[simp] theorem Chip.part_mk (a' : Nat) : (Chip.mk regs card time chans faults ports streams orders rlanes clanes laneTests ropes slots pos ctime ccmd gates meas corrs packs ledgers cans bcs captures xchs sched loop rcells rregs pols policy sweep cal fetches parts safety recov recorder start flash free).part a' = mapGet CellPart.blank parts a' := rfl

@[simp] theorem Chip.rd_fold (c : Chip) (f : Fld) : regGet c.regs f = c.rd f := rfl
@[simp] theorem Chip.chan_fold (c : Chip) (n : Nat) : mapGet ChanSt.idle c.chans n = c.chan n := rfl
@[simp] theorem Chip.port_fold (c : Chip) (p : Nat) : mapGet PortSt.down c.ports p = c.port p := rfl
@[simp] theorem Chip.stream_fold (c : Chip) (p st : Nat) : mapGet StreamSt.idle c.streams (8 * p + st) = c.stream p st := rfl
@[simp] theorem Chip.rlane_fold (c : Chip) (g e : Nat) : mapGet RLaneSt.idle c.rlanes (2 * g + e) = c.rlane g e := rfl
@[simp] theorem Chip.clane_fold (c : Chip) (a b : Nat) : mapGet CLaneSt.idle c.clanes (2 * a + b) = c.clane a b := rfl
@[simp] theorem Chip.laneTest_fold (c : Chip) (r : Nat) : mapGet LaneTestSt.idle c.laneTests r = c.laneTest r := rfl
@[simp] theorem Chip.rope_fold (c : Chip) (g : Nat) : mapGet RopeSt.idle c.ropes g = c.rope g := rfl
@[simp] theorem Chip.posn_fold (c : Chip) (a : Nat) : mapGet PosSt.idle c.pos a = c.posn a := rfl
@[simp] theorem Chip.ct_fold (c : Chip) (a : Nat) : mapGet CTimeSt.idle c.ctime a = c.ct a := rfl
@[simp] theorem Chip.cmd_fold (c : Chip) (a : Nat) : mapGet CCmdSt.idle c.ccmd a = c.cmd a := rfl
@[simp] theorem Chip.gate_fold (c : Chip) (a : Nat) : mapGet GateSt.idle c.gates a = c.gate a := rfl
@[simp] theorem Chip.meas1_fold (c : Chip) (a : Nat) : mapGet MeasSt.idle c.meas a = c.meas1 a := rfl
@[simp] theorem Chip.corr_fold (c : Chip) (a k : Nat) : mapGet CorrSt.idle c.corrs (4 * a + k) = c.corr a k := rfl
@[simp] theorem Chip.pack_fold (c : Chip) (a : Nat) : mapGet PackSt.idle c.packs a = c.pack a := rfl
@[simp] theorem Chip.ledger_fold (c : Chip) (a : Nat) : mapGet LedgSt.idle c.ledgers a = c.ledger a := rfl
@[simp] theorem Chip.can_fold (c : Chip) (n : Nat) : mapGet CanSt.idle c.cans n = c.can n := rfl
@[simp] theorem Chip.bc_fold (c : Chip) (a : Nat) : mapGet BcSt.idle c.bcs a = c.bc a := rfl
@[simp] theorem Chip.capture_fold (c : Chip) (a : Nat) : mapGet CaptureSt.idle c.captures a = c.capture a := rfl
@[simp] theorem Chip.xch_fold (c : Chip) (a : Nat) : mapGet XchgSt.idle c.xchs a = c.xch a := rfl
@[simp] theorem Chip.slot_fold (c : Chip) (j : Nat) : mapGet SlotSt.idle c.loop.slots j = c.slot j := rfl
@[simp] theorem Chip.rcell_fold (c : Chip) (a : Nat) : mapGet RankCell.idle c.rcells a = c.rcell a := rfl
@[simp] theorem Chip.rreg_fold (c : Chip) (r : Nat) : mapGet RegRank.idle c.rregs r = c.rreg r := rfl
@[simp] theorem Chip.pol_fold (c : Chip) (a : Nat) : mapGet PolSt.idle c.pols a = c.pol a := rfl
@[simp] theorem Chip.part_fold (c : Chip) (a : Nat) : mapGet CellPart.blank c.parts a = c.part a := rfl

end

/-! ### The outcome of a command -/

@[simp] theorem State.run_eq (s : State) (f : Chip → Chip) : s.run f = .next { s with chip := f s.chip } := rfl
@[simp] theorem State.runFused_eq (s : State) (f : Fuses → Chip → Chip) : s.runFused f = .next { s with chip := f s.fuses s.chip } := rfl
@[simp] theorem State.blow_eq (s : State) (f : Fuses → Chip → Fuses × Chip) :
    s.blow f = .next { s with chip := (f s.fuses s.chip).2, fuses := (f s.fuses s.chip).1 } := rfl

/-! ### The derived updates of a register field -/

theorem Chip.set_eq (c : Chip) (f : Fld) : c.set f = c.wr f 1 := rfl
theorem Chip.clr_eq (c : Chip) (f : Fld) : c.clr f = c.wr f 0 := rfl
theorem Chip.inc_eq (c : Chip) (f : Fld) : c.inc f = c.wr f (c.rd f + 1) := rfl
theorem Chip.wrB_eq (c : Chip) (f : Fld) (v : Bool) : c.wrB f v = c.wr f (bit v) := rfl
theorem Chip.refuse_eq (c : Chip) (p : Nat) :
    c.refuse p = ((c.wr (Reg.Port.RIGHTS_REFUSED p) (c.rd (Reg.Port.RIGHTS_REFUSED p) + 1)).wr (Reg.Port.RIGHTS_SEEN p) 1).irq p 0 := rfl

end Sys2Proof.Machine
end

