-- ==== Sys2Proof/WellFormed.lean ====
section
/-! DEFINITION. Which commands can stand in front of the block: the shapes and ranges that the specification gives the things a
command carries, where the type of an operand does not give them already. -/

namespace Sys2Proof

/-- Max Payload Size is 128 or 256 bytes (R374). -/
def okPayload (mps : Nat) : Bool := decide (mps = 128 ∨ mps = 256)

/-- A BAR0 access is one naturally aligned word of the 1 MiB window (R374, R375). -/
def okOffset (addr : Nat) : Bool := decide (addr < 0x100000 ∧ addr % 4 = 0)

/-- A stream record is 16 to 256 bytes long, a multiple of 16 (R388). -/
def okRecLen (len : Nat) : Bool := decide (16 ≤ len ∧ len ≤ 256 ∧ len % 16 = 0)

/-- A list of exactly `n` bytes. -/
def okLen (n : Nat) (l : List Byte) : Bool := decide (l.length = n)

/-- A management entry is 16 bytes long (R103). -/
def okEntries (l : List (List Byte)) : Bool := l.all (okLen 16)

/-- A bulk record is a whole number of eight-byte blocks, its header among them (R108). -/
def okBlocks (l : List Byte) : Bool := decide (8 ≤ l.length ∧ l.length % 8 = 0)

/-- A CAN frame as ISO 11898-1 lays it out (R289): an identifier of its format's width, 8 data bytes, or 64 in FD; no FD frame is a
remote frame. -/
def okFrame (f : BusFrame) : Bool :=
  decide (f.id < (if f.ext then 2 ^ 29 else 2 ^ 11) ∧ f.data.length ≤ (if f.fdf then 64 else 8)) && f.data.all (fun b => decide (b < 256))
    && !(f.fdf && f.remote)

/-- The fields of an Announce message have the widths of IEEE 1588 (R41). -/
def okAnnounce (m : Announce) : Bool :=
  decide (m.priority1 < 256 ∧ m.clockClass < 256 ∧ m.accuracy < 256 ∧ m.variance < 65536 ∧ m.priority2 < 256 ∧ m.identity < 2 ^ 64 ∧
    m.steps < 65536 ∧ m.domain < 256)

/-- The fused fields of a WN140 fit their registers (R231), and a key is 32 bytes (R286). -/
def okFuses (f : CellFuses) : Bool :=
  decide (f.stepMinor < 256 ∧ f.stepMajor < 256 ∧ f.dieUid < 2 ^ 64) &&
    (match f.key with
    | none => true
    | some k => decide (k.length = 32))

/-- The text fields of a module's page A0h have the lengths of SFF-8472 (R84). -/
def okModule : Option ModuleId → Bool
  | none => true
  | some m => okLen 16 m.vendor && okLen 16 m.partNo && okLen 16 m.serial && decide (m.wavelength < 65536 ∧ m.monitor < 256)

/-- Is the command one that can reach the block? -/
def Instr.wellFormed (i : Instr) : Bool :=
  match i with
  | .ptpSync _ _ _ _ _ _ => true
  | .ptpAnnounce msg => okAnnounce msg
  | .ptpPdelay _ _ _ _ _ => true
  | .ptpMasterLost => true
  | .ppsInEdge _ _ => true
  | .ppsMissing => true
  | .lockGained _ => true
  | .lockLost _ => true
  | .referenceLost _ => true
  | .referenceRejected => true
  | .holdoverLimitExpiry => true
  | .timeSetSecWrite _ _ => true
  | .syncGo _ => true
  | .profileStart _ => true
  | .profileSegmentEnd _ => true
  | .datedActionDue _ _ _ _ => true
  | .timeAlignmentLost _ => true
  | .frameStart _ _ _ _ => true
  | .cellFrameStart _ _ _ _ => true
  | .cmdRun _ _ => true
  | .cmdBypass _ _ => true
  | .cmdBlock _ _ => true
  | .controlFrameRx _ _ _ cairn slot entries _ => okLen 32 cairn && okLen 32 slot && okEntries entries
  | .faultAck _ _ => true
  | .bulkAck _ _ => true
  | .mgmtNop _ => true
  | .mgmtWrite _ _ _ _ => true
  | .mgmtRead _ _ _ => true
  | .mgmtBcastWrite _ _ _ => true
  | .mgmtProbe _ _ _ _ => true
  | .echoRx _ _ bytes _ => okLen 8 bytes
  | .delayAveragePeriod => true
  | .bulkFrameRx _ _ => true
  | .bulkCorrResultRx _ blocks => okBlocks blocks
  | .bulkLedgerRowRx _ blocks => okBlocks blocks
  | .bulkBmsMirrorRx _ blocks => okBlocks blocks
  | .bulkCellCaptureRx _ blocks => okBlocks blocks
  | .ridgeFrameRx _ _ _ cairn reports entries _ _ => okLen 32 cairn && reports.all (fun r => okLen 32 r.2) && okEntries entries
  | .reportCutoff _ => true
  | .rankComplete _ _ _ => true
  | .rankLate _ _ => true
  | .edgeComputeDone _ _ _ => true
  | .belayPassDone _ _ => true
  | .commandHandover _ => true
  | .modeDecide _ => true
  | .ropeHeal _ _ => true
  | .ropeUnstable _ _ => true
  | .belayHorizon _ _ => true
  | .blockInvalidRx _ => true
  | .errorBlockRx _ _ => true
  | .blockLockGained _ => true
  | .blockLockLost _ => true
  | .laneUp _ _ _ _ _ => true
  | .laneDown _ => true
  | .breakRepeat _ _ => true
  | .breakRx _ x => decide (x.addr < 16384)
  | .remoteDownClear _ _ => true
  | .errWindowEnd _ => true
  | .txEqWrite _ _ _ => true
  | .laneTestStart _ _ => true
  | .laneTestAckTimeout _ => true
  | .testStartFrameReached _ => true
  | .laneTestEnd _ _ _ => true
  | .laneTestAbort _ _ => true
  | .checkerSyncGained _ => true
  | .checkerSyncLost _ => true
  | .injSingle _ _ => true
  | .injBurst _ _ => true
  | .loopbackSet _ _ _ _ => true
  | .moduleIdRead _ _ id => okModule id
  | .moduleDiagRead _ _ _ => true
  | .moduleBusHeld _ _ _ => true
  | .policyTick _ => true
  | .policyTickComplete _ _ => true
  | .policyTickTimeout _ => true
  | .socDisagreeTimeout _ => true
  | .healthMaxAgeExpiry _ => true
  | .policyUnfenceHoldEnd _ _ => true
  | .leaseGo _ => true
  | .loopStart _ _ => true
  | .loopDeadline _ _ => true
  | .loopMissLimit _ => true
  | .feedbackLost _ => true
  | .feedbackRecover _ => true
  | .sensorFrozen _ _ _ => true
  | .sensorUnfrozen _ _ _ => true
  | .sensorDisagreement _ _ => true
  | .xchkClear _ _ => true
  | .slotGo _ => true
  | .dcdcEn _ _ _ => true
  | .bcFeedbackLost _ => true
  | .activateInstr _ _ _ => true
  | .cancelInstr _ => true
  | .datedActivationDue _ _ => true
  | .taskReady _ _ => true
  | .taskDispatch _ _ => true
  | .taskComplete _ _ => true
  | .taskOverrun _ _ => true
  | .taskDeadline _ _ => true
  | .taskTimeout _ _ => true
  | .predCancelled _ _ => true
  | .actGo _ => true
  | .cancelGo _ => true
  | .traceFreeze => true
  | .unfreeze _ => true
  | .traceW0Read _ => true
  | .taskRunsRead _ => true
  | .cellPowerOnReset _ testMode fused _ _ _ => decide (testMode < 4) && okFuses fused
  | .cellBrownOut _ => true
  | .epochWrite _ _ _ => true
  | .enrol _ => true
  | .fenceReq _ => true
  | .unfenceReq _ => true
  | .toBivouac _ => true
  | .admitTimeout _ _ => true
  | .delayWrite _ _ _ => true
  | .desaturation _ _ _ _ => true
  | .overVoltageBypass _ _ _ => true
  | .bypFireEnd _ => true
  | .bypassNotConfirmed _ _ => true
  | .gateChangeDue _ => true
  | .deferredChangeExec _ => true
  | .deadTimeTurnOn _ => true
  | .conversionDue _ _ _ => true
  | .conversionStart _ _ => true
  | .conversionDropped _ _ _ => true
  | .conversionComplete _ _ _ => true
  | .convPlan _ _ => true
  | .planDataAccess _ _ => true
  | .bufW0Read _ => true
  | .cellCalGo _ => true
  | .calPointDone _ => true
  | .calPointTimeout _ _ => true
  | .calGo _ _ => true
  | .calStore _ _ => true
  | .corrEn _ _ => true
  | .corrRestart _ _ => true
  | .corrWindowStart _ _ _ => true
  | .corrWindowEnd _ _ _ => true
  | .sweepGo _ => true
  | .sweepStop _ => true
  | .unpairedTimeout _ => true
  | .packPresentDebounced _ _ => true
  | .packRemoved _ _ _ => true
  | .idRecordReadDone _ _ => true
  | .idNackRetry _ => true
  | .idBusHeld _ _ => true
  | .idBusRetry _ _ => true
  | .readIds _ => true
  | .packAccept _ => true
  | .packRefuse _ => true
  | .portClose _ => true
  | .portCloseTimeout _ _ => true
  | .portOpen _ => true
  | .packDetach _ => true
  | .summaryWrite _ => true
  | .summaryWriteDone _ _ => true
  | .calWrite _ => true
  | .packFence _ => true
  | .packUnfence _ => true
  | .recDataAccess _ _ => true
  | .profDataAccess _ _ => true
  | .bmsWaitTimeout _ _ => true
  | .profileDecode _ _ => true
  | .profileTargetStale _ _ _ => true
  | .bmsFenceDebounce _ _ => true
  | .profileTxDue _ _ _ => true
  | .bmsMirrorDue _ _ => true
  | .xchgGo _ => true
  | .xchgRampDone _ => true
  | .xchgAbort _ => true
  | .xchgTimeout _ _ => true
  | .ledgerCommit _ => true
  | .ledgerPeriodic _ _ => true
  | .vdd33EarlyWarning _ _ => true
  | .vdd33WarningClear _ => true
  | .ledgerCommitDone _ _ _ => true
  | .rowFetch _ _ => true
  | .ledgerGo _ => true
  | .canFrameRx _ _ f => okFrame f
  | .canTxDone _ _ _ _ _ => true
  | .canBusError _ _ _ _ _ => true
  | .rxAck _ => true
  | .tx2Go _ _ => true
  | .tx2Abort _ _ => true
  | .canCfgWrite _ _ => true
  | .canBusIdleSeen _ => true
  | .canRestart _ => true
  | .channelRestartGo _ _ => true
  | .cellCanRestart _ => true
  | .canAutoRestart _ _ => true
  | .canRecoveryDone _ => true
  | .busAlone _ _ => true
  | .busAloneAttempt _ => true
  | .canRxStall _ _ => true
  | .identClash _ _ => true
  | .admissionStart _ => true
  | .admitPollRead _ => true
  | .epochConfirmTimeout _ => true
  | .admitBackoffEnd _ _ => true
  | .abandonedUidCheck _ => true
  | .readmitGo _ => true
  | .cellLost _ => true
  | .ropeDownGo _ => true
  | .ropeUpGo _ => true
  | .ridgeFailure _ _ => true
  | .ridgeRestart _ => true
  | .ridgeSelfTestDone _ _ => true
  | .dieToDieLinkLost _ => true
  | .dieToDieLinkUp _ => true
  | .lockstepMismatch _ => true
  | .planeFailover => true
  | .planeResyncDone => true
  | .faultMessageRx _ _ _ => true
  | .ackGo _ => true
  | .ackAll _ => true
  | .firstReset _ => true
  | .tripReset _ => true
  | .injGo _ => true
  | .cellInjGo _ => true
  | .unfenceGo _ => true
  | .faultHoldWrite _ _ => true
  | .faultNPulseEnd _ => true
  | .firstMsgLoRead _ => true
  | .logW0Read _ => true
  | .headLoRead _ => true
  | .rateWindowEnd _ => true
  | .levelTrigger _ => true
  | .trigGo _ => true
  | .recorderTriggerInstr _ => true
  | .preTimeExpiry _ => true
  | .postTimeExpiry _ => true
  | .closingEnd _ _ => true
  | .relGo _ => true
  | .rdW0Read _ => true
  | .bdStateRead _ => true
  | .safetyEvaluation _ chs _ _ => decide (chs.length = 8)
  | .testPulse _ _ seen => decide (seen.length = 8)
  | .discrepancyTimeout _ _ => true
  | .inputFaultClear _ _ => true
  | .offDelayExpiry _ _ => true
  | .safetyReset _ => true
  | .outputOffPulseTest _ _ _ _ => true
  | .fbTimeExpiry _ _ => true
  | .degradedExpiry _ => true
  | .hostLinkUp _ _ _ => true
  | .hostLinkDown _ => true
  | .hostResetAssert _ => true
  | .functionLevelReset _ => true
  | .busMasterDisable _ => true
  | .aerUncorrectable _ => true
  | .attach _ _ _ mps => okPayload mps
  | .detach _ => true
  | .orderClaim _ => true
  | .orderRelease _ => true
  | .heartbeat _ _ => true
  | .hostWatchdogExpiry _ _ => true
  | .orderGo _ => true
  | .orderHoldExpiry _ => true
  | .blockGo _ => true
  | .deblockGo _ => true
  | .tripGo _ => true
  | .streamEnable _ _ => true
  | .rdPtrWrite _ _ _ => true
  | .streamRecordWrite _ _ _ => true
  | .streamRecordDrop _ _ len => okRecLen len
  | .dmaAck _ => true
  | .intDelayExpiry _ _ _ => true
  | .malformedAccess _ _ => true
  | .registerWrite _ addr _ => okOffset addr
  | .wcResetRelease _ _ => true
  | .selfTestDone _ _ _ _ _ => true
  | .cardReadDone _ _ _ _ => true
  | .validateDone _ _ => true
  | .configureDone _ => true
  | .linksDone _ => true
  | .restartGo _ => true
  | .eraseGo _ => true
  | .programGo _ => true
  | .readGo _ => true
  | .flashOpDone _ => true
  | .provisionGo _ => true
  | .provisionDone _ _ _ _ => true
  | .fieldCloseArm _ => true
  | .fieldCloseGo _ _ => true
  | .fieldCloseArmExpiry _ => true
  | .cellFieldCloseGo _ _ => true
  | .fuseIntegrityFailure _ => true
  | .supplyOutOfRange _ _ => true
  | .supplyBelowReset _ => true
  | .vs24OutOfWindow _ => true
  | .dieTempSample _ _ => true
  | .timeNsRead _ _ => true
  | .angleRead _ _ _ => true
  | .ptpGmIdLoRead _ => true
  | .dieUidLoRead _ => true
  | .cellTimeNsRead _ => true
  | .testErrCountRead _ _ => true
  | .probeKeyRead _ _ => true
  | .prSocRead _ => true
  | .bcIntegRead _ => true
  | .slotOutRead _ _ => true
  | .refV0Read _ _ => true
  | .corrReRead _ _ => true
  | .impAbsRead _ => true
  | .admStateRead _ => true
  | .ppPackStateRead _ => true
  | .chargeWhLoRead _ => true
  | .ctStateRead _ _ => true
  | .packConnectorMated _ _ => true
  | .calCopyWriteDone _ _ => true
  | .linkCorrectableError _ => true
  | .summitCommonLogicFailure => true
  | .safetyBlockSelfTestFailure => true
  | .safeOutputReadbackMismatch _ => true
  | .wcResetNAsserted => true
  | .wcSupplyReturn _ => true
  | .cellCaptureWindowEnd _ _ => true

end Sys2Proof
end

