-- ==== Sys2Proof/Safety.lean ====
section
/-! DEFINITION. The terms in which claims about the block are stated: that a command runs, what it leaves alone, and what holds of
every state. -/

namespace Sys2Proof.Machine

/-- The command answers a next state, of which `P` holds. -/
def Runs (i : Instr) (s : State) (P : State → Prop) : Prop := ∃ t, exec i s = .next t ∧ P t

/-- The command answers the next state that differs from `s` in the chip alone, which becomes `c`: no fuse, no waiting command changes. -/
def Does (i : Instr) (s : State) (c : Chip) : Prop := exec i s = .next { s with chip := c }

/-- `t` differs from `s` in register fields alone, and there only in the fields listed: no record, no memory, no fuse, no queue. -/
def OnlyFields (l : List Fld) (s t : State) : Prop :=
  t = { s with chip := { s.chip with regs := t.chip.regs } } ∧ ∀ f : Fld, (∀ g ∈ l, f.key ≠ g.key) → t.chip.rd f = s.chip.rd f

/-- The fuses are as blowing can leave them (R399, R409 to R411): the fuses of the cells stand in canonical form, an unbound part holds no
key hash, and the rollback floor is a byte. -/
def Fuses.sound (f : Fuses) : Prop :=
  mapWf false f.cellsClosed = true ∧ (f.keyBound = false → f.keyHash = 0) ∧ f.rollback < 256

/-- What is fused in `f` stays fused in `g` (R409): no fuse goes back, a bound key stays, the rollback floor only rises, and what the
factory fused does not change. -/
def Fuses.grewInto (f g : Fuses) : Prop :=
  g.variant = f.variant ∧ g.stepMinor = f.stepMinor ∧ g.stepMajor = f.stepMajor ∧ g.dieUid = f.dieUid ∧ g.ridge3AFused = f.ridge3AFused ∧
  (f.fieldClosed = true → g.fieldClosed = true) ∧ (f.keyBound = true → g.keyBound = true ∧ g.keyHash = f.keyHash) ∧
  f.rollback ≤ g.rollback ∧ ∀ a, mapGet false f.cellsClosed a = true → mapGet false g.cellsClosed a = true

/-- The commands that may blow a fuse (R398, R399, R407, R410, R411). -/
def blowsFuses (i : Instr) : Bool :=
  match i with
  | .configureDone _ => true
  | .provisionDone _ _ _ _ => true
  | .fieldCloseGo _ _ => true
  | .cellFieldCloseGo _ _ => true
  | _ => false

end Sys2Proof.Machine
end

