-- ==== Sys2Proof/Certificates/Slice0/Obligations.lean ====
section
/-! DEFINITION. The statements about the model. Each names in its docstring the rules it formalises; one that rests on a choice of the model
names the log entry. -/

section
open Sys2Proof Sys2Proof.Machine

/-- R40, R41, R42, R43, R45, R47. What a time reference does when it arrives: a Sync of the selected master in the card's domain counts as presence and,
where the time base follows PTP, is a reference event at its origin plus correction plus peer delay; an Announce while no master is selected selects
one; a Pdelay exchange gives half its round trip; a lost master or a missing PPS clears its presence; a PPS edge is noted as present; a TIME_SET_SEC
write by ORDER or MAINT arms the step. The time base gains lock after its run of cycles and TIME_VALID rises with it; it loses lock, loses its
reference and enters holdover, rejects a reference after four cycles beyond REF_REJECT, and is degraded when holdover lasts. Where a clause goes
beyond the words of the rules it is the model's choice: log entries 3, 8, 9, 26, 44. -/
def Obligations.TimeReferencesAndLocks : Prop :=
  ((∀ (dt domain gm origin : Nat) (corr freq : Int) (m : Announce) (s : State), s.chip.time.master = some m → m.identity = gm →
      domain = s.chip.rd Reg.Time.PTP_DOMAIN → s.chip.rd Reg.Time.REF_MODE = 1 →
      ∃ c : Chip, c.nowNs = (s.chip.advance dt).nowNs ∧ c.rd Reg.Time.PTP_PRESENT = 1 ∧ c.rd Reg.Time.PTP_PORT_STATE = 9 ∧
        Does (.ptpSync dt domain gm origin corr freq) s (c.refEvent (((origin : Int) + corr + s.chip.time.peerDelay).toNat) freq)) ∧
    (∀ (msg : Announce) (s : State), msg.domain = s.chip.rd Reg.Time.PTP_DOMAIN → s.chip.time.master = none →
      Runs (.ptpAnnounce msg) s (fun t => t.chip.time.master = some msg ∧ t.chip.rd Reg.Time.PTP_GM_ID_LO = msg.identity % 2 ^ 32 ∧
        t.chip.rd Reg.Time.PTP_GM_ID_HI = msg.identity / 2 ^ 32 % 2 ^ 32)) ∧
    (∀ (t1 t2 t3 t4 : Nat) (corr : Int) (s : State),
      Runs (.ptpPdelay t1 t2 t3 t4 corr) s (fun t =>
        t.chip.time.peerDelay = divRound (((t4 : Int) - t1) - ((t3 : Int) - t2) - corr) 2 ∧ t.chip.regs = s.chip.regs)) ∧
    (∀ s : State, Runs .ptpMasterLost s (fun t => t.chip.time.master = none ∧ t.chip.rd Reg.Time.PTP_PRESENT = 0)) ∧
    (∀ (dt : Nat) (freq : Int) (s : State), s.chip.rd Reg.Time.REF_MODE = 1 → s.chip.rd Reg.Time.SYNC_MASK = 0 →
      Runs (.ppsInEdge dt freq) s (fun t => t.chip.rd Reg.Time.PPS_PRESENT = 1 ∧ t.chip.time.ppsMissing = false)) ∧
    (∀ s : State, s.chip.rd Reg.Time.REF_MODE = 3 →
      Runs .ppsMissing s (fun t => t.chip.time.ppsMissing = true ∧ t.chip.rd Reg.Time.PPS_MISSING = 1 ∧
        t.chip.rd Reg.Time.PPS_PRESENT = 0)) ∧
    (∀ (p : PortIx) (v : Word) (s : State), s.chip.has p .order = true ∨ s.chip.has p .maint = true →
      Runs (.timeSetSecWrite p v) s (fun t => t.chip.rd Reg.Time.TIME_SET_SEC_LO = v.toNat ∧ t.chip.time.timeSetWritten = true))) ∧
  ((∀ s : State, s.chip.time.tb.locked = false → 4 ≤ s.chip.time.tb.inCount →
      Runs (.lockGained .timeBase) s (fun t => t.chip.time.tb.locked = true ∧ t.chip.rd Reg.Time.REF_LOCKED = 1 ∧
        t.chip.rd Reg.Time.REF_ACQUIRED = 1 ∧ t.chip.rd Reg.Time.TIME_VALID = 1)) ∧
    (∀ s : State, s.chip.time.tb.locked = true → 3 ≤ s.chip.time.tb.outCount →
      Runs (.lockLost .timeBase) s (fun t => t.chip.time.tb.locked = false ∧ t.chip.rd Reg.Time.REF_LOCKED = 0 ∧
        t.chip.rd Reg.Time.TIME_VALID = s.chip.rd Reg.Time.TIME_VALID)) ∧
    (∀ s : State, s.chip.on Reg.Time.HOLDOVER = false → s.chip.recov.outputsBlocked = false →
      Runs (.referenceLost .timeBase) s (fun t => t.chip.rd Reg.Time.HOLDOVER = 1 ∧ t.chip.rd Reg.Time.REF_LOST = 1 ∧
        t.chip.rd Reg.Time.REF_LOCKED = 0 ∧ t.chip.time.tb.locked = false ∧
        t.chip.faults.arrivals = s.chip.faults.arrivals ++ [⟨6, 0x10, 0xA2, 0, false, false, false, 0, s.chip.frame⟩])) ∧
    (∀ s : State, s.chip.rd Reg.Time.STEPPED = 1 → 4 ≤ s.chip.time.rejectCount → s.chip.time.rejected = false →
      Runs .referenceRejected s (fun t => t.chip.time.rejected = true ∧ t.chip.rd Reg.Time.HOLDOVER = 1 ∧
        t.chip.rd Reg.Time.REF_REJECTED = 1 ∧ t.chip.rd Reg.Time.REF_LOCKED = 0 ∧ t.chip.time.tb.locked = false)) ∧
    (∀ s : State, s.chip.on Reg.Time.HOLDOVER = true →
      Runs .holdoverLimitExpiry s (fun t => t.chip.rd Reg.Time.DEGRADED = 1 ∧ OnlyFields [Reg.Time.DEGRADED] s t)) ∧
    (∀ (g : RopeIx) (e : EndIx) (s : State),
      Runs (.lockGained (.ridgeLane g e)) s (fun t => t.chip.rd (Reg.RLane.PLL_LOCKED g e) = 1 ∧ OnlyFields [Reg.RLane.PLL_LOCKED g e] s t) ∧
      Runs (.lockLost (.ridgeLane g e)) s (fun t => t.chip.rd (Reg.RLane.PLL_LOCKED g e) = 0 ∧ (t.chip.rlane g e).downCause = 0) ∧
      Runs (.referenceLost (.ridgeLane g e)) s (fun t => t.chip.rd (Reg.RLane.PLL_LOCKED g e) = 0 ∧ (t.chip.rlane g e).downCause = 1)) ∧
    (∀ (a : CellAddr) (b : LaneIx) (s : State),
      Runs (.lockGained (.cellLane a b)) s (fun t => t.chip.rd (Reg.CLane.PLL_LOCKED a b) = 1 ∧ OnlyFields [Reg.CLane.PLL_LOCKED a b] s t) ∧
      Runs (.lockLost (.cellLane a b)) s (fun t => t.chip.rd (Reg.CLane.PLL_LOCKED a b) = 0 ∧ (t.chip.clane a b).downCause = 0) ∧
      Runs (.referenceLost (.cellLane a b)) s (fun t => t.chip.rd (Reg.CLane.PLL_LOCKED a b) = 0 ∧ (t.chip.clane a b).downCause = 1)) ∧
    (∀ (a : CellAddr) (s : State),
      ((s.chip.ct a).pll.locked = false → 16 ≤ (s.chip.ct a).pll.inCount → Runs (.lockGained (.cellPll a)) s (fun t =>
        (t.chip.ct a).pll.locked = true ∧ t.chip.rd (Reg.CTime.PLL_LOCKED a) = 1 ∧ t.chip.rd (Reg.CTime.ON_CRYSTAL a) = 0)) ∧
      ((s.chip.ct a).pll.locked = true → 2 ≤ (s.chip.ct a).pll.outCount → Runs (.lockLost (.cellPll a)) s (fun t =>
        (t.chip.ct a).pll.locked = false ∧ t.chip.rd (Reg.CTime.PLL_LOCKED a) = 0)) ∧
      (8 ≤ (s.chip.ct a).pll.missing → Runs (.referenceLost (.cellPll a)) s (fun t =>
        (t.chip.ct a).pll.locked = false ∧ t.chip.rd (Reg.CTime.PLL_LOCKED a) = 0 ∧ t.chip.rd (Reg.CTime.COASTING a) = 1))) ∧
    (∀ (n : Fin 2) (s : State), s.chip.rd (Reg.Angle.KIND n) = 1 →
      ((s.chip.gridLock n).locked = false → 1000 ≤ (s.chip.gridLock n).inCount → Runs (.lockGained (.grid n)) s (fun t =>
        (t.chip.gridLock n).locked = true ∧ t.chip.rd (Reg.Angle.LOCKED n) = 1 ∧ t.chip.rd (Reg.Angle.LOCK_GAINED n) = 1 ∧
        t.chip.rd (Reg.Angle.VALID n) = 1)) ∧
      ((s.chip.gridLock n).locked = true → 100 ≤ (s.chip.gridLock n).outCount → Runs (.lockLost (.grid n)) s (fun t =>
        (t.chip.gridLock n).locked = false ∧ t.chip.rd (Reg.Angle.LOCKED n) = 0 ∧ t.chip.rd (Reg.Angle.LOCK_LOST n) = 1 ∧
        t.chip.rd (Reg.Angle.VALID n) = s.chip.rd (Reg.Angle.VALID n))) ∧
      (2 ≤ (s.chip.gridLock n).missing → s.chip.rd (Reg.Angle.COASTING n) ≠ 1 → s.chip.rd (Reg.Angle.GATED n) ≠ 1 →
        s.chip.rd (Reg.Angle.LOSS_ACTION n) = 0 → Runs (.referenceLost (.grid n)) s (fun t =>
          (t.chip.gridLock n).locked = false ∧ t.chip.rd (Reg.Angle.LOCKED n) = 0 ∧ t.chip.rd (Reg.Angle.COASTING n) = 1 ∧
          t.chip.rd (Reg.Angle.VALID n) = s.chip.rd (Reg.Angle.VALID n)))))

/-- R37, R38, R56, R58, R59, R62, R64. The reference acquired for the first time steps the time base to the reference time, once, and only while no region
has been deblocked since power-up; the servo of every later cycle keeps RATE_ADJ's phase part within SLEW_MAX (R39). A profile channel starts at the
next frame and ends its last segment by its END_ACTION; a synchronisation order waits for the frame boundary, and one that would reset the frame epoch
with a region deblocked is refused BUSY; gating discards the actions dated on the channel. Where a clause goes beyond the words of the rules it is the
model's choice: log entries 2, 9, 13. -/
def Obligations.TimeStepAndChannels : Prop :=
  ((∀ (c : Chip) (ref : Nat), c.time.deblocked = false →
      (c.acquire ref).time.units = ref * 2 ^ 40 ∧ (c.acquire ref).time.acquired = true ∧
      (c.acquire ref).time.epoch = (ref / 1000000000 + 1) * 1000000000) ∧
    (∀ (c : Chip) (ref : Nat), c.time.deblocked = true →
      (c.acquire ref).time = { c.time with acquired := true } ∧ (c.acquire ref).regs = c.regs) ∧
    (∀ (c : Chip) (off freq : Int), ((c.refCycle off freq).time.phase.natAbs ≤ c.card.time.slewMax * 2 ^ 40 / 1000000 ∨
      (c.refCycle off freq).time.phase = c.time.phase) ∧ (c.refCycle off freq).time.units = c.time.units)) ∧
  ((∀ (n : ChanIx) (s : State), s.chip.rd (Reg.Angle.KIND n) = 2 →
      Runs (.profileStart n) s (fun t => (t.chip.chan n).pendingStart = true ∧ t.chip.regs = s.chip.regs)) ∧
    (∀ (n : ChanIx) (sg : Segment) (s : State), (s.chip.angleCfg n).segs[s.chip.rd (Reg.Angle.SEGMENT n)]? = some sg →
      s.chip.on (Reg.Angle.RAMPING n) = true → sg.duration ≤ (s.chip.chan n).segFrames →
      (s.chip.angleCfg n).segs.length = s.chip.rd (Reg.Angle.SEGMENT n) + 1 → (s.chip.angleCfg n).endAction = some 2 →
      s.chip.rd (Reg.Angle.KIND n) = 2 → Runs (.profileSegmentEnd n) s (fun t => t.chip.rd (Reg.Angle.RAMP_DONE n) = 1 ∧ t.chip.rd (Reg.Angle.RAMPING n) = 0 ∧
        t.chip.rd (Reg.Angle.RATE n) = 0)) ∧
    (∀ (p : PortIx) (s : State), s.chip.has p .order = true → s.chip.time.pendingSync = none → s.chip.on Reg.Time.SYNC_FRAME = false →
      Runs (.syncGo p) s (fun t => t.chip.time.pendingSync = some (p.val, s.chip.rd Reg.Time.SYNC_MASK, false))) ∧
    (∀ (p : PortIx) (s : State), s.chip.has p .order = true → s.chip.on Reg.Time.SYNC_FRAME = true → s.chip.allBlocked = false →
      Runs (.syncGo p) s (fun t => t.chip.rd (Reg.Time.SYNC_RESULT p) = 2 ∧ t.chip.time = s.chip.time)) ∧
    (∀ (c : Chip) (n : ChanIx), (c.gateChannel n).rd (Reg.Angle.VALID n) = 0 ∧ (c.gateChannel n).rd (Reg.Angle.GATED n) = 1 ∧
      ∀ d ∈ (c.gateChannel n).time.dated, ¬(d.part = 0 ∧ d.chan = some n.val)))

/-- R62, R63. A dated action at its date executes; one that is late by no more than LATE_WINDOW executes and is counted; a later one is discarded, counted
and reported with how late it was; one in the future waits. Here for the WC8400 and a short stamp. Where a clause goes beyond the words of the rules
it is the model's choice: log entry 15. -/
def Obligations.LateRule : Prop :=
  ∀ (dt tag : Nat) (st : Word) (s : State),
    let c := s.chip.advance dt
    let d := signedDiff 32 st.toNat c.stamp
    let act : Dated := ⟨0, tag, none, st.toNat⟩
    let w := s.chip.rd Reg.Time.LATE_WINDOW
    (0 < d → Runs (.datedActionDue dt none tag (.time st)) s (fun t => act ∈ t.chip.time.dated ∧ t.chip.regs = s.chip.regs)) ∧
    (d = 0 → Runs (.datedActionDue dt none tag (.time st)) s (fun t => act ∉ t.chip.time.dated ∧ t.chip.regs = s.chip.regs)) ∧
    (d < 0 → -(w : Int) ≤ d → Runs (.datedActionDue dt none tag (.time st)) s (fun t => act ∉ t.chip.time.dated ∧
      t.chip.rd Reg.Time.LATE_COUNT = (s.chip.rd Reg.Time.LATE_COUNT + 1) % 2 ^ (Reg.Time.LATE_COUNT).width ∧
      t.chip.rd Reg.Time.DROPPED_COUNT = s.chip.rd Reg.Time.DROPPED_COUNT)) ∧
    (d < -(w : Int) → Runs (.datedActionDue dt none tag (.time st)) s (fun t => act ∉ t.chip.time.dated ∧
      t.chip.rd Reg.Time.DROPPED_COUNT = (s.chip.rd Reg.Time.DROPPED_COUNT + 1) % 2 ^ (Reg.Time.DROPPED_COUNT).width ∧
      t.chip.rd Reg.Time.LATE_COUNT = s.chip.rd Reg.Time.LATE_COUNT))

/-- R69, R72, R73, R76, R211, R313. An invalid block is counted at its port, a received ERROR block at the port it came in; block lock is gained and lost;
a lane with both locks comes UP with the settings it trained to, and goes down with a lane fault of its rope when it has lost one. A cell in WAKE
whose port comes UP with its PLL locked enters LISTEN; one in LISTEN whose last port goes down enters WAKE again. A port that is down repeats its
BREAK; a BREAK that names the facing port makes it remote down until it no longer comes; a Ridge passes a cell's BREAK to rope mode control; an error
window starts the count anew and shows what it counted. Where a clause goes beyond the words of the rules it is the model's choice: log entries 27,
44. -/
def Obligations.LanesUpAndDown : Prop :=
  ((∀ (g : RopeIx) (e : EndIx) (s : State),
      Runs (.blockInvalidRx (.ridge g e)) s (fun t => (t.chip.rlane g e).windowErrs = (s.chip.rlane g e).windowErrs + 1 ∧
        t.chip.rd (Reg.RLane.BLOCK_ERR_COUNT g e) = (s.chip.rd (Reg.RLane.BLOCK_ERR_COUNT g e) + 1) % 2 ^ 32) ∧
      Runs (.blockLockGained (.ridge g e)) s (fun t => t.chip.rd (Reg.RLane.BLOCK_LOCKED g e) = 1 ∧
        OnlyFields [Reg.RLane.BLOCK_LOCKED g e] s t) ∧
      Runs (.blockLockLost (.ridge g e)) s (fun t => t.chip.rd (Reg.RLane.BLOCK_LOCKED g e) = 0 ∧
        t.chip.rd (Reg.RLane.LANE_UP g e) = s.chip.rd (Reg.RLane.LANE_UP g e)) ∧
      (∀ (q : Fin 16) (u v w : Fin 65536), s.chip.rd (Reg.RLane.PLL_LOCKED g e) = 1 → s.chip.rd (Reg.RLane.BLOCK_LOCKED g e) = 1 →
        s.chip.rd (Reg.RLane.LANE_UP g e) = 0 → (s.chip.rlane g e).errHeld = false → (s.chip.rlane g e).moduleHeld = false →
        Runs (.laneUp (.ridge g e) q u v w) s (fun t => t.chip.rd (Reg.RLane.LANE_UP g e) = 1 ∧ t.chip.rd (Reg.RLane.LOCK_GAINED g e) = 1 ∧
          t.chip.rd (Reg.RLane.RX_EQ g e) = q.val ∧
          OnlyFields [Reg.RLane.LANE_UP g e, Reg.RLane.LOCK_GAINED g e, Reg.RLane.RX_EQ g e] s t)) ∧
      (s.chip.rd (Reg.RLane.LANE_UP g e) = 1 → s.chip.rd (Reg.RLane.BLOCK_LOCKED g e) = 0 → s.chip.recov.outputsBlocked = false →
        s.chip.rd (Reg.RLane.TEST_ACTIVE g e) = 0 →
        Runs (.laneDown (.ridge g e)) s (fun t => t.chip.rd (Reg.RLane.LANE_UP g e) = 0 ∧ t.chip.rd (Reg.RLane.LOCK_LOST g e) = 1 ∧
          (t.chip.rope g).cleanSince = none ∧ ∃ m, t.chip.faults.arrivals = s.chip.faults.arrivals ++ [m] ∧ m.level = 2 ∧ m.kind = 0x40 ∧
            m.source = g.val))) ∧
    (∀ (a : CellAddr) (b : LaneIx) (s : State), (s.chip.gate a).powered = true →
      Runs (.blockInvalidRx (.cell a b)) s (fun t =>
        t.chip.rd (Reg.CLane.BLOCK_ERR_COUNT a b) = (s.chip.rd (Reg.CLane.BLOCK_ERR_COUNT a b) + 1) % 2 ^ 32) ∧
      Runs (.errorBlockRx a b) s (fun t =>
        t.chip.rd (Reg.CLane.FWD_ERR_COUNT a b) = (s.chip.rd (Reg.CLane.FWD_ERR_COUNT a b) + 1) % 2 ^ 32 ∧
        OnlyFields [Reg.CLane.FWD_ERR_COUNT a b] s t) ∧
      Runs (.blockLockGained (.cell a b)) s (fun t => t.chip.rd (Reg.CLane.BLOCK_LOCKED a b) = 1 ∧
        OnlyFields [Reg.CLane.BLOCK_LOCKED a b] s t) ∧
      Runs (.blockLockLost (.cell a b)) s (fun t => t.chip.rd (Reg.CLane.BLOCK_LOCKED a b) = 0) ∧
      (∀ (q : Fin 16) (u v w : Fin 65536), s.chip.rd (Reg.CLane.PLL_LOCKED a b) = 1 → s.chip.rd (Reg.CLane.BLOCK_LOCKED a b) = 1 →
        s.chip.rd (Reg.CLane.PORT_UP a b) = 0 → (s.chip.clane a b).errHeld = false → s.chip.cellState a ≠ 1 →
        Runs (.laneUp (.cell a b) q u v w) s (fun t => t.chip.rd (Reg.CLane.PORT_UP a b) = 1 ∧ t.chip.rd (Reg.CTime.RES_AB a) = u.val ∧
          t.chip.rd (Reg.CTime.RES_BA a) = v.val ∧ t.chip.rd (Reg.CTime.TURN a) = w.val ∧ t.chip.cellState a = s.chip.cellState a)) ∧
      (s.chip.rd (Reg.CLane.PORT_UP a b) = 1 → s.chip.rd (Reg.CLane.BLOCK_LOCKED a b) = 0 → s.chip.rd (Reg.CLane.TEST_ACTIVE a b) = 0 →
        s.chip.cellState a = 5 →
        Runs (.laneDown (.cell a b)) s (fun t => t.chip.rd (Reg.CLane.PORT_UP a b) = 0 ∧ t.chip.rd (Reg.CLane.LOCK_LOST a b) = 1 ∧
          t.chip.cellState a = 5)))) ∧
  ((∀ (a : CellAddr) (b : LaneIx) (q : Fin 16) (u v w : Fin 65536) (s : State), (s.chip.gate a).powered = true → s.chip.cellState a = 1 →
      s.chip.rd (Reg.CLane.PLL_LOCKED a b) = 1 → s.chip.rd (Reg.CLane.BLOCK_LOCKED a b) = 1 → s.chip.rd (Reg.CLane.PORT_UP a b) = 0 →
      (s.chip.clane a b).errHeld = false → (s.chip.ct a).pll.locked = true → (s.chip.part a).fuseBad = false →
      Runs (.laneUp (.cell a b) q u v w) s (fun t => t.chip.cellState a = 2 ∧ t.chip.rd (Reg.CId.PREV_STATE a) = 1 ∧
        t.chip.rd (Reg.CId.LAST_CAUSE a) = 1)) ∧
    (∀ (a : CellAddr) (b : LaneIx) (s : State), s.chip.cellState a = 2 → s.chip.rd (Reg.CLane.PORT_UP a b) = 1 →
      s.chip.rd (Reg.CLane.PORT_UP a (1 - b.val)) = 0 → s.chip.rd (Reg.CLane.BLOCK_LOCKED a b) = 0 →
      s.chip.rd (Reg.CLane.TEST_ACTIVE a b) = 0 →
      Runs (.laneDown (.cell a b)) s (fun t => t.chip.cellState a = 1 ∧ t.chip.rd (Reg.CId.LAST_CAUSE a) = 1))) ∧
  ((∀ (a : CellAddr) (b : LaneIx) (s : State), (s.chip.gate a).powered = true → s.chip.rd (Reg.CLane.PORT_UP a b) = 0 →
      Runs (.breakRepeat a b) s (fun t =>
        (t.chip.clane a b).lastBreak = some (b.val, (s.chip.clane a b).downCause, false, (s.chip.clane a b).downStamp) ∧
        (s.chip.rd (Reg.CLane.PORT_UP a (1 - b.val)) = 1 → (t.chip.clane a (1 - b.val)).lastBreak =
          some (b.val, (s.chip.clane a b).downCause, false, (s.chip.clane a b).downStamp) ∧ (t.chip.clane a (1 - b.val)).brkSent = true) ∧
        t.chip.regs = s.chip.regs)) ∧
    (∀ (a : CellAddr) (b : LaneIx) (x : BreakBlk) (s : State), (s.chip.gate a).powered = true → x.port.val = 1 - b.val →
      Runs (.breakRx (.cell a b) x) s (fun t => (t.chip.clane a b).remote = some (x.cause.val, x.notice))) ∧
    (∀ (a : CellAddr) (b : LaneIx) (x : BreakBlk) (s : State), x.port.val ≠ 1 - b.val → Does (.breakRx (.cell a b) x) s s.chip) ∧
    (∀ (g : RopeIx) (e : EndIx) (x : BreakBlk) (s : State), x.ridge = false →
      Runs (.breakRx (.ridge g e) x) s (fun t =>
        (t.chip.rope g).breaks = (s.chip.rope g).breaks ++ [⟨x.addr % 64, x.port, x.cause, x.notice, e⟩] ∧ t.chip.regs = s.chip.regs)) ∧
    (∀ (a : CellAddr) (b : LaneIx) (s : State), (s.chip.clane a b).remote.isSome = true →
      Runs (.remoteDownClear a b) s (fun t => (t.chip.clane a b).remote = none ∧ t.chip.regs = s.chip.regs)) ∧
    (∀ (g : RopeIx) (e : EndIx) (s : State), (s.chip.rlane g e).windowErrs ≤ s.chip.rd (Reg.RLane.ERR_LIMIT_VALUE g e) →
      Runs (.errWindowEnd (.ridge g e)) s (fun t => (t.chip.rlane g e).windowErrs = 0 ∧ (t.chip.rlane g e).overWindows = 0 ∧
        t.chip.rd (Reg.RLane.ERR_IN_WINDOW g e) = min (s.chip.rlane g e).windowErrs 65535 ∧
        t.chip.rd (Reg.RLane.LANE_UP g e) = s.chip.rd (Reg.RLane.LANE_UP g e))) ∧
    (∀ (g : RopeIx) (e : EndIx) (s : State), s.chip.rd (Reg.RLane.ERR_LIMIT_VALUE g e) < (s.chip.rlane g e).windowErrs →
      (s.chip.rlane g e).overWindows = 2 → s.chip.rd (Reg.RLane.LANE_UP g e) = 1 →
      Runs (.errWindowEnd (.ridge g e)) s (fun t => t.chip.rd (Reg.RLane.LANE_UP g e) = 0 ∧ t.chip.rd (Reg.RLane.ERR_LIMIT g e) = 1 ∧
        (t.chip.rlane g e).errHeld = true)) ∧
    (∀ (a : CellAddr) (b : LaneIx) (s : State), (s.chip.clane a b).windowErrs ≤ s.chip.rd (Reg.CLane.ERR_LIMIT_VALUE a b) →
      Runs (.errWindowEnd (.cell a b)) s (fun t => (t.chip.clane a b).windowErrs = 0 ∧ (t.chip.clane a b).overWindows = 0 ∧
        t.chip.rd (Reg.CLane.ERR_IN_WINDOW a b) = min (s.chip.clane a b).windowErrs 65535)))

/-- R77, R78, R79, R80, R81, R82, R83. A valid transmit setting written with MAINT rights while the rope is DOWN, or by the WC8400 into a cell, is taken;
one that breaks the rule, or without the right, leaves the setting and is flagged. An injection inverts bits only on a DOWN rope or where the card
allows it, and notes its frame; loopback follows a host with MAINT rights on a DOWN rope. A lane test is refused without MAINT rights; accepted, it is
sent to the cells of a DOWN rope and starts 104 frames on; without every acknowledgement it ends with 3; at its frame the Ridge lanes begin to check;
it ends with 2, the counts in the hop table; an abort waits for the frame. A checker gains synchronisation while the test is active; one that loses it
shows 0xFFFF_FFFF. Where a clause goes beyond the words of the rules it is the model's choice: log entries 23, 27. -/
def Obligations.LaneOrdersAndTests : Prop :=
  ((∀ (p : PortIx) (g : RopeIx) (e : EndIx) (v : Word) (s : State), s.chip.has p .maint = true → s.chip.mode g = 3 →
      (txEqValid v.toNat = true → Runs (.txEqWrite (some p) (.ridge g e) v) s (fun t =>
        t.chip.rd (Reg.RLane.C_PRE g e) = bits v.toNat 0 4 ∧ t.chip.rd (Reg.RLane.C_MAIN g e) = bits v.toNat 4 6 ∧
        t.chip.rd (Reg.RLane.C_POST g e) = bits v.toNat 10 5 ∧
        OnlyFields [Reg.RLane.C_PRE g e, Reg.RLane.C_MAIN g e, Reg.RLane.C_POST g e] s t)) ∧
      (txEqValid v.toNat = false → Runs (.txEqWrite (some p) (.ridge g e) v) s (fun t =>
        t.chip.rd (Reg.RLane.WRITE_REFUSED g e) = 1 ∧ OnlyFields [Reg.RLane.WRITE_REFUSED g e] s t)) ∧
      (∀ on : Bool, Runs (.loopbackSet p g e on) s (fun t => t.chip.rd (Reg.RLane.LOOPBACK g e) = bit on ∧
        OnlyFields [Reg.RLane.LOOPBACK g e] s t))) ∧
    (∀ (a : CellAddr) (b : LaneIx) (v : Word) (s : State), (s.chip.gate a).powered = true →
      (txEqValid v.toNat = true → Runs (.txEqWrite none (.cell a b) v) s (fun t =>
        t.chip.rd (Reg.CLane.TX_EQ a b) = v.toNat % 2 ^ (Reg.CLane.TX_EQ a b).width ∧ (t.chip.cmd a).result = 1)) ∧
      (txEqValid v.toNat = false → Runs (.txEqWrite none (.cell a b) v) s (fun t =>
        t.chip.rd (Reg.CLane.TX_EQ a b) = s.chip.rd (Reg.CLane.TX_EQ a b) ∧ t.chip.rd (Reg.CLane.WRITE_REFUSED a b) = 1)) ∧
      Runs (.injSingle none (.cell a b)) s (fun t => (t.chip.clane a b).injected = (s.chip.clane a b).injected + 1) ∧
      Runs (.injBurst none (.cell a b)) s (fun t =>
        (t.chip.clane a b).injected = (s.chip.clane a b).injected + s.chip.rd (Reg.CLane.BURST_LEN a b) + 1)) ∧
    (∀ (p : PortIx) (g : RopeIx) (e : EndIx) (s : State), s.chip.has p .maint = true → s.chip.mode g = 3 →
      Runs (.injSingle (some p) (.ridge g e)) s (fun t => (t.chip.rope g).injFrame = some s.chip.frame) ∧
      Runs (.injBurst (some p) (.ridge g e)) s (fun t => (t.chip.rope g).injFrame = some s.chip.frame)) ∧
    (∀ (p : PortIx) (g : RopeIx) (e : EndIx) (v : Word) (on : Bool) (s : State), s.chip.has p .maint = false →
      ∀ i ∈ [Instr.txEqWrite (some p) (.ridge g e) v, .loopbackSet p g e on, .injSingle (some p) (.ridge g e),
        .injBurst (some p) (.ridge g e)],
        Runs i s (fun t => t.chip.rd (Reg.RLane.WRITE_REFUSED g e) = 1 ∧ t.chip.ropes = s.chip.ropes ∧ t.chip.rlanes = s.chip.rlanes ∧
          t.chip.rd (Reg.Port.RIGHTS_REFUSED p) = (s.chip.rd (Reg.Port.RIGHTS_REFUSED p) + 1) % 2 ^ (Reg.Port.RIGHTS_REFUSED p).width ∧
          t.chip.rd (Reg.RLane.C_MAIN g e) = s.chip.rd (Reg.RLane.C_MAIN g e)))) ∧
  ((∀ (p : PortIx) (r : RegionIx) (s : State),
      let g := 32 * r.val + s.chip.rd (Reg.LaneTest.ROPE r)
      s.chip.has p .maint = true → s.chip.twoHandOk 3 = true → s.chip.laneTest r = LaneTestSt.idle → 0 < s.chip.population g →
      s.chip.mode g = 3 → (∀ a ∈ s.chip.ropeCells g, (s.chip.posn a).state = 4 ∨ (s.chip.posn a).state = 8) →
      Runs (.laneTestStart p r) s (fun t => (t.chip.laneTest r).starting = true ∧ (t.chip.laneTest r).running = false ∧
        (t.chip.laneTest r).startFrame = (s.chip.frame + 104) % 2 ^ 32 ∧ t.chip.rd (Reg.LaneTest.RESULT r) = 1 ∧
        (t.chip.rope g).mgmtOut.length = (s.chip.rope g).mgmtOut.length + 6)) ∧
    (∀ (r : RegionIx) (s : State), (s.chip.laneTest r).starting = true → (s.chip.laneTest r).acked < 6 →
      Runs (.laneTestAckTimeout r) s (fun t => t.chip.laneTest r = LaneTestSt.idle ∧ t.chip.rd (Reg.LaneTest.RESULT r) = 3)) ∧
    (∀ (r : RegionIx) (s : State), (s.chip.laneTest r).starting = true → 6 ≤ (s.chip.laneTest r).acked →
      s.chip.frame = (s.chip.laneTest r).startFrame → (s.chip.laneTest r).rope < 32 →
      Runs (.testStartFrameReached r) s (fun t => (t.chip.laneTest r).running = true ∧ (t.chip.laneTest r).starting = false ∧
        t.chip.rd (Reg.RLane.TEST_ACTIVE (s.chip.testRope r) 0) = 1 ∧ t.chip.rd (Reg.RLane.TEST_ACTIVE (s.chip.testRope r) 1) = 1)) ∧
    (∀ (r : RegionIx) (down up : List Nat) (s : State), (s.chip.laneTest r).running = true →
      Runs (.laneTestEnd r down up) s (fun t => t.chip.laneTest r = LaneTestSt.idle ∧ t.chip.rd (Reg.LaneTest.RESULT r) = 2 ∧
        t.chip.rd (Reg.LaneTest.REMAIN_MS r) = 0)) ∧
    (∀ (p : PortIx) (r : RegionIx) (s : State), s.chip.has p .maint = true → (s.chip.laneTest r).running = true →
      Runs (.laneTestAbort p r) s (fun t => t.chip.laneTest r = { s.chip.laneTest r with aborting := true } ∧
        t.chip.regs = s.chip.regs)) ∧
    (∀ (g : RopeIx) (e : EndIx) (s : State), s.chip.rd (Reg.RLane.TEST_ACTIVE g e) = 1 →
      Runs (.checkerSyncGained (.ridge g e)) s (fun t => t.chip.rd (Reg.RLane.CHECKER_SYNC g e) = 1 ∧
        OnlyFields [Reg.RLane.CHECKER_SYNC g e] s t)) ∧
    (∀ (g : RopeIx) (e : EndIx) (s : State), s.chip.rd (Reg.RLane.CHECKER_SYNC g e) = 1 →
      Runs (.checkerSyncLost (.ridge g e)) s (fun t => t.chip.rd (Reg.RLane.CHECKER_SYNC g e) = 0 ∧
        t.chip.rd (Reg.RLane.TEST_ERR_COUNT g e) = 0xFFFFFFFF ∧
        OnlyFields [Reg.RLane.CHECKER_SYNC g e, Reg.RLane.TEST_ERR_COUNT g e] s t)) ∧
    (∀ (a : CellAddr) (b : LaneIx) (s : State),
      (s.chip.rd (Reg.CLane.TEST_ACTIVE a b) = 1 → Runs (.checkerSyncGained (.cell a b)) s (fun t =>
        t.chip.rd (Reg.CLane.CHECKER_SYNC a b) = 1 ∧ OnlyFields [Reg.CLane.CHECKER_SYNC a b] s t)) ∧
      (s.chip.rd (Reg.CLane.CHECKER_SYNC a b) = 1 → Runs (.checkerSyncLost (.cell a b)) s (fun t =>
        t.chip.rd (Reg.CLane.CHECKER_SYNC a b) = 0 ∧ t.chip.rd (Reg.CLane.TEST_ERR_COUNT a b) = 0xFFFFFFFF ∧
        OnlyFields [Reg.CLane.CHECKER_SYNC a b, Reg.CLane.TEST_ERR_COUNT a b] s t))))

/-- R84, R85, R86, R87. A module that is read shows its identity and is matched against the card's entry, a mismatch being flagged; an absent one is shown
absent and holds its lane down; diagnostics show what was read, and two low readings of receive power in a row are flagged; a bus that stays held is
suspended for every module on it. Where a clause goes beyond the words of the rules it is the model's choice: log entry 3. -/
def Obligations.Modules : Prop :=
  (∀ (g : RopeIx) (e : EndIx) (m : ModuleId) (s : State), s.chip.rd (Reg.Module.BUS_FAULT g e) = 0 → Runs (.moduleIdRead g e (some m)) s (fun t =>
    t.chip.rd (Reg.Module.PRESENT g e) = 1 ∧ t.chip.rd (Reg.Module.ID_MATCH g e) = bit ((s.chip.cardEnd g e).accepts m) ∧
    (t.chip.rlane g e).moduleRead = true ∧
    ((s.chip.cardEnd g e).accepts m = false → t.chip.rd (Reg.RLane.MODULE_MISMATCH g e) = 1) ∧
    ((s.chip.cardEnd g e).accepts m = true → (t.chip.rlane g e).moduleHeld = false ∧ t.chip.rd (Reg.Module.REFUSED g e) = 0))) ∧
  (∀ (g : RopeIx) (e : EndIx) (s : State), s.chip.rd (Reg.Module.BUS_FAULT g e) = 0 →
    Runs (.moduleIdRead g e none) s (fun t => t.chip.rd (Reg.Module.PRESENT g e) = 0 ∧
    (t.chip.rlane g e).moduleHeld = true ∧ (s.chip.rd (Reg.RLane.LANE_UP g e) = 1 → t.chip.rd (Reg.RLane.LANE_UP g e) = 0))) ∧
  (∀ (g : RopeIx) (e : EndIx) (d : ModuleDiag) (s : State), s.chip.rd (Reg.Module.PRESENT g e) = 1 →
    s.chip.rd (Reg.Module.DIAG_VALID g e) = 1 → s.chip.rd (Reg.Module.BUS_FAULT g e) = 0 →
    Runs (.moduleDiagRead g e d) s (fun t =>
      t.chip.rd (Reg.Module.RX_POWER g e) = d.rxPower % 2 ^ (Reg.Module.RX_POWER g e).width ∧
      t.chip.rd (Reg.Module.TEMPERATURE g e) = d.temp % 2 ^ (Reg.Module.TEMPERATURE g e).width ∧
      ((s.chip.cardEnd g e).rxMin ≤ d.rxPower → t.chip.rd (Reg.Module.RX_LOW g e) = 0 ∧ (t.chip.rlane g e).rxLowReads = 0) ∧
      (d.rxPower < (s.chip.cardEnd g e).rxMin → (s.chip.rlane g e).rxLowReads = 1 → t.chip.rd (Reg.Module.RX_LOW g e) = 1 ∧
        t.chip.rd (Reg.RLane.RX_POWER_LOW g e) = 1))) ∧
  (∀ (d : RidgeIx) (bus : Fin 4) (x : Nat × Nat) (s : State), x ∈ busEnds d bus → 0 < s.chip.population x.1 →
    Runs (.moduleBusHeld d bus false) s (fun t => t.chip.rd (Reg.Module.BUS_FAULT x.1 x.2) = 1)) ∧
  (∀ (d : RidgeIx) (bus : Fin 4) (s : State), Does (.moduleBusHeld d bus true) s s.chip)

/-- R88, R90, R111, R120, R123. At a frame start the frame number moves on and the next frame start is a period later; a delay average starts the count of
echoes anew; an echo whose CRC fails changes nothing, and a good one is counted for its end; a frame that came back gives HOPS of its end and
TURNED_AT of its own; the frame number it names is not the WC8400's to change. At the cutoff of a frame the rank of every region starts, the tasks
that wait for it hear of it, and the collection cycle closes. A report that was fresh in the frame has AGE 0; any other position ages by one, up to
15. Where a clause goes beyond the words of the rules it is the model's choice: log entries 13, 37. -/
def Obligations.StationFrames : Prop :=
  ((∀ (dt : Nat) (m0 m1 : Option (Int × Nat)) (early : List (Fin 3277)) (s : State),
      s.chip.time.nextStart ≤ (s.chip.advance dt).nowNs → s.chip.time.pendingSync = none →
      Runs (.frameStart dt m0 m1 early) s (fun t => t.chip.rd Reg.Time.FRAME_NUM = s.chip.time.nextNum % 2 ^ 32 ∧
        t.chip.time.frameStart = s.chip.time.nextStart ∧ t.chip.time.nextStart = s.chip.time.nextStart + s.chip.period ∧
        t.chip.time.nextNum = (s.chip.time.nextNum + 1) % 2 ^ 32)) ∧
    (∀ (dt : Nat) (m0 m1 : Option (Int × Nat)) (early : List (Fin 3277)) (s : State),
      (s.chip.advance dt).nowNs < s.chip.time.nextStart → Does (.frameStart dt m0 m1 early) s (s.chip.advance dt)) ∧
    (∀ (a : Fin 16384) (s : State), 0 < s.chip.population (a / 64) → a % 64 < s.chip.population (a / 64) →
      (s.chip.posn a).admState = 6 →
      Runs .delayAveragePeriod s (fun t => (t.chip.posn a).echoA = (0, 0) ∧ (t.chip.posn a).echoB = (0, 0))) ∧
    (∀ (g : RopeIx) (e : EndIx) (bs : List Byte) (rt : Nat) (s : State), Echo.read (bs.map BitVec.toNat) = none →
      Does (.echoRx g e bs rt) s s.chip) ∧
    (∀ (g : RopeIx) (bs : List Byte) (rt : Nat) (x : Echo) (s : State), Echo.read (bs.map BitVec.toNat) = some x →
      x.addr % 64 < s.chip.population g → (s.chip.posn (64 * g.val + x.addr % 64)).admState = 1 →
      Runs (.echoRx g 0 bs rt) s (fun t => (t.chip.posn (64 * g.val + x.addr % 64)).echoA =
        ((s.chip.posn (64 * g.val + x.addr % 64)).echoA.1 + 1, (s.chip.posn (64 * g.val + x.addr % 64)).echoA.2 + (rt - x.wait)) ∧
        t.chip.regs = s.chip.regs)) ∧
    (∀ (dt : Nat) (g : RopeIx) (e : EndIx) (cairn : List Byte) (hops turned : Byte) (s : State),
      Cairn.read (cairn.map BitVec.toNat) = none →
      Runs (.ridgeFrameRx dt g e cairn [] [] hops turned) s (fun t =>
        t.chip.rd (Reg.Rope.CAIRN_ERR g) = (s.chip.rd (Reg.Rope.CAIRN_ERR g) + 1) % 2 ^ (Reg.Rope.CAIRN_ERR g).width ∧
        (bits ((cairn.map BitVec.toNat).getD 1 0) 7 1 = 0 → t.chip.rd (Reg.Rope.HOPS_A g) = hops.toNat % 2 ^ (Reg.Rope.HOPS_A g).width) ∧
        (bits ((cairn.map BitVec.toNat).getD 1 0) 7 1 = 1 → t.chip.rd (Reg.Rope.HOPS_B g) = hops.toNat % 2 ^ (Reg.Rope.HOPS_B g).width) ∧
        t.chip.pos = s.chip.pos ∧ t.chip.rd Reg.Time.FRAME_NUM = s.chip.rd Reg.Time.FRAME_NUM))) ∧
  ((∀ (dt : Nat) (s : State), ∃ c : Chip, (∀ r < 8, (c.rreg r).phase = 1) ∧ Does (.reportCutoff dt) s ((c.hwEvent 0x42).closeCycle)) ∧
    (∀ (c : Chip) (n a : Nat), (c.posn a).freshFrame = some n → ((c.closeReport n a).posn a).age = 0) ∧
    (∀ (c : Chip) (n a : Nat), (c.posn a).freshFrame ≠ some n → ((c.closeReport n a).posn a).age = min 15 ((c.posn a).age + 1) ∧
      ((c.closeReport n a).posn a).vCap = (c.posn a).vCap) ∧
    (∀ (c : Chip) (n a : Nat), (c.posn a).lastReport ≠ some n → c.mode (a / 64) ≠ 3 →
      (c.closeReport n a).rd (Reg.Rope.REPORT_MISSING (a / 64)) =
        (c.rd (Reg.Rope.REPORT_MISSING (a / 64)) + 1) % 2 ^ (Reg.Rope.REPORT_MISSING (a / 64)).width))

/-- R95, R98, R99, R102, R109, R113, R114, R209, R210, R211, R218, R226. The frame start of a cell in service at which a held command executes: the cell's
frame moves on; RUN makes it ACTIVE, BYPASS and BLOCK READY, and BLOCK turns the gates off where no higher source acts. A WN140-S stays READY. A cell
without a command from t_b for 80 µs enters BIVOUAC, unless that instant is the start of a frame it holds a command for; every held command is gone
with it. A returned frame passes a cell as it is; an outbound one leaves with one more hop and the cell's report in its slot, and the command for the
next frame is held where everything about it fits; the acknowledgements drop what they name. Where a clause goes beyond the words of the rules it is
the model's choice: log entries 2, 10, 12, 36. -/
def Obligations.CellFrames : Prop :=
  (∀ (a : CellAddr) (dt : Nat) (s : State), (s.chip.cellAdvance a dt).cellDue a = true → 4 ≤ s.chip.cellState a → s.chip.cellState a ≤ 6 →
      let moved (t : State) : Prop := (t.chip.ct a).frameNum = ((s.chip.ct a).frameNum + 1) % 2 ^ 32 ∧
        (t.chip.ct a).frameStart = (s.chip.ct a).frameStart + s.chip.cellPeriod a
      let held (m : Nat) : Prop := s.chip.heldMode a = some m
      (held 1 → s.chip.cellIsS a = false → Runs (.cmdRun a dt) s (fun t => moved t ∧ t.chip.cellState a = 5)) ∧
      (held 1 → s.chip.cellIsS a = true → s.chip.cellState a = 4 → Runs (.cmdRun a dt) s (fun t => moved t ∧ t.chip.cellState a = 4)) ∧
      (held 0 → Runs (.cmdBypass a dt) s (fun t => moved t ∧ t.chip.cellState a = 4)) ∧
      (held 2 → s.chip.cellIsS a = false → s.chip.rd (Reg.CId.FENCE_RECORD a) = 0 → s.chip.rd (Reg.Prot.LOCAL_HOLD a) = 0 →
        (s.chip.ct a).alignLost = false →
        Runs (.cmdBlock a dt) s (fun t => moved t ∧ t.chip.cellState a = 4 ∧ t.chip.rd (Reg.Gate.TARGET_NOW a) = 3)) ∧
      (∀ (v : Nat) (d : Int), Runs (.cellFrameStart a dt v d) s (fun t => moved t ∧ (t.chip.cmd a).vdd33 = v % 65536))) ∧
  (∀ (a : CellAddr) (dt t0 : Nat) (s : State), 4 ≤ s.chip.cellState a → s.chip.cellState a ≤ 6 → (s.chip.cmd a).tb = some t0 →
      t0 + 20480000 ≤ ((s.chip.cellAdvance a dt).ct a).time →
      (s.chip.heldMode a = none → Runs (.belayHorizon a dt) s (fun t => t.chip.cellState a = 7 ∧ t.chip.rd (Reg.CId.LAST_CAUSE a) = 7 ∧
        (t.chip.cmd a).held = [] ∧ (t.chip.cmd a).now = none ∧ (t.chip.cmd a).dcdcEn = false ∧
        t.chip.rd (Reg.CId.EPOCH a) = s.chip.rd (Reg.CId.EPOCH a))) ∧
      (s.chip.heldMode a ≠ none → t0 + 20480000 = (s.chip.ct a).frameStart + s.chip.cellPeriod a →
        Does (.belayHorizon a dt) s (s.chip.cellAdvance a dt))) ∧
  ((∀ (a : CellAddr) (dt : Nat) (b : LaneIx) (cairn slot : List Byte) (es : List (List Byte)) (hops : Byte) (s : State),
      s.chip.rd (Reg.CLane.PORT_UP a b) = 1 → s.chip.cellState a ≠ 0 → bits ((cairn.map BitVec.toNat).getD 1 0) 7 1 ≠ b.val →
      Runs (.controlFrameRx a dt b cairn slot es hops) s (fun t =>
        (t.chip.cmd a).out = some ⟨1 - b.val, false, none, slot.map BitVec.toNat, es.map (fun e => e.map BitVec.toNat), false, hops.toNat,
          0x7F⟩ ∧ t.chip.regs = s.chip.regs ∧ (t.chip.cmd a).held = (s.chip.cmd a).held)) ∧
    (∀ (a : CellAddr) (dt : Nat) (b : LaneIx) (cairn slot : List Byte) (hops : Byte) (x : CmdBlk) (s : State),
      s.chip.rd (Reg.CLane.PORT_UP a b) = 1 → 4 ≤ s.chip.cellState a → s.chip.cellState a ≤ 6 →
      bits ((cairn.map BitVec.toNat).getD 1 0) 7 1 = b.val → Cairn.read (cairn.map BitVec.toNat) = none →
      CmdBlk.read (slot.map BitVec.toNat) = some x → x.empty = false → x.target % 16384 = s.chip.rd (Reg.CId.CELL_ADDR a) →
      x.epoch = s.chip.rd (Reg.CId.EPOCH a) → x.seq = ((s.chip.ct a).frameNum + 1) % 2 ^ 32 % 65536 →
      findKey (((s.chip.ct a).frameNum + 1) % 2 ^ 32) (s.chip.cmd a).held = none →
      x.wellFormed (if (s.chip.ct a).frame20 then 25000 else 12500) = true →
      Runs (.controlFrameRx a dt b cairn slot [] hops) s (fun t =>
        (t.chip.cmd a).held = (s.chip.cmd a).held ++ [(((s.chip.ct a).frameNum + 1) % 2 ^ 32, x)] ∧
        ∃ o, (t.chip.cmd a).out = some o ∧ o.hops = (hops.toNat + 1) % 256 ∧ o.accepted = true)) ∧
    (∀ (a : CellAddr) (k : Fin 2) (m : Nat) (rest : List Nat) (s : State), s.chip.rd (Reg.CFlt.HEAD_VALID a) = 1 →
      s.chip.rd (Reg.CFlt.HEAD_T a) = k.val → (s.chip.cmd a).faultQ = m :: rest →
      Runs (.faultAck a k) s (fun t => (t.chip.cmd a).faultQ = rest ∧
        t.chip.rd (Reg.CFlt.QUEUE_DEPTH a) = rest.length % 2 ^ (Reg.CFlt.QUEUE_DEPTH a).width ∧
        t.chip.rd (Reg.CFlt.HEAD_VALID a) = if rest = [] then 0 else 1)) ∧
    (∀ (a : CellAddr) (k : Fin 2) (s : State), s.chip.rd (Reg.CFlt.HEAD_T a) ≠ k.val → Does (.faultAck a k) s s.chip) ∧
    (∀ (a : CellAddr) (seq : Byte) (l : List BulkRec) (s : State), bulkAfter seq.toNat (s.chip.cmd a).bulkQ = some l →
      Runs (.bulkAck a seq) s (fun t => (t.chip.cmd a).bulkQ = l ∧ t.chip.regs = s.chip.regs)) ∧
    (∀ (a : CellAddr) (body at0 n : Nat) (r : BulkRec) (l : List BulkRec) (s : State), (s.chip.cmd a).grant = some (at0, n) →
      (s.chip.cmd a).bulkQ = r :: l → r.payload.length / 8 + 1 ≤ n → at0 + n ≤ body →
      Runs (.bulkFrameRx a body) s (fun t => (t.chip.cmd a).grant = none ∧
        (t.chip.cmd a).bulkOut = some (at0, bulkHeader a r ++ r.payload) ∧ (t.chip.cmd a).bulkQ = (s.chip.cmd a).bulkQ ∧
        t.chip.regs = s.chip.regs)))

/-- R104, R105, R106, R228, R230. What a management entry does at a cell that it names: RESULT 4 for another epoch, then 3 for a reserved address, 2 in a
state that does not take the write, 5 out of a stated range, and 1 with the word's RW fields stored; a READ of a word without a snapshot answers it
and changes no register; a broadcast is applied in 0x30 to 0x4F only; a PROBE leaves an echo; a NOP nothing. Where a clause goes beyond the words of
the rules it is the model's choice: log entry 35. -/
def Obligations.ManagementEntries : Prop :=
  ∀ (a : CellAddr) (e : Fin 65536) (reg : Byte) (d : Word) (s : State), 2 ≤ s.chip.cellState a →
    let answers (i : Instr) (k : Nat) : Prop := Runs i s (fun t => (t.chip.cmd a).result = k ∧ t.chip.regs = s.chip.regs)
    let plain : Prop := reg.toNat ∉ [0x05, 0x06, 0x08, 0x14, 0x15, 0x19, 0x32, 0x42, 0x36, 0x46, 0x56, 0x59, 0x63, 0x64, 0x65, 0xB0, 0xB3,
      0xD1, 0xD3, 0xD9, 0xE7, 0xF4, 0xF8]
    let here : Prop := mgmtAt reg.toNat ≠ [] ∧ ¬(s.chip.cellIsS a = true ∧ sensorLacks reg.toNat = true)
    (s.chip.epochFits a e = false → answers (.mgmtWrite a e reg d) 4 ∧ answers (.mgmtRead a e reg) 4) ∧
    (s.chip.epochFits a e = true → ¬here → answers (.mgmtWrite a e reg d) 3) ∧
    (s.chip.epochFits a e = true → here → writableIn (s.chip.cellState a) reg.toNat = false → answers (.mgmtWrite a e reg d) 2) ∧
    (s.chip.epochFits a e = true → here → writableIn (s.chip.cellState a) reg.toNat = true → inRanges reg.toNat d.toNat = false →
      answers (.mgmtWrite a e reg d) 5) ∧
    (s.chip.epochFits a e = true → here → writableIn (s.chip.cellState a) reg.toNat = true → inRanges reg.toNat d.toNat = true → plain →
      Runs (.mgmtWrite a e reg d) s (fun t => (t.chip.cmd a).result = 1 ∧ (t.chip.cmd a).data = d.toNat ∧
        ∀ f ∈ mgmtAt reg.toNat, t.chip.rd (f.cell a) =
          if f.acc = .rw then bits d.toNat f.lo f.width else if f.acc = .w1c then
            w1c (s.chip.rd (f.cell a)) (bits d.toNat f.lo f.width) f.width % 2 ^ f.width else s.chip.rd (f.cell a))) ∧
    (s.chip.epochFits a e = true → here → plain → snapOf reg.toNat = [] →
      Runs (.mgmtRead a e reg) s (fun t => (t.chip.cmd a).result = 1 ∧
        (t.chip.cmd a).data = s.chip.cellWord (mapGet false s.fuses.cellsClosed a) a reg.toNat ∧ t.chip.regs = s.chip.regs)) ∧
    (reg.toNat < 0x30 ∨ 0x4F < reg.toNat → answers (.mgmtBcastWrite a reg d) 0) ∧
    (0x30 ≤ reg.toNat → reg.toNat ≤ 0x4F → mgmtAt reg.toNat ≠ [] → inRanges reg.toNat d.toNat = true → plain →
      Runs (.mgmtBcastWrite a reg d) s (fun t => (t.chip.cmd a).result = 1 ∧
        ∀ f ∈ mgmtAt reg.toNat, f.acc = .rw → t.chip.rd (f.cell a) = bits d.toNat f.lo f.width)) ∧
    (∀ (tag : Byte) (b : LaneIx), Runs (.mgmtProbe a e tag b) s (fun t => (t.chip.cmd a).echo = some (tag.toNat, b.val) ∧
      t.chip.regs = s.chip.regs)) ∧
    Does (.mgmtNop a) s s.chip

/-- R125, R126, R127, R128, R143. A rank that completes holds the insertable cells of its region in ascending order of key, equal keys by the tie rule,
and N_INSERTABLE counts them. A rank that is late is flagged and gives no command in its frame. The key of a cell is its energy deviation plus its
applied weight, saturated to 24 bits, and the deviation is 0 where no V_SET is stated; the applied weight never moves by more than W_SLEW nor beyond
W_MAX. Where a clause goes beyond the words of the rules it is the model's choice: log entry 18. -/
def Obligations.RankAndKeys : Prop :=
  ((∀ (dt cycles : Nat) (r : RegionIx) (s : State), (s.chip.rreg r).phase = 1 →
      Runs (.rankComplete dt r cycles) s (fun t => (t.chip.rreg r).phase = 2 ∧
        (t.chip.rreg r).order.Pairwise (fun a b => t.chip.ranksBefore s.chip.frame b a = false) ∧
        (∀ a ∈ (t.chip.rreg r).order, (t.chip.rcell a).insertable = true ∧ a ∈ s.chip.regionCells r ∧ s.chip.isSensor a = false) ∧
        t.chip.rd (Reg.Mods.RANK_TIME r) = cycles % 2 ^ (Reg.Mods.RANK_TIME r).width ∧
        t.chip.rd (Reg.RegionRed.N_INSERTABLE r) = (t.chip.rreg r).order.length % 2 ^ (Reg.RegionRed.N_INSERTABLE r).width)) ∧
    (∀ (dt cycles : Nat) (r : RegionIx) (s : State), (s.chip.rreg r).phase ≠ 1 →
      Does (.rankComplete dt r cycles) s (s.chip.advance dt) ∧ Does (.rankLate dt r) s (s.chip.advance dt)) ∧
    (∀ (dt : Nat) (r : RegionIx) (s : State), (s.chip.rreg r).phase = 1 → s.chip.recov.outputsBlocked = false →
      Runs (.rankLate dt r) s (fun t => t.chip.rreg r = { s.chip.rreg r with phase := 5 } ∧ t.chip.rd (Reg.Mods.RANK_LATE r) = 1 ∧
        t.chip.faults.arrivals = s.chip.faults.arrivals ++ [⟨4, r.val / 2, 0x74, r.val, false, false, false, 0, s.chip.frame⟩]))) ∧
  ((∀ (c : Chip) (r m a : Nat) (takeover : Bool),
      ((c.keyCell r m takeover a).rcell a).key =
        satSigned 24 (((c.keyCell r m takeover a).rcell a).eDev + ((c.keyCell r m takeover a).rcell a).w) ∧
      -(2 ^ 23 : Int) ≤ ((c.keyCell r m takeover a).rcell a).key ∧ ((c.keyCell r m takeover a).rcell a).key < 2 ^ 23) ∧
    (∀ v : Int, energyDev v 0 = 0) ∧
    (∀ (w target : Int) (slew wmax : Nat), w.natAbs ≤ wmax →
      (slewWeight w target slew wmax - w).natAbs ≤ slew ∧ (slewWeight w target slew wmax).natAbs ≤ wmax))

/-- R111, R115, R132, R137, R138, R139, R140, R148, R226. The edge computer and the belay pass move their region on; a blocked region places no edges and
no plans. A dated block inside the frame is the last of a cell's edges, of which there are at most four. At the hand-over every region is done with
its frame, and every position has a slot for the next one: EMPTY for a position that is not admitted, BLOCK in a blocked region, BYPASS for a WN140-S
or a fenced cell, with the cell's epoch and the number of its execution frame. Where a clause goes beyond the words of the rules it is the model's
choice: log entry 18. -/
def Obligations.CommandsHandOver : Prop :=
  ((∀ (dt : Nat) (r : RegionIx) (block : Option (Fin 25000)) (s : State), (s.chip.rreg r).phase = 2 →
      Runs (.edgeComputeDone dt r block) s (fun t => (t.chip.rreg r).phase = 3 ∧ (t.chip.rreg r).order = (s.chip.rreg r).order ∧
        (s.chip.blocked r = true → t.chip.rcells = s.chip.rcells))) ∧
    (∀ (dt : Nat) (r : RegionIx) (s : State), (s.chip.rreg r).phase = 3 →
      Runs (.belayPassDone dt r) s (fun t => (t.chip.rreg r).phase = 4 ∧ (t.chip.rreg r).order = (s.chip.rreg r).order ∧
        (s.chip.blocked r = true → t.chip.rcells = s.chip.rcells))) ∧
    (∀ (t0 : Nat) (x : WCell), (cutAtBlock (some t0) x).cur = 3 ∧ (cutAtBlock (some t0) x).edges.length ≤ 4 ∧
      (cutAtBlock (some t0) x).edges.head? = some (t0, 3) ∧
      ∀ e ∈ (cutAtBlock (some t0) x).edges, e = (t0, 3) ∨ e ∈ x.edges ∧ e.1 < t0)) ∧
  (∀ (dt : Nat) (s : State),
      Runs (.commandHandover dt) s (fun t => (∀ r < 8, (t.chip.rreg r).phase = 0 ∧ (t.chip.rreg r).wasBlocked = s.chip.blocked r) ∧
        t.chip.sweep.restart = false ∧
        ∀ a < 16384, a % 64 < s.chip.population (a / 64) →
          (mapGet ⟨0, []⟩ t.chip.slots a).frame = s.chip.frameAfter 1 ∧
          ((s.chip.posn a).admState ≠ 6 → (mapGet ⟨0, []⟩ t.chip.slots a).bytes = (CmdBlk.none0 a).bytes) ∧
          ((s.chip.posn a).admState = 6 → s.chip.recov.outputsBlocked = false → ∃ b : CmdBlk,
            (mapGet ⟨0, []⟩ t.chip.slots a).bytes = b.bytes ∧
            (s.chip.isSensor a = true ∨ a ∈ s.chip.faults.fencedCells →
              b.mode = 0 ∧ b.empty = false ∧ b.epoch = (s.chip.posn a).epochRec ∧ b.seq = s.chip.frameAfter 2 % 65536) ∧
            (s.chip.isSensor a = false → a ∉ s.chip.faults.fencedCells → (s.chip.rope (a / 64)).goingDown = 0 →
              s.chip.blocked (regionOf a) = true →
              b.mode = 2 ∧ b.empty = false ∧ b.epoch = (s.chip.posn a).epochRec ∧ b.seq = s.chip.frameAfter 2 % 65536))))

/-- R144, R145, R146. A tick starts on the latched inputs in every frame whose number is a multiple of TICK_FRAMES while none runs; one that completes is
counted, shows its time, order and direction, and its outputs come into force half a tick after its frame; one that takes more than 500 µs is
abandoned, counted and raised. Where a clause goes beyond the words of the rules it is the model's choice: log entry 19. -/
def Obligations.PolicyTicks : Prop :=
  (∀ (dt : Nat) (s : State), s.chip.frame % s.chip.tickFrames = 0 → s.chip.policy.running = none →
    Runs (.policyTick dt) s (fun t => ∃ k, t.chip.policy.running = some k ∧ k.frame = s.chip.frame ∧
      k.frames = s.chip.policy.frames ∧ t.chip.regs = s.chip.regs ∧ t.chip.pols = s.chip.pols)) ∧
  (∀ (dt : Nat) (s : State), s.chip.frame % s.chip.tickFrames ≠ 0 ∨ s.chip.policy.running ≠ none →
    Does (.policyTick dt) s (s.chip.advance dt)) ∧
  (∀ (dt micros : Nat) (k : Tick) (s : State), s.chip.policy.running = some k →
    Runs (.policyTickComplete dt micros) s (fun t => t.chip.policy.running = none ∧
      t.chip.policy.frames = s.chip.policy.frames - k.frames ∧
      t.chip.rd Reg.Pol.TICK_COUNT = (s.chip.rd Reg.Pol.TICK_COUNT + 1) % 2 ^ (Reg.Pol.TICK_COUNT).width ∧
      t.chip.rd Reg.Pol.TICK_TIME = micros % 2 ^ (Reg.Pol.TICK_TIME).width ∧
      t.chip.rd Reg.Pol.DIRECTION = bit (decide (k.order < 0)) ∧
      t.chip.rd Reg.Pol.P_BATT_IN_USE = ofSigned (Reg.Pol.P_BATT_IN_USE).width (kwOf k.order) % 2 ^ (Reg.Pol.P_BATT_IN_USE).width ∧
      (∃ out, t.chip.policy.pendingOut = some ((k.frame + s.chip.tickFrames / 2) % 2 ^ 32, out)) ∧
      (0 < k.short → t.chip.rd Reg.Pol.SHORTFALL = 1) ∧ (k.short ≤ 0 → t.chip.rd Reg.Pol.SHORTFALL = s.chip.rd Reg.Pol.SHORTFALL))) ∧
  (∀ (dt : Nat) (k : Tick) (s : State), s.chip.policy.running = some k → s.chip.recov.outputsBlocked = false →
    Runs (.policyTickTimeout dt) s (fun t => t.chip.policy = { s.chip.policy with running := none } ∧ t.chip.pols = s.chip.pols ∧
      t.chip.rd Reg.Pol.POLICY_LATE = 1 ∧
      t.chip.rd Reg.Pol.POLICY_LATE_COUNT = (s.chip.rd Reg.Pol.POLICY_LATE_COUNT + 1) % 2 ^ (Reg.Pol.POLICY_LATE_COUNT).width ∧
      ∃ m, t.chip.faults.arrivals = s.chip.faults.arrivals ++ [m] ∧ m.level = 4 ∧ m.kind = 0x75 ∧ m.detail = 500))

/-- R150, R151, R155, R156, R162, R164. A pack whose two states of charge disagree for too long is fenced, with its fence order and fault, unless its
region has its fences of the tick or the cause is barred; a health estimate that grows too old is marked; the bar of an unfence ends with its time;
lease terms are applied for a LEDGER port whose LEASE_UID is that of the admitted pack, and refused otherwise. Where a clause goes beyond the words of
the rules it is the model's choice: log entries 19, 31. -/
def Obligations.PolicyGuards : Prop :=
  (∀ (a : CellAddr) (s : State), s.chip.card.policy.socDisagreeTime * 1000000000 ≤ (s.chip.pol a).disagree →
    (s.chip.pol a).admitted = true → (s.chip.pol a).packFenced = false →
    (s.chip.pol a).isBarred s.chip.card.policy s.chip.runNs 4 = false →
    (s.chip.fencesIn (regionOf a)).1 < s.chip.card.policy.fenceMax →
    Runs (.socDisagreeTimeout a) s (fun t => (t.chip.pol a).packFenced = true ∧ (t.chip.pol a).fenceCause = 4 ∧ (t.chip.pol a).iRef = 0 ∧
      (t.chip.fencesIn (regionOf a)).1 = (s.chip.fencesIn (regionOf a)).1 + 1 ∧
      (∃ q, (t.chip.rope (a.val / 64)).mgmtOut = (s.chip.rope (a.val / 64)).mgmtOut ++ [q] ∧ q.addr = a.val ∧ q.reg = 0xD1 ∧ q.data = 128) ∧
      ∃ m, t.chip.faults.arrivals = s.chip.faults.arrivals ++ [m] ∧ m.level = 1 ∧ m.source = a.val ∧ m.kind = 0x0D ∧ m.detail = 4)) ∧
  (∀ (a : CellAddr) (s : State), (s.chip.pol a).disagree < s.chip.card.policy.socDisagreeTime * 1000000000 →
    Does (.socDisagreeTimeout a) s s.chip) ∧
  (∀ (a : CellAddr) (s : State), (s.chip.pol a).admitted = true →
    (s.chip.pol a).healthFrom + s.chip.card.policy.healthMaxAge * 1000000000 ≤ s.chip.runNs →
    Runs (.healthMaxAgeExpiry a) s (fun t => (t.chip.pol a).healthStale = true ∧ bits (t.chip.pol a).derate 7 1 = 1 ∧
      (t.chip.pol a).derate % 128 = (s.chip.pol a).derate % 128 ∧ t.chip.regs = s.chip.regs)) ∧
  (∀ (a : CellAddr) (k : Fin 7) (s : State), Runs (.policyUnfenceHoldEnd a k) s (fun t => t.chip.regs = s.chip.regs ∧
    ∀ e, e ∈ (t.chip.pol a).barred ↔ e ∈ (s.chip.pol a).barred ∧
      ¬(e.1 = k.val ∧ e.2 + s.chip.card.policy.unfenceHold * 1000000000 ≤ s.chip.runNs))) ∧
  (∀ (p : PortIx) (uid : Nat) (s : State), let a := s.chip.rd (Reg.Lease.LEASE_CELL p)
    s.chip.has p .ledger = true → (s.chip.xch a).admitted = some uid → (s.chip.pol a).admitted = true →
    (uid % 2 ^ 32 = s.chip.rd (Reg.Lease.LEASE_UID p) → s.chip.rd (Reg.Lease.LEASE_MODE p) = 0 →
      Runs (.leaseGo p) s (fun t => t.chip.rd (Reg.Lease.LEASE_RESULT p) = 1 ∧ (t.chip.pol a).cost = s.chip.rd (Reg.Lease.LEASE_COST p) ∧
        (t.chip.pol a).quota = s.chip.rd (Reg.Lease.LEASE_QUOTA p) ∧
        t.chip.faults = s.chip.faults ∧ t.chip.ropes = s.chip.ropes)) ∧
    (uid % 2 ^ 32 = s.chip.rd (Reg.Lease.LEASE_UID p) → s.chip.rd (Reg.Lease.LEASE_MODE p) = 1 →
      (s.chip.pol a).quota ≠ 0xFFFFFFFF → s.chip.rd (Reg.Lease.LEASE_QUOTA p) ≠ 0xFFFFFFFF →
      Runs (.leaseGo p) s (fun t => (t.chip.pol a).quota = min ((s.chip.pol a).quota + s.chip.rd (Reg.Lease.LEASE_QUOTA p)) 0xFFFFFFFE)) ∧
    (uid % 2 ^ 32 ≠ s.chip.rd (Reg.Lease.LEASE_UID p) →
      Runs (.leaseGo p) s (fun t => t.chip.rd (Reg.Lease.LEASE_RESULT p) = 2 ∧ OnlyFields [Reg.Lease.LEASE_RESULT p] s t))) ∧
  (∀ (p : PortIx) (s : State), s.chip.has p .ledger = false →
    Runs (.leaseGo p) s (fun t => t.chip.rd (Reg.Lease.LEASE_RESULT p) = 3 ∧ t.chip.pols = s.chip.pols))

/-- R167, R176, R178, R184. In a step a slot that is not complete at LOOP_DEADLINE keeps its output and is counted as missed, its MISSED bit set; at
LOOP_DEADLINE the step is counted, its time shown, and every slot's status with it; a step without slots changes none. Where a clause goes beyond the
words of the rules it is the model's choice: log entries 5, 38. -/
def Obligations.LoopSteps : Prop :=
  (∀ (dt : Nat) (j : Fin 128) (d : SlotDef) (s : State), s.chip.card.loop.slots = [(j.val, d)] → 0 < d.div →
    (s.chip.frame + d.div - d.phase) % d.div = 0 →
    Runs (.loopStart dt [j]) s (fun t => (t.chip.slot j).missed = true ∧ (t.chip.slot j).misses = (s.chip.slot j).misses + 1 ∧
      (t.chip.slot j).out = (s.chip.slot j).out ∧ (t.chip.slot j).integ = (s.chip.slot j).integ ∧
      t.chip.rd Reg.Loop.MISSED_SEEN = 1 ∧
      t.chip.rd Reg.Loop.MISSED_COUNT = (s.chip.rd Reg.Loop.MISSED_COUNT + 1) % 2 ^ (Reg.Loop.MISSED_COUNT).width)) ∧
  (∀ (dt : Nat) (late : List (Fin 128)) (s : State), s.chip.card.loop.slots = [] → s.chip.orders.commit = none →
    Runs (.loopStart dt late) s (fun t => t.chip.loop.slots = s.chip.loop.slots ∧ t.chip.ropes = s.chip.ropes ∧
      t.chip.faults = s.chip.faults)) ∧
  (∀ (dt took : Nat) (j : Fin 128) (d : SlotDef) (s : State), s.chip.card.loop.slots = [(j.val, d)] →
    Runs (.loopDeadline dt took) s (fun t =>
      t.chip.rd Reg.Loop.LOOP_STEP_COUNT = (s.chip.rd Reg.Loop.LOOP_STEP_COUNT + 1) % 2 ^ (Reg.Loop.LOOP_STEP_COUNT).width ∧
      t.chip.rd Reg.Loop.LOOP_TIME = took % 2 ^ (Reg.Loop.LOOP_TIME).width ∧ t.chip.rd Reg.Loop.SLOTS_USED = 1 ∧
      t.chip.rd (Reg.Slot.OUT j) = (s.chip.slot j).out % 2 ^ (Reg.Slot.OUT j).width ∧
      t.chip.rd (Reg.Slot.MODE j) = (s.chip.slot j).mode % 2 ^ (Reg.Slot.MODE j).width ∧
      t.chip.rd (Reg.Slot.FB_LOST j) = bit (s.chip.slot j).lost ∧ t.chip.loop.slots = s.chip.loop.slots))

/-- R177, R178, R179, R180, R181. A slot in AUTO whose feedback is older than its limit holds its output in MANUAL and is flagged, with a fault; it asks
for AUTO again after RECOVER fresh frames; MISS_LIMIT misses raise a fault once; a sensor value that repeats too long is frozen until 16 differ; two
sensors apart for XCHK_FRAMES are flagged, and cleared by as many that agree; a mode request waits for the slot's next run, needs ORDER and is refused
where it cannot act. Where a clause goes beyond the words of the rules it is the model's choice: log entries 2, 38. -/
def Obligations.LoopEvents : Prop :=
  (∀ (j : Fin 128) (d : SlotDef) (s : State), s.chip.slotDef j = some d → (s.chip.slot j).mode = 1 → d.lostLimit < (s.chip.slot j).fbAge →
    s.chip.recov.outputsBlocked = false →
    Runs (.feedbackLost j) s (fun t => (t.chip.slot j).mode = 2 ∧ (t.chip.slot j).man = (s.chip.slot j).out ∧ (t.chip.slot j).lost = true ∧
      (t.chip.slot j).out = (s.chip.slot j).out ∧ t.chip.rd Reg.Loop.FB_LOST_SEEN = 1 ∧
      t.chip.rd Reg.Loop.FB_LOST_COUNT = (s.chip.rd Reg.Loop.FB_LOST_COUNT + 1) % 2 ^ (Reg.Loop.FB_LOST_COUNT).width ∧
      ∃ m, t.chip.faults.arrivals = s.chip.faults.arrivals ++ [m] ∧ m.level = 4 ∧ m.kind = 0x77 ∧ m.detail % 256 = j.val ∧
        m.minSev = if d.fbBlock then 6 else 0)) ∧
  (∀ (j : Fin 128) (d : SlotDef) (s : State), s.chip.slotDef j = some d → (s.chip.slot j).lost = true → (s.chip.slot j).mode = 2 →
    d.recover ≤ (s.chip.slot j).freshRun →
    Runs (.feedbackRecover j) s (fun t => t.chip.slot j = { s.chip.slot j with wantAuto := true } ∧ t.chip.regs = s.chip.regs)) ∧
  (∀ (j : Fin 128) (d : SlotDef) (s : State), s.chip.slotDef j = some d → d.missLimit ≤ (s.chip.slot j).misses → 0 < (s.chip.slot j).misses →
    s.chip.recov.outputsBlocked = false →
    ((s.chip.slot j).missRaised = false → Runs (.loopMissLimit j) s (fun t => (t.chip.slot j).missRaised = true ∧
      ∃ m, t.chip.faults.arrivals = s.chip.faults.arrivals ++ [m] ∧ m.level = 4 ∧ m.kind = 0x76 ∧ m.detail = j.val)) ∧
    ((s.chip.slot j).missRaised = true → Does (.loopMissLimit j) s s.chip)) ∧
  (∀ (j : Fin 128) (k : Fin 20) (d : SlotDef) (x : LoopTerm) (a ch : Nat) (s : State), s.chip.termAt j k = some (d, x) →
    x.sensorOf false = some (a, ch) → 0 < d.frozen → d.frozen ≤ ((s.chip.slot j).term k).prim.same →
    ((s.chip.slot j).term k).prim.frozen = false →
    Runs (.sensorFrozen j k false) s (fun t => ((t.chip.slot j).term k).prim.frozen = true ∧ t.chip.rd Reg.Loop.FB_FROZEN_SEEN = 1 ∧
      ∃ m, t.chip.faults.arrivals = s.chip.faults.arrivals ++ [m] ∧ m.level = 1 ∧ m.source = a ∧ m.kind = 0x0B)) ∧
  (∀ (j : Fin 128) (k : Fin 20) (s : State), ((s.chip.slot j).term k).prim.frozen = true →
    (16 ≤ ((s.chip.slot j).term k).prim.differ → Runs (.sensorUnfrozen j k false) s (fun t =>
      ((t.chip.slot j).term k).prim.frozen = false ∧ t.chip.regs = s.chip.regs)) ∧
    (((s.chip.slot j).term k).prim.differ < 16 → Does (.sensorUnfrozen j k false) s s.chip)) ∧
  (∀ (j : Fin 128) (k : Fin 20) (d : SlotDef) (s : State), s.chip.slotDef j = some d →
    (((s.chip.slot j).term k).xchk = false → d.xchkFrames ≤ ((s.chip.slot j).term k).apart → 0 < ((s.chip.slot j).term k).apart →
      s.chip.recov.outputsBlocked = false → Runs (.sensorDisagreement j k) s (fun t => ((t.chip.slot j).term k).xchk = true ∧
        t.chip.rd Reg.Loop.XCHK_SEEN = 1 ∧ ∃ m, t.chip.faults.arrivals = s.chip.faults.arrivals ++ [m] ∧ m.level = 4 ∧ m.kind = 0x78)) ∧
    (((s.chip.slot j).term k).xchk = true → d.xchkFrames ≤ ((s.chip.slot j).term k).agree →
      Runs (.xchkClear j k) s (fun t => ((t.chip.slot j).term k).xchk = false ∧ t.chip.regs = s.chip.regs))) ∧
  (∀ (p : PortIx) (d : SlotDef) (s : State), let j := s.chip.rd (Reg.LoopCtl.SLOT_SEL p)
    s.chip.has p .order = true → s.chip.slotDef j = some d → d.manAllowed = true → (s.chip.slot j).mode = 1 → (s.chip.slot j).req = none →
    s.chip.rd (Reg.LoopCtl.MODE_REQ p) = 2 →
    Runs (.slotGo p) s (fun t => t.chip.rd (Reg.LoopCtl.SLOT_RESULT p) = 0 ∧
      (t.chip.slot j).req = some (p.val, 2, s.chip.rd (Reg.LoopCtl.MAN_VALUE p)) ∧ (t.chip.slot j).mode = 1)) ∧
  (∀ (p : PortIx) (s : State), s.chip.has p .order = true → s.chip.slotDef (s.chip.rd (Reg.LoopCtl.SLOT_SEL p)) = none →
    Runs (.slotGo p) s (fun t => t.chip.rd (Reg.LoopCtl.SLOT_RESULT p) = 2 ∧ OnlyFields [Reg.LoopCtl.SLOT_RESULT p] s t)) ∧
  (∀ (p : PortIx) (s : State), s.chip.has p .order = false →
    Runs (.slotGo p) s (fun t => t.chip.rd (Reg.LoopCtl.SLOT_RESULT p) = 3 ∧ t.chip.loop = s.chip.loop))

/-- R191, R192, R194, R195, R196. An activation brings the head of an EVENT group into flight, waiting, with the argument given; where one of the group's
descriptors is in flight already nothing comes into flight, and the refusal is counted. A waiting instance whose counter is 0 and whose release has
come turns READY; an idle engine takes an eligible READY instance that no other eligible one precedes; an instance that runs beyond its BUDGET is
counted once and keeps running. Where a clause goes beyond the words of the rules it is the model's choice: log entry 39. -/
def Obligations.TasksStart : Prop :=
  ((∀ (d : Fin 1024) (arg : Word) (x : TaskDesc) (s : State), s.chip.taskDesc d = some x → x.event = true →
      (∀ k ∈ s.chip.card.tasks.reach [d.val] [d.val] 128, s.chip.inst k = none) →
      s.chip.sched.insts.length + (s.chip.card.tasks.reach [d.val] [d.val] 128).length ≤ 128 →
      Runs (.activateInstr d arg none) s (fun t => ∃ i, t.chip.inst d = some i ∧ i.arg = arg.toNat ∧ i.phase = .waiting ∧
        i.counter = x.depCount ∧ i.date = none)) ∧
    (∀ (d : Fin 1024) (arg : Word) (date : Option Date) (x : TaskDesc) (s : State), s.chip.taskDesc d = some x → x.event = true →
      (s.chip.inst d).isSome = true →
      Runs (.activateInstr d arg date) s (fun t => t.chip.sched.insts = s.chip.sched.insts ∧ t.chip.rd Reg.Trace.REFUSED_SEEN = 1 ∧
        t.chip.rd Reg.Trace.ACT_REFUSED_COUNT = (s.chip.rd Reg.Trace.ACT_REFUSED_COUNT + 1) % 2 ^ 32))) ∧
  ((∀ (dt : Nat) (d : Fin 1024) (i : TaskInst) (x : TaskDesc) (s : State), s.chip.inst d = some i → s.chip.taskDesc d = some x →
      i.phase = .waiting → i.counter = 0 → i.orphan = false → (s.chip.advance dt).released x i = true →
      Runs (.taskReady dt d) s (fun t => t.chip.inst d = some { i with phase := .ready, readyAt := (s.chip.advance dt).runNs })) ∧
    (∀ (dt : Nat) (e : Fin 12) (j : TaskInst) (s : State), (∀ i ∈ s.chip.sched.insts, ¬(i.phase = .running ∧ i.engine = e)) →
      j ∈ s.chip.sched.insts → (s.chip.advance dt).eligible e j = true →
      Runs (.taskDispatch dt e) s (fun t => ∃ i ∈ s.chip.sched.insts, (s.chip.advance dt).eligible e i = true ∧
        { i with phase := .running, engine := e.val, started := (s.chip.advance dt).runNs } ∈ t.chip.sched.insts ∧
        ∀ k ∈ s.chip.sched.insts, (s.chip.advance dt).eligible e k = true → (s.chip.advance dt).before k i = false)) ∧
    (∀ (dt : Nat) (d : Fin 1024) (i : TaskInst) (x : TaskDesc) (s : State), s.chip.inst d = some i → s.chip.taskDesc d = some x →
      i.phase = .running → i.overran = false → x.budget < (s.chip.advance dt).runNs - i.started →
      Runs (.taskOverrun dt d) s (fun t => t.chip.inst d = some { i with overran := true } ∧ t.chip.rd Reg.Trace.OVERRUN_SEEN = 1 ∧
        t.chip.rd Reg.Trace.OVERRUN_COUNT = (s.chip.rd Reg.Trace.OVERRUN_COUNT + 1) % 2 ^ 32)))

/-- R195, R197, R199, R200, R201, R202, R205, R207, R208. An instance in flight ends: it finishes in a PARALLEL flow and is published, is cancelled,
passes its deadline or its timeout, or can no longer start; in each case it is in flight no more, and the count of its kind of ending rises by one. A
host orders and cancels what it may call; the trace freezes and goes on again; a dated instance at its date is released; the reads of the trace and of
the statistics show what is held. Where a clause goes beyond the words of the rules it is the model's choice: log entry 39. -/
def Obligations.TasksEnd : Prop :=
  (∀ (dt : Nat) (d : Fin 1024) (i : TaskInst) (x : TaskDesc) (s : State), s.chip.inst d = some i → s.chip.taskDesc d = some x →
      (i.phase = .running → s.chip.card.tasks.flowKind x.flow = 0 → (s.chip.can 16384).queue = [] → (s.chip.can 16385).queue = [] →
        Runs (.taskComplete dt d) s (fun t => t.chip.inst d = none ∧
          (t.chip.taskStats d).runs = ((s.chip.taskStats d).runs + 1) % 2 ^ 32)) ∧
      Runs (.cancelInstr d) s (fun t => t.chip.inst d = none ∧
        t.chip.rd Reg.Trace.CANCEL_COUNT = (s.chip.rd Reg.Trace.CANCEL_COUNT + 1) % 2 ^ 32) ∧
      (x.event = false → x.deadlineOfs ≤ (s.chip.advance dt).nowNs - s.chip.time.frameStart →
        Runs (.taskDeadline dt d) s (fun t => t.chip.inst d = none ∧ t.chip.rd Reg.Trace.DEADLINE_SEEN = 1)) ∧
      (x.event = true → x.timeout ≤ (s.chip.advance dt).runNs - i.activated →
        Runs (.taskTimeout dt d) s (fun t => t.chip.inst d = none ∧ t.chip.rd Reg.Trace.DEADLINE_SEEN = 1)) ∧
      (i.orphan = true →
        Runs (.predCancelled dt d) s (fun t => t.chip.inst d = none ∧
          t.chip.rd Reg.Trace.CANCEL_COUNT = (s.chip.rd Reg.Trace.CANCEL_COUNT + 1) % 2 ^ 32))) ∧
  ((∀ (p : PortIx) (x : TaskDesc) (s : State), s.chip.has p .order = true → s.chip.taskDesc (s.chip.rd (Reg.Trace.TASK_ORDER_SEL p)) = some x →
      x.event = true → x.hostCallable = true →
      (s.chip.activate (s.chip.rd (Reg.Trace.TASK_ORDER_SEL p)) (some (s.chip.rd (Reg.Trace.TASK_ORDER_ARG p))) none).1 = 0 →
      Runs (.actGo p) s (fun t => t.chip.rd (Reg.Trace.TASK_ORDER_RESULT p) = 1)) ∧
    (∀ (p : PortIx) (x : TaskDesc) (i : TaskInst) (s : State), s.chip.has p .order = true →
      s.chip.taskDesc (s.chip.rd (Reg.Trace.TASK_ORDER_SEL p)) = some x → x.event = true → x.hostCallable = true →
      s.chip.inst (s.chip.rd (Reg.Trace.TASK_ORDER_SEL p)) = some i →
      Runs (.cancelGo p) s (fun t => t.chip.rd (Reg.Trace.TASK_ORDER_RESULT p) = 1 ∧
        t.chip.inst (s.chip.rd (Reg.Trace.TASK_ORDER_SEL p)) = none)) ∧
    (∀ s : State, s.chip.sched.postLeft = some 0 →
      Runs .traceFreeze s (fun t => t.chip.rd Reg.Trace.FROZEN = 1 ∧ t.chip.sched.trace = s.chip.sched.trace ∧
        t.chip.sched.insts = s.chip.sched.insts)) ∧
    (∀ (p : PortIx) (s : State), s.chip.has p .protect = true ∨ s.chip.has p .maint = true →
      Runs (.unfreeze p) s (fun t => t.chip.rd Reg.Trace.FROZEN = 0 ∧ t.chip.sched.postLeft = none ∧
        t.chip.sched.trace = s.chip.sched.trace)) ∧
    (∀ (dt : Nat) (d : Fin 1024) (i : TaskInst) (st : Nat) (s : State), s.chip.inst d = some i → i.date = some (none, st) →
      (s.chip.advance dt).stamp = st →
      Runs (.datedActivationDue dt d) s (fun t =>
        t.chip.inst d = some { i with date := none, readyAt := (s.chip.advance dt).runNs } ∧ t.chip.regs = s.chip.regs)) ∧
    (∀ (p : PortIx) (s : State), s.chip.has p .observe = true →
      Runs (.traceW0Read p) s (fun t => t.chip.rd (Reg.Trace.TRACE_RESULT p) =
        ringPlace (s.chip.rd Reg.Trace.TRACE_HEAD) (s.chip.rd (Reg.Trace.TRACE_SEL p)) 8192 ∧ t.chip.sched = s.chip.sched) ∧
      Runs (.taskRunsRead p) s (fun t => t.chip.rd (Reg.TaskStat.TASK_RUNS p) =
        (s.chip.taskStats (s.chip.rd (Reg.TaskStat.TASK_SEL p))).runs % 2 ^ 32 ∧ t.chip.sched = s.chip.sched)))

/-- R52, R53, R211, R212, R224, R225, R231, R306, R438. A cell without power that is reset enters WAKE, with no fault and nothing held in its frame
engine; one whose TEST_MODE inputs are not 0 before its field fuse is blown stops, since no effect is stated for a factory test mode. A brown-out puts
the cell OFF with every gate low, and a fence record that it held stays and notes that the cell has been OFF. The orders that change a cell's state
answer 1 and change it, PREV_STATE taking the state that is left and LAST_CAUSE the order's cause; in a state that does not take the order they answer
2 and change no register. A cell that has had no management entry for 100 ms in ADMIT enters BIVOUAC; a path delay is taken from ADMIT on, but not in
BIVOUAC; a cell that has been out of alignment for two frames loses its lock, and its target is BYPASS from then on, subject to MIN_DWELL. Where a
clause goes beyond the words of the rules it is the model's choice: log entries 7, 36. -/
def Obligations.CellStates : Prop :=
  ((∀ (a : CellAddr) (f : CellFuses) (fuseBad okA okB : Bool) (s : State), (s.chip.gate a).powered = false →
      Runs (.cellPowerOnReset a 0 f fuseBad okA okB) s (fun t => t.chip.cellState a = 1 ∧ (t.chip.gate a).powered = true ∧
        (t.chip.cmd a).held = [] ∧ (t.chip.part a).fitted = true ∧ (t.chip.part a).fuseBad = fuseBad ∧
        ((s.chip.part a).fitted = true → (t.chip.part a).fused = (s.chip.part a).fused) ∧
        ((s.chip.part a).fitted = false → (t.chip.part a).fused = f))) ∧
    (∀ (a : CellAddr) (m : Fin 4) (f : CellFuses) (fuseBad okA okB : Bool) (s : State), m ≠ 0 → mapGet false s.fuses.cellsClosed a = false →
      exec (.cellPowerOnReset a m f fuseBad okA okB) s = .fault .factoryTestMode) ∧
    (∀ (a : CellAddr) (s : State), Runs (.cellBrownOut a) s (fun t => t.chip.cellState a = 0 ∧ t.chip.rd (Reg.Gate.G_OUT a) = 0 ∧
      t.chip.rd (Reg.Gate.BYP_FIRE_OUT a) = 0 ∧ (t.chip.gate a).powered = false ∧
      t.chip.rd (Reg.CId.FENCE_RECORD a) = s.chip.rd (Reg.CId.FENCE_RECORD a) ∧
      t.chip.rd (Reg.CId.FENCE_HARD a) = s.chip.rd (Reg.CId.FENCE_HARD a) ∧
      (s.chip.rd (Reg.CId.FENCE_RECORD a) = 1 → t.chip.rd (Reg.CId.OFF_SINCE_FENCE a) = 1)))) ∧
  (∀ (a : CellAddr) (s : State),
      let st := s.chip.cellState a
      let goes (i : Instr) (dest cause : Nat) : Prop := Runs i s (fun t => (t.chip.cmd a).result = 1 ∧ t.chip.cellState a = dest ∧
        t.chip.rd (Reg.CId.PREV_STATE a) = st ∧ t.chip.rd (Reg.CId.LAST_CAUSE a) = cause)
      let refused (i : Instr) : Prop := Runs i s (fun t => (t.chip.cmd a).result = 2 ∧ t.chip.regs = s.chip.regs)
      st < 16 →
      (∀ (e : Fin 65536) (v : Word), st = 2 ∨ st = 7 → e.val = v.toNat % 65536 → e.val ≠ s.chip.rd (Reg.CId.EPOCH a) →
        goes (.epochWrite a e v) 3 2) ∧
      (∀ (e : Fin 65536) (v : Word), st ≠ 2 ∧ st ≠ 7 ∨ e.val ≠ v.toNat % 65536 ∨ e.val = s.chip.rd (Reg.CId.EPOCH a) →
        refused (.epochWrite a e v)) ∧
      (st = 3 → s.chip.rd (Reg.CId.FENCE_RECORD a) = 0 → goes (.enrol a) 4 3) ∧
      (st = 3 → s.chip.rd (Reg.CId.FENCE_RECORD a) = 1 → goes (.enrol a) 8 3) ∧ (st ≠ 3 → refused (.enrol a)) ∧
      (3 ≤ st → st ≤ 7 → goes (.fenceReq a) 8 11) ∧ (st < 3 ∨ 7 < st → refused (.fenceReq a)) ∧
      (st = 8 → s.chip.rd (Reg.CId.FENCE_HARD a) = 0 ∨ s.chip.rd (Reg.CId.OFF_SINCE_FENCE a) = 1 → goes (.unfenceReq a) 7 13) ∧
      (st ≠ 8 ∨ s.chip.rd (Reg.CId.FENCE_HARD a) = 1 ∧ s.chip.rd (Reg.CId.OFF_SINCE_FENCE a) = 0 → refused (.unfenceReq a)) ∧
      (3 ≤ st → st ≤ 6 → goes (.toBivouac a) 7 9) ∧ (st < 3 ∨ 6 < st → refused (.toBivouac a))) ∧
  ((∀ (a : CellAddr) (dt : Nat) (s : State), s.chip.cellState a = 3 →
      (s.chip.cmd a).lastEntry + 25600000000 ≤ ((s.chip.cellAdvance a dt).ct a).time →
      Runs (.admitTimeout a dt) s (fun t => t.chip.cellState a = 7 ∧ t.chip.rd (Reg.CId.LAST_CAUSE a) = 10 ∧
        t.chip.rd (Reg.CId.EPOCH a) = s.chip.rd (Reg.CId.EPOCH a))) ∧
    (∀ (a : CellAddr) (e : EndIx) (v : Word) (s : State), 3 ≤ s.chip.cellState a → s.chip.cellState a ≠ 7 →
      let f := if e = 0 then Reg.CTime.DELAY_A a else Reg.CTime.DELAY_B a
      Runs (.delayWrite a e v) s (fun t => (t.chip.cmd a).result = 1 ∧ t.chip.rd f = v.toNat % 2 ^ f.width ∧
        (t.chip.ct a).appliedA = (s.chip.ct a).appliedA ∧ (t.chip.ct a).appliedB = (s.chip.ct a).appliedB)) ∧
    (∀ (a : CellAddr) (e : EndIx) (v : Word) (s : State), s.chip.cellState a < 3 ∨ s.chip.cellState a = 7 →
      Runs (.delayWrite a e v) s (fun t => (t.chip.cmd a).result = 2 ∧ t.chip.regs = s.chip.regs)) ∧
    (∀ (a : CellAddr) (s : State), 2 ≤ (s.chip.ct a).badFrames → 3 ≤ s.chip.cellState a → s.chip.cellState a ≤ 6 →
      s.chip.rd (Reg.CId.FENCE_RECORD a) = 0 → s.chip.rd (Reg.Prot.LOCAL_HOLD a) = 0 → s.chip.cellIsS a = false →
      Runs (.timeAlignmentLost a) s (fun t => (t.chip.ct a).pll.locked = false ∧ t.chip.rd (Reg.CTime.PLL_LOCKED a) = 0 ∧
        t.chip.cellState a = s.chip.cellState a ∧ t.chip.rd (Reg.Gate.SOURCE a) = 3 ∧ t.chip.rd (Reg.Gate.TARGET_NOW a) % 4 =
          if s.chip.rd (Reg.Gate.TARGET_NOW a) = 0 ∨ (s.chip.gate a).lastChange = none ∨
            (s.chip.gate a).lastChange.getD 0 + s.chip.minDwell a ≤ s.chip.cellTick a then 0
          else s.chip.rd (Reg.Gate.TARGET_NOW a) % 4)))

/-- R220, R221, R222, R223, R224, R227. A desaturation of a gate that is on, and the over-voltage comparator, give a hard fence: its kind recorded,
LOCAL_HOLD set, the cell FENCED, and a fault; the over-voltage asserts BYP_FIRE for BYP_FIRE_WIDTH; an unconfirmed bypass is flagged. Where a clause
goes beyond the words of the rules it is the model's choice: log entries 2, 36. -/
def Obligations.CellProtects : Prop :=
  (∀ (a : CellAddr) (dt : Nat) (g : Fin 4) (s : State), s.chip.cellIsS a = false → (s.chip.gate a).powered = true →
    bits (s.chip.rd (Reg.Gate.G_OUT a)) g 1 = 1 → 3 ≤ s.chip.cellState a → s.chip.cellState a < 16 →
    s.chip.rd (Reg.CId.FENCE_RECORD a) = 0 → s.chip.rd (Reg.Gate.TARGET_NOW a) < 3 →
    Runs (.desaturation a dt g true) s (fun t => t.chip.cellState a = 8 ∧ t.chip.rd (Reg.CId.FENCE_HARD a) = 1 ∧
      t.chip.rd (Reg.CId.FENCE_KIND a) = 0x05 ∧ t.chip.rd (Reg.Prot.LOCAL_HOLD a) = 1 ∧ t.chip.rd (Reg.Gate.TARGET_NOW a) = 3 ∧
      t.chip.rd (Reg.Gate.G_OUT a) = 0)) ∧
  (∀ (a : CellAddr) (dt : Nat) (s : State), s.chip.cellIsS a = false → (s.chip.gate a).powered = true →
    3 ≤ s.chip.cellState a → s.chip.cellState a < 16 → s.chip.rd (Reg.CId.FENCE_RECORD a) = 0 → (s.chip.gate a).fired = false →
    Runs (.overVoltageBypass a dt true) s (fun t => t.chip.cellState a = 8 ∧ t.chip.rd (Reg.CId.FENCE_HARD a) = 1 ∧
      t.chip.rd (Reg.CId.FENCE_KIND a) = 0x06 ∧ t.chip.rd (Reg.Prot.LOCAL_HOLD a) = 1 ∧ t.chip.rd (Reg.Gate.BYP_FIRE_OUT a) = 1 ∧
      t.chip.rd (Reg.Prot.BYP_FIRED a) = 1 ∧ t.chip.rd (Reg.Prot.OVP_SEEN a) = 1 ∧ t.chip.rd (Reg.Gate.TARGET_NOW a) = 0)) ∧
  (∀ (a : CellAddr) (t0 : Nat) (s : State), (s.chip.gate a).fireAt = some t0 →
    Runs (.bypFireEnd a) s (fun t => t.chip.rd (Reg.Gate.BYP_FIRE_OUT a) = 0 ∧
      t.chip.cellTick a = max (s.chip.cellTick a) (t0 + s.chip.rd (Reg.Prot.BYP_FIRE_WIDTH a) * 12500) ∧
      OnlyFields [Reg.Gate.BYP_FIRE_OUT a] { s with chip := { s.chip with ctime := t.chip.ctime, gates := t.chip.gates } } t)) ∧
  (∀ (a : CellAddr) (dt t0 : Nat) (s : State), (s.chip.gate a).confirmFrom = some t0 →
    t0 + s.chip.rd (Reg.Prot.BYP_CONFIRM_T a) * 256000000 ≤ ((s.chip.cellAdvance a dt).ct a).time →
    Runs (.bypassNotConfirmed a dt) s (fun t => t.chip.rd (Reg.Prot.BYP_NOT_CONFIRMED a) = 1 ∧ (t.chip.gate a).confirmFrom = none ∧
      t.chip.cellState a = s.chip.cellState a)) ∧
  (∀ (a : CellAddr) (dt : Nat) (g : Fin 4) (low level : Bool) (s : State), s.chip.cellIsS a = true →
    Does (.desaturation a dt g low) s (s.chip.cellAdvance a dt) ∧ Does (.overVoltageBypass a dt level) s (s.chip.cellAdvance a dt))

/-- R213, R214, R215, R216, R217, R218. A deferred change executes at its instant: the target is taken, the gates that the new pattern does not hold are
off, and no gate turns on before DEAD_TIME has passed; then those that the pattern newly holds turn on; the frame's next scheduled change is taken off
the schedule at its tick and, where nothing holds it off, executes. Where a clause goes beyond the words of the rules it is the model's choice: log
entry 36. -/
def Obligations.CellGates : Prop :=
  (∀ (a : CellAddr) (tgt t0 : Nat) (s : State), (s.chip.gate a).deferred = some (tgt, t0) → tgt < 4 →
    let pat := gatePattern tgt (s.chip.rd (Reg.Gate.BYP_PATTERN a))
    Runs (.deferredChangeExec a) s (fun t => t.chip.rd (Reg.Gate.TARGET_NOW a) = tgt ∧ (t.chip.gate a).deferred = none ∧
      (∀ k < 4, bits (t.chip.rd (Reg.Gate.G_OUT a)) k 1 = 1 → bits pat k 1 = 1 ∧ bits (s.chip.rd (Reg.Gate.G_OUT a)) k 1 = 1) ∧
      (t.chip.gate a).lastChange = some t0 ∧ t.chip.rd (Reg.Gate.DEFER_PENDING a) = 0 ∧
      t.chip.rd (Reg.Gate.EDGES_EXECUTED a) = (s.chip.rd (Reg.Gate.EDGES_EXECUTED a) + 1) % 2 ^ (Reg.Gate.EDGES_EXECUTED a).width)) ∧
  (∀ (a : CellAddr) (l : Nat) (s : State), (s.chip.gate a).lastChange = some l → (s.chip.gate a).turnOn.any id = true →
    (∀ k < 4, (s.chip.gate a).turnOn.getD k false = true → s.chip.legFree a k (l + s.chip.rd (Reg.Gate.DEAD_TIME a)) = true) →
    Runs (.deadTimeTurnOn a) s (fun t => (∀ k < 4, bits (t.chip.rd (Reg.Gate.G_OUT a)) k 1 = 1 ↔
        bits (s.chip.rd (Reg.Gate.G_OUT a)) k 1 = 1 ∨ (s.chip.gate a).turnOn.getD k false = true) ∧
      (∀ k, (t.chip.gate a).turnOn.getD k false = false) ∧ t.chip.rd (Reg.Gate.TARGET_NOW a) = s.chip.rd (Reg.Gate.TARGET_NOW a))) ∧
  (∀ (a : CellAddr) (t0 tgt : Nat) (rest : List (Nat × Nat)) (s : State), (s.chip.gate a).schedule = (t0, tgt) :: rest →
    s.chip.rd (Reg.CId.FENCE_RECORD a) = 0 → s.chip.rd (Reg.Prot.LOCAL_HOLD a) = 0 → (s.chip.ct a).alignLost = false →
    s.chip.cellState a = 5 → s.chip.cellIsS a = false → tgt < 4 → (s.chip.gate a).lastChange = none →
    Runs (.gateChangeDue a) s (fun t => (t.chip.gate a).schedule = rest ∧ t.chip.rd (Reg.Gate.TARGET_NOW a) = tgt ∧
      t.chip.cellState a = 5))

/-- R233, R234, R235, R236, R238, R241. An entry of the plan in force falls due and waits; the free converter takes the waiting request that none
precedes; one that has waited 2,000 ns is dropped and counted, with a fault for the classes protection and control; a CONV_PLAN that names an empty
plan leaves the plan in force and is counted; the plan memory is read and written at PLAN_IDX, which moves on. The conversion under way ends: its
code, clamped to 16 bits, enters the result buffer at BUF_HEAD with its input and flags; a code beyond the range is flagged OVR and the next
conversion is SETTLING. Where a clause goes beyond the words of the rules it is the model's choice: log entries 3, 11. -/
def Obligations.Conversions : Prop :=
  ((∀ (a : CellAddr) (dt n e : Nat) (s : State), (s.chip.meas1 a).loaded[n]? = some e → s.chip.cellState a ≠ 0 → bits e 4 1 = 0 →
      Runs (.conversionDue a dt n) s (fun t => (t.chip.meas1 a).waiting =
        (s.chip.meas1 a).waiting ++ [⟨n, e, (s.chip.cellAdvance a dt).cellTick a, 0, false⟩] ∧ t.chip.regs = s.chip.regs)) ∧
    (∀ (a : CellAddr) (dt : Nat) (r : ConvReq) (s : State), (s.chip.meas1 a).busy = none → s.chip.cellState a ≠ 0 →
      r ∈ (s.chip.meas1 a).waiting →
      Runs (.conversionStart a dt) s (fun t => t.chip.rd (Reg.Adc.BUSY a) = 1 ∧ ∃ q ∈ (s.chip.meas1 a).waiting,
        (∀ x ∈ (s.chip.meas1 a).waiting, convBefore x q = false) ∧ (t.chip.meas1 a).waiting = (s.chip.meas1 a).waiting.erase q ∧
        ∃ b, (t.chip.meas1 a).busy = some b ∧ b.idx = q.idx ∧ b.entry = q.entry)) ∧
    (∀ (a : CellAddr) (dt n : Nat) (r : ConvReq) (s : State), (s.chip.meas1 a).waiting.find? (fun x => decide (x.idx = n) &&
        decide (x.due + 2500 ≤ (s.chip.cellAdvance a dt).cellTick a)) = some r →
      Runs (.conversionDropped a dt n) s (fun t => (t.chip.meas1 a).waiting = (s.chip.meas1 a).waiting.erase r ∧
        t.chip.rd (Reg.Adc.CONV_DROP_SEEN a) = 1 ∧
        t.chip.rd (Reg.Adc.CONV_DROPPED a) = (s.chip.rd (Reg.Adc.CONV_DROPPED a) + 1) % 2 ^ (Reg.Adc.CONV_DROPPED a).width)) ∧
    (∀ (a : CellAddr) (v : Fin 256) (s : State), 8 ≤ v.val ∨ (s.chip.planDir a v).2 = 0 →
      Runs (.convPlan a v) s (fun t => t.chip.rd (Reg.Adc.PLAN_BAD a) = 1 ∧ t.chip.rd (Reg.Adc.PLAN_NOW a) = s.chip.rd (Reg.Adc.PLAN_NOW a) ∧
        t.chip.rd (Reg.Adc.PLAN_BAD_COUNT a) = (s.chip.rd (Reg.Adc.PLAN_BAD_COUNT a) + 1) % 2 ^ (Reg.Adc.PLAN_BAD_COUNT a).width)) ∧
    (∀ (a : CellAddr) (v : Fin 256) (s : State), v.val < 8 → (s.chip.planDir a v).2 ≠ 0 →
      s.chip.rd (Reg.Adc.PLAN_NOW a) ≠ v.val ∨ s.chip.rd (Reg.Adc.BOOT_PLAN a) = 1 →
      Runs (.convPlan a v) s (fun t => t.chip.rd (Reg.Adc.PLAN_NOW a) = v.val ∧ t.chip.rd (Reg.Adc.BOOT_PLAN a) = 0 ∧
        (t.chip.meas1 a).waiting = [])) ∧
    (∀ (a : CellAddr) (w : Word) (s : State), let i := s.chip.rd (Reg.Adc.PLAN_IDX a)
      Runs (.planDataAccess a (some w)) s (fun t => mapGet 0 (t.chip.meas1 a).planMem i = w.toNat ∧ (t.chip.cmd a).result = 1 ∧
        t.chip.rd (Reg.Adc.PLAN_IDX a) = (i + 1) % 2 ^ (Reg.Adc.PLAN_IDX a).width) ∧
      Runs (.planDataAccess a none) s (fun t => (t.chip.cmd a).data = mapGet 0 (s.chip.meas1 a).planMem i ∧
        t.chip.rd (Reg.Adc.PLAN_IDX a) = (i + 1) % 2 ^ (Reg.Adc.PLAN_IDX a).width ∧ t.chip.meas = s.chip.meas))) ∧
  (∀ (a : CellAddr) (dt : Nat) (raw : Int) (r : ConvReq) (s : State), (s.chip.meas1 a).busy = some r → s.chip.rd (Reg.Adc.BUF_HEAD a) < 1024 →
      Runs (.conversionComplete a dt raw) s (fun t => (t.chip.meas1 a).busy = none ∧ t.chip.rd (Reg.Adc.BUSY a) = 0 ∧
        t.chip.rd (Reg.Adc.BUF_HEAD a) = (s.chip.rd (Reg.Adc.BUF_HEAD a) + 1) % 1024 ∧
        t.chip.rd (Reg.Adc.CONV_COUNT a) = (s.chip.rd (Reg.Adc.CONV_COUNT a) + 1) % 2 ^ (Reg.Adc.CONV_COUNT a).width ∧
        (mapGet (0, 0) (t.chip.meas1 a).buf (s.chip.rd (Reg.Adc.BUF_HEAD a))).1 % 2 ^ 16 = ofSigned 16 (clampInt (-32768) 32767 raw) ∧
        bits (mapGet (0, 0) (t.chip.meas1 a).buf (s.chip.rd (Reg.Adc.BUF_HEAD a))).1 16 4 = entryAin r.entry ∧
        (bits (mapGet (0, 0) (t.chip.meas1 a).buf (s.chip.rd (Reg.Adc.BUF_HEAD a))).1 20 1 = 1 ↔ raw < -32768 ∨ 32767 < raw) ∧
        ((t.chip.meas1 a).settling = true ↔ raw < -32768 ∨ 32767 < raw)))

/-- R187, R188, R242, R243. A calibration point runs at a FENCED cell once at a time, shows the mean of its clean conversions in 1/16 LSB and their
spread, and fails after 5 s; the WC8400 runs one order at a time, for a host with MAINT rights, and refuses to store points that fail its checks. The
rising edge of DCDC_EN of a CLOSED pack puts the slot in AUTO, its fall in MANUAL with output 0; a slot without a fresh conversion for BC_LOST_LIMIT
runs stops, with its flag. Where a clause goes beyond the words of the rules it is the model's choice: log entries 5, 16, 34. -/
def Obligations.CalibrationAndBatteryCurrent : Prop :=
  ((∀ (a : CellAddr) (s : State), s.chip.cellState a = 8 → (s.chip.meas1 a).cal = none →
      Runs (.cellCalGo a) s (fun t => ∃ p, (t.chip.meas1 a).cal = some p ∧ p.ain = s.chip.rd (Reg.Adc.CAL_SEL a) ∧
        p.left = 2 ^ calN (s.chip.rd (Reg.Adc.CAL_N_LOG2 a)) ∧ p.total = p.left ∧ p.sum = 0 ∧ t.chip.regs = s.chip.regs)) ∧
    (∀ (a : CellAddr) (s : State), s.chip.cellState a ≠ 8 →
      Runs (.cellCalGo a) s (fun t => t.chip.rd (Reg.Adc.CAL_FAILED a) = 1 ∧ t.chip.meas = s.chip.meas)) ∧
    (∀ (a : CellAddr) (p : CalPoint) (s : State), (s.chip.meas1 a).cal = some p → p.left = 0 →
      Runs (.calPointDone a) s (fun t => (t.chip.meas1 a).cal = none ∧ t.chip.rd (Reg.Adc.CAL_DONE a) = 1 ∧
        t.chip.rd (Reg.Adc.CAL_MEAN a) = ofSigned (Reg.Adc.CAL_MEAN a).width (divRound (p.sum * 16) p.total) % 2 ^ (Reg.Adc.CAL_MEAN a).width ∧
        t.chip.rd (Reg.Adc.CAL_SPREAD a) = satNat 16 (p.most - p.least).toNat)) ∧
    (∀ (a : CellAddr) (dt : Nat) (p : CalPoint) (s : State), (s.chip.meas1 a).cal = some p →
      p.since + 1280000000000 ≤ ((s.chip.cellAdvance a dt).ct a).time →
      Runs (.calPointTimeout a dt) s (fun t => (t.chip.meas1 a).cal = none ∧ t.chip.rd (Reg.Adc.CAL_FAILED a) = 1)) ∧
    (∀ (p : PortIx) (r : RegionIx) (s : State), s.chip.has p .maint = true → s.chip.cal.running = none → s.chip.twoHandOk 2 = true →
      Runs (.calGo p r) s (fun t => t.chip.rd (Reg.Cal.CAL_RESULT p r) = 1 ∧ ∃ j, t.chip.cal.running = some j ∧ j.port = p.val ∧
        j.cell = s.chip.calCell p r ∧ j.storing = false)) ∧
    (∀ (p : PortIx) (r : RegionIx) (s : State), s.chip.has p .maint = false ∨ s.chip.cal.running.isSome = true →
      ∀ i ∈ [Instr.calGo p r, .calStore p r], Runs i s (fun t => t.chip.rd (Reg.Cal.CAL_RESULT p r) = 5 ∧ t.chip.cal = s.chip.cal)) ∧
    (∀ (p : PortIx) (r : RegionIx) (z f : Int) (sz sf : Nat) (s : State), let a := s.chip.calCell p r
      let key := (a * 16 + s.chip.rd (Reg.Cal.CAL_AIN p r)) * 2
      s.chip.has p .maint = true → s.chip.cal.running = none → s.chip.idFree a = true →
      findKey key s.chip.cal.points = some (z, sz, false) → findKey (key + 1) s.chip.cal.points = some (f, sf, false) →
      (z.natAbs ≤ 1024 * 16 → 16384 * 16 ≤ (f - z).natAbs → sz ≤ 64 → sf ≤ 64 →
        Runs (.calStore p r) s (fun t => t.chip.rd (Reg.Cal.CAL_RESULT p r) = 1 ∧ t.chip.rd (Reg.Cal.CAL_OFS_NEW r) = ofSigned 16 z % 2 ^ 16 ∧
          ∃ j, t.chip.cal.running = some j ∧ j.storing = true ∧ j.cell = a)) ∧
      (1024 * 16 < z.natAbs ∨ (f - z).natAbs < 16384 * 16 ∨ 64 < sz ∨ 64 < sf →
        Runs (.calStore p r) s (fun t => t.chip.rd (Reg.Cal.CAL_RESULT p r) = 6 ∧ t.chip.cal = s.chip.cal)))) ∧
  ((∀ (a : CellAddr) (ref : Int) (s : State), 4 ≤ s.chip.cellState a → s.chip.cellState a ≤ 6 → s.chip.cellIsS a = false →
      (s.chip.rd (Reg.Idb.PACK_STATE a) = 6 → (s.chip.cmd a).dcdcEn = false →
        Runs (.dcdcEn a true ref) s (fun t => t.chip.rd (Reg.BcSlot.BC_MODE a) = 1 ∧ (t.chip.cmd a).dcdcEn = true ∧
          (t.chip.cmd a).iBattRef = satSigned 16 ref)) ∧
      Runs (.dcdcEn a false ref) s (fun t => t.chip.rd (Reg.BcSlot.BC_MODE a) = 2 ∧ (t.chip.cmd a).dcdcEn = false ∧ (t.chip.bc a).out = 0 ∧
        t.chip.rd (Reg.BcSlot.BC_DUTY a) = 0)) ∧
    (∀ (a : CellAddr) (s : State), s.chip.rd (Reg.BcSlot.BC_MODE a) = 1 → 1 ≤ (s.chip.bc a).agedRuns →
      s.chip.rd (Reg.BcSlot.BC_LOST_LIMIT a) ≤ (s.chip.bc a).agedRuns → (s.chip.pack a).openAsked = 0 →
      Runs (.bcFeedbackLost a) s (fun t => t.chip.rd (Reg.BcSlot.BC_MODE a) = 2 ∧ t.chip.rd (Reg.BcSlot.BC_FB_LOST a) = 1 ∧
        (t.chip.bc a).out = 0 ∧ (t.chip.cmd a).faultQ.length = min ((s.chip.cmd a).faultQ.length + 1) (max 8 (s.chip.cmd a).faultQ.length))))

/-- R244, R245, R246, R247, R248, R249, R352. A bit of CORR_EN that rises arms its correlator and one that clears stops it; a restart arms it anew; a
window starts and ends at the passages of its reference, and gives its record and a count; a capture that has its entries leaves as two bulk records.
A sweep is started by the card, or by a host with ORDER or MAINT, while some region is deblocked and none runs; it is stopped by such a host; results
that find no partner for 2 s are dropped and counted; a correlator result of an admitted cell is acknowledged. Where a clause goes beyond the words of
the rules it is the model's choice: log entries 2, 43. -/
def Obligations.Correlators : Prop :=
  ((∀ (a : CellAddr) (mask : Fin 16) (s : State), 4 ≤ s.chip.cellState a → s.chip.cellState a ≤ 6 →
      Runs (.corrEn a mask) s (fun t => ∀ k < 4, ((t.chip.corr a k).phase = 0 ↔ bits mask.val k 1 = 0) ∧
        (bits mask.val k 1 = 1 → (s.chip.corr a k).phase = 0 → (t.chip.corr a k).phase = 1 ∧ (t.chip.corr a k).n = 0))) ∧
    (∀ (a : CellAddr) (mask : Fin 16) (s : State),
      Runs (.corrRestart a mask) s (fun t => ∀ k < 4, bits mask.val k 1 = 1 → (s.chip.corr a k).phase ≠ 0 →
        (t.chip.corr a k).phase = 1 ∧ (t.chip.corr a k).n = 0)) ∧
    (∀ (a : CellAddr) (dt : Nat) (k : Fin 4) (s : State), (s.chip.corr a k).phase = 1 ∨ (s.chip.corr a k).phase = 2 →
      s.chip.chanUsable a (s.chip.rd (Reg.Corr.REF_CH a k)) = true → 4 ≤ s.chip.cellState a → s.chip.cellState a ≤ 6 →
      Runs (.corrWindowStart a dt k) s (fun t => (t.chip.corr a k).phase = 3 ∧ (t.chip.corr a k).n = 0 ∧
        (t.chip.corr a k).start = ((s.chip.cellAdvance a dt).ct a).time / 256)) ∧
    (∀ (a : CellAddr) (dt : Nat) (k : Fin 4) (s : State), (s.chip.corr a k).phase = 3 →
      Runs (.corrWindowEnd a dt k) s (fun t => (t.chip.corr a k).phase = 1 ∧ (t.chip.corr a k).windows = (s.chip.corr a k).windows + 1 ∧
        (s.chip.bulkHeld a 1 < 8 → (t.chip.cmd a).bulkQ.length = (s.chip.cmd a).bulkQ.length + 1) ∧
        (8 ≤ s.chip.bulkHeld a 1 → t.chip.rd (Reg.Corr.CORR_LOST a k) = (s.chip.rd (Reg.Corr.CORR_LOST a k) + 1) % 2 ^ (Reg.Corr.CORR_LOST a k).width))) ∧
    (∀ (a : CellAddr) (dt : Nat) (r : CapRun) (rest : List CapRun) (s : State), (s.chip.capture a).runs = r :: rest →
      60 ≤ r.after.length ∨ r.at0 + 256000000 ≤ ((s.chip.cellAdvance a dt).ct a).time →
      Runs (.cellCaptureWindowEnd a dt) s (fun t => (t.chip.capture a).runs = rest ∧
        (t.chip.cmd a).bulkQ.length = (s.chip.cmd a).bulkQ.length + 2 ∧ t.chip.regs = s.chip.regs))) ∧
  ((∀ s : State, s.chip.rd Reg.Sweep.SWEEP_STATE = 0 → s.chip.allBlocked = false →
      Runs (.sweepGo none) s (fun t => t.chip.rd Reg.Sweep.SWEEP_STATE = 1 ∧ t.chip.rd Reg.Sweep.SWEEP_POINT = 0 ∧ t.chip.sweep.restart = true)) ∧
    (∀ (p : PortIx) (s : State),
      (s.chip.has p .order = true ∨ s.chip.has p .maint = true →
        (s.chip.rd Reg.Sweep.SWEEP_STATE = 0 → s.chip.allBlocked = false → Runs (.sweepGo (some p)) s (fun t =>
          t.chip.rd Reg.Sweep.SWEEP_STATE = 1 ∧ t.chip.rd (Reg.Sweep.SWEEP_RESULT p) = 1)) ∧
        (s.chip.rd Reg.Sweep.SWEEP_STATE = 0 → s.chip.allBlocked = true → Runs (.sweepGo (some p)) s (fun t =>
          t.chip.rd Reg.Sweep.SWEEP_STATE = 0 ∧ t.chip.rd (Reg.Sweep.SWEEP_RESULT p) = 4)) ∧
        (s.chip.rd Reg.Sweep.SWEEP_STATE = 1 → Runs (.sweepStop p) s (fun t => t.chip.sweep.stopping = true ∧
          t.chip.rd Reg.Sweep.SWEEP_STATE = 2))) ∧
      (s.chip.has p .order = false → s.chip.has p .maint = false → ∀ i ∈ [Instr.sweepGo (some p), .sweepStop p], Runs i s (fun t =>
        t.chip.rd (Reg.Sweep.SWEEP_RESULT p) = 3 ∧ t.chip.sweep = s.chip.sweep))) ∧
    (∀ (dt : Nat) (s : State), let late (x : CorrRes) : Bool := decide (x.arrived + 2000000000 ≤ (s.chip.advance dt).runNs)
      Runs (.unpairedTimeout dt) s (fun t => t.chip.sweep.waiting = s.chip.sweep.waiting.filter (fun x => !late x) ∧
        t.chip.rd Reg.Sweep.UNPAIRED_COUNT =
          (s.chip.rd Reg.Sweep.UNPAIRED_COUNT + (s.chip.sweep.waiting.filter late).length) % 2 ^ (Reg.Sweep.UNPAIRED_COUNT).width)) ∧
    (∀ (dt : Nat) (b : List Byte) (a : Nat) (r : BulkRec) (s : State), s.chip.bulkIn (b.map BitVec.toNat) 1 = some (a, r) →
      Runs (.bulkCorrResultRx dt b) s (fun t => (t.chip.posn a).bulkAck = some r.seq ∧
        ((s.chip.posn a).bulkAck = some r.seq → t.chip.sweep = s.chip.sweep))))

/-- R263, R264, R267, R269. A pack that mates enters DEBOUNCE, and CHECKING once it has stayed for PRESENT_DEBOUNCE, its record being read and an exchange
that awaited a pack CHECKING it; one that leaves opens the port and leaves NO_PACK, a live removal while PACK_EN was high and an unprepared one
outside DETACH_READY each with its fault; a bounce while CHECKING starts DEBOUNCE again. A port that does not close in time opens, with CLOSE_FAILED.
Where a clause goes beyond the words of the rules it is the model's choice: log entry 34. -/
def Obligations.PackPresence : Prop :=
  (∀ (a : CellAddr) (dt : Nat) (s : State), s.chip.cellIsS a = false → s.chip.packState a = 0 →
    Runs (.packConnectorMated a dt) s (fun t => t.chip.packState a = 1 ∧ t.chip.rd (Reg.Idb.PRESENT a) = 1 ∧
      (t.chip.pack a).presentSince = some ((s.chip.cellAdvance a dt).ct a).time ∧ (t.chip.pack a).debounced = false)) ∧
  (∀ (a : CellAddr) (dt t0 : Nat) (s : State), s.chip.packState a = 1 → (s.chip.pack a).presentSince = some t0 →
    t0 + s.chip.rd (Reg.Idb.PRESENT_DEBOUNCE a) * 256000000 ≤ ((s.chip.cellAdvance a dt).ct a).time →
    Runs (.packPresentDebounced a dt) s (fun t => t.chip.packState a = 2 ∧ t.chip.rd (Reg.Idb.PACK_INSERTED a) = 1 ∧
      (t.chip.pack a).debounced = true ∧ ((s.chip.xch a).state = 4 → (t.chip.xch a).state = 5) ∧
      ((s.chip.pack a).packRec = [] → (s.chip.pack a).job = none → (s.chip.pack a).busHeld = false →
        s.chip.rd (Reg.Idb.PACK_READ_OK a) = 0 → (t.chip.pack a).job = some (.read false false 0 false)))) ∧
  (∀ (a : CellAddr) (dt : Nat) (s : State), s.chip.cellIsS a = false → s.chip.packState a ≠ 0 →
    Runs (.packRemoved a dt false) s (fun t => t.chip.packState a = 0 ∧ t.chip.rd (Reg.Idb.PACK_EN_OUT a) = 0 ∧
      t.chip.rd (Reg.Idb.PRESENT a) = 0 ∧ t.chip.rd (Reg.Idb.PACK_REMOVED a) = 1 ∧ t.chip.rd (Reg.BcSlot.BC_MODE a) = 2 ∧
      (t.chip.pack a).accepted = false ∧ (t.chip.pack a).debounced = false ∧ (t.chip.pol a).admitted = false ∧
      ((s.chip.cmd a).faultQ.length < 8 →
        (s.chip.rd (Reg.Idb.PACK_EN_OUT a) = 1 → t.chip.rd (Reg.Idb.LIVE_REMOVAL a) = 1 ∧
          ∃ m, (t.chip.cmd a).faultQ = (s.chip.cmd a).faultQ ++ [m] ∧ bits m 36 8 = 0x12) ∧
        (s.chip.rd (Reg.Idb.PACK_EN_OUT a) = 0 → s.chip.packState a ≠ 1 → s.chip.packState a ≠ 7 →
          ∃ m, (t.chip.cmd a).faultQ = (s.chip.cmd a).faultQ ++ [m] ∧ bits m 36 8 = 0x13) ∧
        (s.chip.rd (Reg.Idb.PACK_EN_OUT a) = 0 → s.chip.packState a = 1 ∨ s.chip.packState a = 7 →
          (t.chip.cmd a).faultQ = (s.chip.cmd a).faultQ)))) ∧
  (∀ (a : CellAddr) (dt : Nat) (s : State), s.chip.cellIsS a = false → s.chip.packState a = 1 ∨ s.chip.packState a = 2 →
    Runs (.packRemoved a dt true) s (fun t => t.chip.packState a = 1 ∧ t.chip.rd (Reg.Idb.PRESENT a) = 1 ∧
      (t.chip.pack a).presentSince = some ((s.chip.cellAdvance a dt).ct a).time ∧ (t.chip.pack a).debounced = false)) ∧
  (∀ (a : CellAddr) (dt t0 : Nat) (s : State), s.chip.packState a = 5 → (s.chip.pack a).closing = some t0 →
    t0 + s.chip.rd (Reg.Idb.PORT_CLOSE_T a) * 2560000000 ≤ ((s.chip.cellAdvance a dt).ct a).time →
    Runs (.portCloseTimeout a dt) s (fun t => t.chip.packState a = 4 ∧ t.chip.rd (Reg.Idb.PACK_EN_OUT a) = 0 ∧
      t.chip.rd (Reg.Idb.CLOSE_FAILED a) = 1 ∧ (t.chip.pack a).closeFails = (s.chip.pack a).closeFails + 1 ∧
      (t.chip.xch a).fails = (s.chip.xch a).fails + 1 ∧
      (2 ≤ (s.chip.xch a).fails → (t.chip.xch a).accepted = false ∧ (t.chip.pol a).admitted = false)))

/-- R255, R256, R260, R261, R262, R264, R270. The orders to the pack port: PACK_ACCEPT opens a pack for closing, PACK_REFUSE and PACK_FENCE open the port
for good, PORT_CLOSE raises PACK_EN where its conditions hold and does nothing elsewhere, PORT_OPEN and DETACH lower it, after the stage has stopped
where it runs; PACK_UNFENCE has the pack read and checked anew; reads and writes of records start while the identity bus is free. The decoder takes
one received frame at a time and applies it to the items of the profile that name its identifier; a target whose age passes its TIMEOUT is gone; FENCE
held for FENCE_DEBOUNCE sets BMS_FENCE; a periodic item is sent, or skipped while its buffer is still pending; a mirror record is queued while a
profile is loaded, and one that arrives gives the policy engine its values once. Where a clause goes beyond the words of the rules it is the model's
choice: log entries 17, 35. -/
def Obligations.PackOrders : Prop :=
  ((∀ (a : CellAddr) (s : State), s.chip.cellIsS a = false →
      (s.chip.packState a = 1 ∨ s.chip.packState a = 2 → Runs (.packAccept a) s (fun t => t.chip.packState a = 4 ∧
        (t.chip.pack a).accepted = true ∧ t.chip.regs = (s.chip.wr (Reg.Idb.PACK_STATE a) 4).regs)) ∧
      (s.chip.packState a ≠ 1 → s.chip.packState a ≠ 2 → Does (.packAccept a) s s.chip) ∧
      (s.chip.packState a ≠ 0 → Runs (.packRefuse a) s (fun t => t.chip.packState a = 3 ∧ t.chip.rd (Reg.Idb.PACK_EN_OUT a) = 0 ∧
        t.chip.rd (Reg.BcSlot.BC_MODE a) = 2 ∧ (t.chip.pack a).accepted = false)) ∧
      (s.chip.packState a ≠ 0 → Runs (.packFence a) s (fun t => t.chip.packState a = 8 ∧ t.chip.rd (Reg.Idb.PACK_EN_OUT a) = 0 ∧
        t.chip.rd (Reg.BcSlot.BC_MODE a) = 2)) ∧
      (s.chip.packState a = 0 → ∀ i ∈ [Instr.packRefuse a, .packFence a, .packAccept a, .packUnfence a, .portOpen a, .packDetach a],
        Does i s s.chip) ∧
      (s.chip.packState a = 8 → s.chip.idFree a = true → Runs (.packUnfence a) s (fun t => t.chip.packState a = 2 ∧
        (t.chip.pack a).accepted = false ∧ t.chip.rd (Reg.Idb.PACK_READ_OK a) = 0 ∧ ∃ j, (t.chip.pack a).job = some j)) ∧
      (s.chip.mayClose a = true → Runs (.portClose a) s (fun t => t.chip.packState a = 5 ∧ t.chip.rd (Reg.Idb.PACK_EN_OUT a) = 1 ∧
        (t.chip.pack a).closing = some (s.chip.ct a).time)) ∧
      (s.chip.mayClose a = false → Does (.portClose a) s s.chip) ∧
      (4 ≤ s.chip.packState a → s.chip.packState a ≤ 7 → s.chip.rd (Reg.BcSlot.BC_MODE a) ≠ 1 →
        Runs (.portOpen a) s (fun t => t.chip.rd (Reg.Idb.PACK_EN_OUT a) = 0 ∧
          t.chip.packState a = if s.chip.packState a = 7 then 7 else 4)) ∧
      (3 ≤ s.chip.packState a → s.chip.rd (Reg.BcSlot.BC_MODE a) ≠ 1 →
        Runs (.packDetach a) s (fun t => t.chip.rd (Reg.Idb.PACK_EN_OUT a) = 0 ∧ t.chip.packState a = 7)) ∧
      (s.chip.packState a = 6 → s.chip.rd (Reg.BcSlot.BC_MODE a) = 1 →
        Runs (.portOpen a) s (fun t => t.chip.regs = s.chip.regs ∧ (t.chip.pack a).openAsked = 1) ∧
        Runs (.packDetach a) s (fun t => t.chip.regs = s.chip.regs ∧ (t.chip.pack a).openAsked = 2)) ∧
      (s.chip.idFree a = true → Runs (.readIds a) s (fun t => t.chip.rd (Reg.Idb.PACK_READ_OK a) = 0 ∧
        t.chip.rd (Reg.Idb.STAGE_READ_OK a) = 0 ∧ (t.chip.pack a).job = some (.read (!(s.chip.pack a).debounced) true 0 false))) ∧
      (s.chip.idFree a = true → (s.chip.pack a).debounced = true → Runs (.summaryWrite a) s (fun t =>
        ∃ k img, (t.chip.pack a).job = some (.summary k img false) ∧ k < 2)) ∧
      (s.chip.idFree a = true → Runs (.calWrite a) s (fun t => ∃ k, (t.chip.pack a).job = some (.cal k false) ∧
        (s.chip.rd (Reg.Idb.CAL_COPY_VALID a) = 1 → k ≠ s.chip.rd (Reg.Idb.CAL_COPY a)) ∧ t.chip.regs = s.chip.regs)) ∧
      (s.chip.idFree a = false → (∀ i ∈ [Instr.readIds a, .calWrite a, .packUnfence a], Does i s s.chip) ∧
        Does (.summaryWrite a) s (if (s.chip.pack a).debounced then s.chip.set (Reg.Idb.WRITE_FAILED a) else s.chip))) ∧
    (∀ (a : CellAddr) (s : State), s.chip.cellIsS a = true → ∀ i ∈ [Instr.packAccept a, .packRefuse a, .packFence a, .packUnfence a,
      .portClose a, .portOpen a, .packDetach a, .readIds a, .summaryWrite a, .calWrite a], Does i s s.chip)) ∧
  ((∀ (a : CellAddr) (dt : Nat) (s : State), (s.chip.can a).queue = [] → Does (.profileDecode a dt) s (s.chip.cellAdvance a dt)) ∧
    (∀ (a : CellAddr) (dt : Nat) (f : CanFrame) (rest : List CanFrame) (s : State), (s.chip.can a).queue = f :: rest →
      (s.chip.pack a).nSignals = 0 →
      Runs (.profileDecode a dt) s (fun t => (t.chip.can a).queue = rest ∧ (t.chip.pack a).targets = (s.chip.pack a).targets)) ∧
    (∀ (a : CellAddr) (dt : Nat) (k : Fin 14) (x : TargetSt) (s : State), findKey k.val (s.chip.pack a).targets = some x →
      (x.at0 + x.timeout < ((s.chip.cellAdvance a dt).ct a).time → Runs (.profileTargetStale a dt k) s (fun t =>
        t.chip.target a k.val = none ∧ findKey k.val (t.chip.pack a).targets = none ∧ t.chip.regs = s.chip.regs)) ∧
      (((s.chip.cellAdvance a dt).ct a).time ≤ x.at0 + x.timeout → Does (.profileTargetStale a dt k) s (s.chip.cellAdvance a dt))) ∧
    (∀ (a : CellAddr) (dt t0 : Nat) (s : State), (s.chip.pack a).fenceSince = some t0 →
      t0 + bits ((s.chip.pack a).profWord 0 1) 8 8 * 25600000000 ≤ ((s.chip.cellAdvance a dt).ct a).time →
      Runs (.bmsFenceDebounce a dt) s (fun t => (t.chip.pack a).bmsFence = true ∧ t.chip.regs = s.chip.regs)) ∧
    (∀ (a : CellAddr) (dt : Nat) (k : Fin 2) (s : State), (s.chip.pack a).profWord (1 + k) 0 % 2 ^ 30 ≠ 0 →
      s.chip.rd (Reg.Can.CAN_STATE a) ≠ 0 → ((s.chip.can a).buf k).isSome = true →
      Runs (.profileTxDue a dt k) s (fun t => t.chip.rd (Reg.Can.TX_SKIPPED_SEEN a) = 1 ∧ t.chip.cans = s.chip.cans ∧
        t.chip.rd (Reg.Can.TX_SKIPPED a) = (s.chip.rd (Reg.Can.TX_SKIPPED a) + 1) % 2 ^ (Reg.Can.TX_SKIPPED a).width)) ∧
    (∀ (a : CellAddr) (dt : Nat) (s : State),
      ((s.chip.pack a).loaded = true → Runs (.bmsMirrorDue a dt) s (fun t => ∃ r, (t.chip.cmd a).bulkQ = (s.chip.cmd a).bulkQ ++ [r] ∧
        r.typ = 3 ∧ r.payload.length = 24 ∧ r.seq = (s.chip.cmd a).recSeq)) ∧
      ((s.chip.pack a).loaded = false → Does (.bmsMirrorDue a dt) s (s.chip.cellAdvance a dt))) ∧
    (∀ (dt : Nat) (b : List Byte) (a : Nat) (r : BulkRec) (s : State), s.chip.bulkIn (b.map BitVec.toNat) 3 = some (a, r) →
      ((s.chip.posn a).bulkAck = some r.seq → Runs (.bulkBmsMirrorRx dt b) s (fun t => t.chip.pols = s.chip.pols)) ∧
      ((s.chip.posn a).bulkAck ≠ some r.seq → (s.chip.xch a).bmsFrom = none → (s.chip.xch a).closing = false →
        Runs (.bulkBmsMirrorRx dt b) s (fun t => (t.chip.posn a).bulkAck = some r.seq ∧ (t.chip.xch a).flags = leAt r.payload 20 2 ∧
          ∃ m, (t.chip.pol a).bms = some m ∧ m.flags = leAt r.payload 20 2 ∧
            (leAt r.payload 0 2 ≠ 0xFFFF → m.soc = some (leAt r.payload 0 2)) ∧ (leAt r.payload 0 2 = 0xFFFF → m.soc = none)))))

/-- R253, R255, R256, R270. What the identity bus does: a record that reads well enters the buffer and ends its read; one with a bad CRC is read once
more; a memory that does not acknowledge is tried three times; a summary or calibration copy that reads back stands in its place and is current, one
that does not is retried once and then flagged; a held bus is at fault until it is freed. A buffer word is read and written at REC_IDX, a profile word
at PROF_IDX, both of which move on. Where a clause goes beyond the words of the rules it is the model's choice: log entry 34. -/
def Obligations.IdentityBus : Prop :=
  (∀ (a : CellAddr) (b : List Byte) (tries : Nat) (s : State), (s.chip.pack a).job = some (.read true false tries true) →
    (s.chip.posn a).admState < 5 → s.chip.packState a ≠ 2 →
    Runs (.idRecordReadDone a b) s (fun t => (t.chip.pack a).stageRec = b.map BitVec.toNat ∧ (t.chip.pack a).job = none ∧
      t.chip.rd (Reg.Idb.STAGE_READ_OK a) = bit (crcOk (b.map BitVec.toNat) 0 64))) ∧
  (∀ (a : CellAddr) (b : List Byte) (stage both : Bool) (tries : Nat) (s : State),
    (s.chip.pack a).job = some (.read stage both tries false) → crcOk (b.map BitVec.toNat) 0 (if stage then 64 else 128) = false →
    Runs (.idRecordReadDone a b) s (fun t => (t.chip.pack a).job = some (.read stage both tries true) ∧ t.chip.regs = s.chip.regs)) ∧
  (∀ (a : CellAddr) (stage both again : Bool) (tries : Nat) (s : State), (s.chip.pack a).job = some (.read stage both tries again) →
    tries < 3 →
    Runs (.idNackRetry a) s (fun t => (t.chip.pack a).job = some (.read stage both (tries + 1) again) ∧
      t.chip.rd (Reg.Idb.ID_NACK_COUNT a) = (s.chip.rd (Reg.Idb.ID_NACK_COUNT a) + 1) % 2 ^ (Reg.Idb.ID_NACK_COUNT a).width)) ∧
  (∀ (a : CellAddr) (k : Nat) (img : List Nat) (retried : Bool) (s : State), (s.chip.pack a).job = some (.summary k img retried) →
    Runs (.summaryWriteDone a true) s (fun t =>
      t.chip.rd (Reg.Idb.SUMMARY_WRITES a) = (s.chip.rd (Reg.Idb.SUMMARY_WRITES a) + 1) % 2 ^ (Reg.Idb.SUMMARY_WRITES a).width ∧
      (t.chip.pack a).packRec = patch (s.chip.pack a).packRec (128 + 64 * k) img ∧
      ((s.chip.xch a).state = 2 → (t.chip.xch a).state = 3)) ∧
    (retried = false → Runs (.summaryWriteDone a false) s (fun t => (t.chip.pack a).job = some (.summary k img true))) ∧
    (retried = true → Runs (.summaryWriteDone a false) s (fun t => t.chip.rd (Reg.Idb.WRITE_FAILED a) = 1 ∧
      (t.chip.pack a).packRec = (s.chip.pack a).packRec))) ∧
  (∀ (a : CellAddr) (k : Nat) (retried : Bool) (s : State), (s.chip.pack a).job = some (.cal k retried) → k < 2 →
    Runs (.calCopyWriteDone a true) s (fun t => t.chip.rd (Reg.Idb.CAL_COPY_VALID a) = 1 ∧ t.chip.rd (Reg.Idb.CAL_COPY a) = k) ∧
    (retried = false → Runs (.calCopyWriteDone a false) s (fun t => (t.chip.pack a).job = some (.cal k true))) ∧
    (retried = true → Runs (.calCopyWriteDone a false) s (fun t => t.chip.rd (Reg.Idb.WRITE_FAILED a) = 1))) ∧
  (∀ (a : CellAddr) (s : State),
    Runs (.idBusHeld a true) s (fun t => OnlyFields [Reg.Idb.ID_RECOVER_COUNT a] s t ∧
      t.chip.rd (Reg.Idb.ID_RECOVER_COUNT a) = (s.chip.rd (Reg.Idb.ID_RECOVER_COUNT a) + 1) % 2 ^ (Reg.Idb.ID_RECOVER_COUNT a).width) ∧
    Runs (.idBusHeld a false) s (fun t => (t.chip.pack a).busHeld = true ∧ t.chip.rd (Reg.Idb.ID_BUS_FAULT a) = 1 ∧
      t.chip.rd (Reg.Idb.BUS_FAULT_SEEN a) = 1) ∧
    ((s.chip.pack a).busHeld = true → Runs (.idBusRetry a true) s (fun t => (t.chip.pack a).busHeld = false ∧
      t.chip.rd (Reg.Idb.ID_BUS_FAULT a) = 0)) ∧
    Does (.idBusRetry a false) s s.chip) ∧
  (∀ (a : CellAddr) (w : Word) (s : State), s.chip.cellIsS a = false →
    let i := s.chip.rd (Reg.Idb.REC_IDX a)
    let j := s.chip.rd (Reg.Idb.PROF_IDX a)
    Runs (.recDataAccess a none) s (fun t => (t.chip.cmd a).data = s.chip.recWord a ∧ (t.chip.cmd a).result = 1 ∧
      t.chip.rd (Reg.Idb.REC_IDX a) = (i + 1) % 2 ^ (Reg.Idb.REC_IDX a).width) ∧
    (s.chip.cellState a = 3 ∨ s.chip.cellState a = 8 → s.chip.rd (Reg.Idb.REC_SEL a) = 1 → 16 ≤ i → i < 56 →
      Runs (.recDataAccess a (some w)) s (fun t => (t.chip.cmd a).result = 1 ∧
        (t.chip.pack a).stageRec = patch (s.chip.pack a).stageRec (4 * i) (leBytes 4 w.toNat))) ∧
    (s.chip.rd (Reg.Idb.REC_SEL a) = 0 ∨ i < 16 ∨ 56 ≤ i → Runs (.recDataAccess a (some w)) s (fun t => (t.chip.cmd a).result = 2 ∧
      t.chip.packs = s.chip.packs ∧ t.chip.regs = s.chip.regs)) ∧
    Runs (.profDataAccess a none) s (fun t => (t.chip.cmd a).data = mapGet 0 (s.chip.pack a).profile j ∧
      t.chip.rd (Reg.Idb.PROF_IDX a) = (j + 1) % 2 ^ (Reg.Idb.PROF_IDX a).width) ∧
    (s.chip.packState a ≤ 3 → Runs (.profDataAccess a (some w)) s (fun t => mapGet 0 (t.chip.pack a).profile j = w.toNat ∧
      t.chip.rd (Reg.Can.CAN_STATE a) = 0 ∧ (t.chip.cmd a).result = 1)) ∧
    (3 < s.chip.packState a → Runs (.profDataAccess a (some w)) s (fun t => (t.chip.cmd a).result = 2 ∧ t.chip.packs = s.chip.packs)))

/-- R257, R266, R267, R268. An exchange ordered by a MAINT port starts in RAMPING, or in AWAIT_PACK where no pack is in place, for a populated cell on a
rope that has none, while fewer than 16 run; it goes on to DETACHING after ten reports of a low current, can be aborted up to AWAIT_PACK, and ends in
TIMEOUT. A pack whose BMS does not tell its state of charge in time is refused. Where a clause goes beyond the words of the rules it is the model's
choice: log entry 43. -/
def Obligations.Exchanges : Prop :=
  (∀ (p : PortIx) (s : State), let a := s.chip.rd (Reg.Xchg.XCHG_CELL p)
    s.chip.has p .maint = true → a % 64 < s.chip.population (a / 64) → s.chip.isSensor a = false →
    s.chip.packState a ≠ 1 → s.chip.packState a ≠ 2 → s.chip.packState a ≠ 5 →
    ((∀ e ∈ s.chip.xchs, xchgRuns e.2.state = false) → s.chip.twoHandOk 0 = true →
      Runs (.xchgGo p) s (fun t => t.chip.rd (Reg.Xchg.XCHG_RESULT p) = 1 ∧ (t.chip.xch a).port = p.val ∧
        (t.chip.xch a).state = (if s.chip.packState a = 0 then 4 else 1) ∧ (t.chip.xch a).at0 = s.chip.runNs ∧
        t.chip.faults = s.chip.faults ∧ t.chip.ropes = s.chip.ropes)) ∧
    ((∃ e ∈ s.chip.xchs, xchgRuns e.2.state = true ∧ e.1 / 64 = a / 64) →
      Runs (.xchgGo p) s (fun t => t.chip.rd (Reg.Xchg.XCHG_RESULT p) = 4 ∧ t.chip.xchs = s.chip.xchs)) ∧
    ((∀ e ∈ s.chip.xchs, xchgRuns e.2.state = false) → s.chip.twoHandOk 0 = false →
      Runs (.xchgGo p) s (fun t => t.chip.rd (Reg.Xchg.XCHG_RESULT p) = 5 ∧ t.chip.xchs = s.chip.xchs))) ∧
  (∀ (p : PortIx) (s : State), s.chip.has p .maint = false → ∀ i ∈ [Instr.xchgGo p, .xchgAbort p], Runs i s (fun t =>
    t.chip.rd (Reg.Xchg.XCHG_RESULT p) = 3 ∧ t.chip.xchs = s.chip.xchs)) ∧
  (∀ (a : CellAddr) (s : State), (s.chip.xch a).state = 1 →
    (10 ≤ (s.chip.xch a).low → Runs (.xchgRampDone a) s (fun t => (t.chip.xch a).state = 2 ∧
      ∃ q, (t.chip.rope (a.val / 64)).mgmtOut = (s.chip.rope (a.val / 64)).mgmtOut ++ [q] ∧ q.reg = 0xD1 ∧ q.data = 2 ^ 9)) ∧
    ((s.chip.xch a).low < 10 → Does (.xchgRampDone a) s s.chip)) ∧
  (∀ (p : PortIx) (s : State), let a := s.chip.rd (Reg.Xchg.XCHG_CELL p)
    s.chip.has p .maint = true →
    (1 ≤ (s.chip.xch a).state → (s.chip.xch a).state ≤ 4 → Runs (.xchgAbort p) s (fun t => (t.chip.xch a).state = 10 ∧
      t.chip.rd (Reg.Xchg.XCHG_RESULT p) = 1)) ∧
    ((s.chip.xch a).state = 0 ∨ 4 < (s.chip.xch a).state → Runs (.xchgAbort p) s (fun t =>
      t.chip.rd (Reg.Xchg.XCHG_RESULT p) = 2 ∧ OnlyFields [Reg.Xchg.XCHG_RESULT p] s t))) ∧
  (∀ (a : CellAddr) (dt : Nat) (s : State), (s.chip.xch a).state = 3 ∨ (s.chip.xch a).state = 4 →
    (s.chip.xch a).at0 + s.chip.card.pack.xchgTimeout * 1000000000 ≤ (s.chip.advance dt).runNs →
    Runs (.xchgTimeout a dt) s (fun t => (t.chip.xch a).state = 9)) ∧
  (∀ (a : CellAddr) (dt t0 : Nat) (s : State), (s.chip.xch a).bmsFrom = some t0 →
    t0 + s.chip.card.pack.bmsWait * 1000000 ≤ (s.chip.advance dt).runNs →
    Runs (.bmsWaitTimeout a dt) s (fun t => (t.chip.xch a).bmsFrom = none ∧ (t.chip.xch a).accepted = false ∧
      (t.chip.pol a).admitted = false ∧ ∃ m, t.chip.faults.arrivals = s.chip.faults.arrivals ++ [m] ∧ m.level = 1 ∧ m.source = a.val ∧
        m.kind = 0x0F ∧ m.detail = 7))

/-- R278, R279, R281, R284, R285, R288. A request for a commit in a cell that has the time writes the next row, with the event of its cause: POWER_FAIL on
the early warning, PACK_CLOSE in DETACH_READY, COMMAND elsewhere, PERIODIC on a multiple of COMMIT_PERIOD; while a commit runs the request is merged;
a cell without the time commits nothing. A committed row stands in the ring, its index is the head and it leaves as a bulk record; a phase that does
not read back is retried once and then leaves the head as it was, flagged. ROW_FETCH shows the row of ROW_SEL, or why there is none; a LEDGER port has
a row of an admitted cell fetched through the management slot, once at a time; a new ledger record is counted for every port and acknowledged. Where a
clause goes beyond the words of the rules it is the model's choice: log entries 2, 33. -/
def Obligations.LedgerRows : Prop :=
  ((∀ (a : CellAddr) (dt : Nat) (s : State), s.chip.cellIsS a = false → (s.chip.ct a).timeValid = true → (s.chip.ledger a).commit = none →
      Runs (.vdd33EarlyWarning a dt) s (fun t => ∃ m, (t.chip.ledger a).commit = some m ∧ m.event = 4 ∧ m.retried = false ∧
        m.index = ((s.chip.ledger a).head.map (fun h => (h.index + 1) % 240)).getD 0 ∧
        m.seq = ((s.chip.ledger a).head.map (fun h => (h.seq + 1) % 2 ^ 28)).getD 0 ∧
        t.chip.rd (Reg.Ring.COMMIT_BUSY a) = 1 ∧ OnlyFields [Reg.Ring.COMMIT_BUSY a] s
          { t with chip := { t.chip with ledgers := s.chip.ledgers, ctime := s.chip.ctime } })) ∧
    (∀ (a : CellAddr) (s : State), s.chip.cellIsS a = false → (s.chip.ct a).timeValid = true → (s.chip.ledger a).commit = none →
      Runs (.ledgerCommit a) s (fun t => ∃ m, (t.chip.ledger a).commit = some m ∧
        m.event = if s.chip.packState a = 7 then 2 else 3)) ∧
    (∀ (a : CellAddr) (m : Commit) (s : State), s.chip.cellIsS a = false → (s.chip.ct a).timeValid = true →
      (s.chip.ledger a).commit = some m → s.chip.packState a ≠ 7 →
      Runs (.ledgerCommit a) s (fun t => (t.chip.ledger a).commit = some m ∧ (t.chip.ledger a).merged = (s.chip.ledger a).merged ++ [3] ∧
        t.chip.regs = s.chip.regs)) ∧
    (∀ (a : CellAddr) (dt : Nat) (s : State), s.chip.cellIsS a = true ∨ (s.chip.ct a).timeValid = false →
      Does (.ledgerCommit a) s s.chip ∧ Does (.vdd33EarlyWarning a dt) s (s.chip.cellAdvance a dt) ∧
      Does (.ledgerPeriodic a dt) s (s.chip.cellAdvance a dt)) ∧
    (∀ (a : CellAddr) (dt : Nat) (u : Nat × Nat) (s : State), s.chip.cellIsS a = false → (s.chip.ct a).timeValid = true →
      (s.chip.ledger a).commit = none → (s.chip.ledger a).openUid = some u → s.chip.rd (Reg.Ring.COMMIT_PERIOD a) ≠ 0 →
      (s.chip.cellAdvance a dt).cellSeconds a % s.chip.rd (Reg.Ring.COMMIT_PERIOD a) = 0 →
      Runs (.ledgerPeriodic a dt) s (fun t => ∃ m, (t.chip.ledger a).commit = some m ∧ (m.event = 0 ∨ m.event = 8) ∧ m.uid = u.1)) ∧
    (∀ (a : CellAddr) (m : Commit) (s : State), (s.chip.ledger a).commit = some m → (s.chip.ledger a).merged = [] →
      (m.event ≠ 8 → m.index < 240 → Runs (.ledgerCommitDone a true true) s (fun t => (t.chip.ledger a).commit = none ∧
        t.chip.rd (Reg.Ring.RING_HEAD a) = m.index ∧ t.chip.rd (Reg.Ring.COMMIT_BUSY a) = 0 ∧
        mapGet ([], 0) (t.chip.ledger a).ring m.index = (m.row, m.uid) ∧ (t.chip.ledger a).head = some ⟨m.seq, m.index⟩ ∧
        t.chip.rd (Reg.Ring.PACK_OPEN a) = bit (tenureAfter (s.chip.ledger a).openUid m).isSome ∧
        (s.chip.bulkHeld a 2 < 16 → (t.chip.cmd a).bulkQ.length = (s.chip.cmd a).bulkQ.length + 1))) ∧
      (m.retried = false → ∀ phase2, Runs (.ledgerCommitDone a phase2 false) s (fun t =>
        (t.chip.ledger a).commit = some { m with retried := true } ∧ t.chip.regs = s.chip.regs)) ∧
      (m.retried = true → ∀ phase2, Runs (.ledgerCommitDone a phase2 false) s (fun t => (t.chip.ledger a).commit = none ∧
        t.chip.rd (Reg.Ring.COMMIT_FAILED a) = 1 ∧ (t.chip.ledger a).head = (s.chip.ledger a).head ∧
        (t.chip.ledger a).ring = (s.chip.ledger a).ring))) ∧
    (∀ (a : CellAddr) (s : State), (s.chip.ledger a).commit = none → 4 ∉ (s.chip.ledger a).merged →
      Runs (.vdd33WarningClear a) s (fun t => (t.chip.ledger a).pfPending = false ∧ (t.chip.ledger a).ring = (s.chip.ledger a).ring ∧
        t.chip.regs = s.chip.regs))) ∧
  ((∀ (a : CellAddr) (s : State), s.chip.cellIsS a = false →
      Runs (.rowFetch a false) s (fun t => t.chip.rd (Reg.Ring.ROW_RESULT a) = 4 ∧ OnlyFields [Reg.Ring.ROW_RESULT a] s t) ∧
      ((s.chip.ledger a).head = none → Runs (.rowFetch a true) s (fun t => t.chip.rd (Reg.Ring.ROW_RESULT a) = 3)) ∧
      (∀ (row : List Nat) (uid : Nat), (s.chip.ledger a).lookup (s.chip.rd (Reg.Ring.ROW_SEL a)) = (1, row, uid) →
        Runs (.rowFetch a true) s (fun t => t.chip.rd (Reg.Ring.ROW_RESULT a) = 1 ∧
          ∀ j < 8, t.chip.rd (Reg.Ring.ROW_W a j) = leAt row (4 * j) 4 % 2 ^ 32))) ∧
    (∀ (a : CellAddr) (ok : Bool) (s : State), s.chip.cellIsS a = true → Does (.rowFetch a ok) s s.chip) ∧
    (∀ (p : PortIx) (s : State), let a := s.chip.rd (Reg.Ledg.LEDGER_CELL p)
      s.chip.has p .ledger = true → s.chip.rd (Reg.Ledg.LEDGER_RESULT p) ≠ 1 →
      (a % 64 < s.chip.population (a / 64) → s.chip.isSensor a = false → (s.chip.posn a).admState = 6 →
        Runs (.ledgerGo p) s (fun t => t.chip.rd (Reg.Ledg.LEDGER_RESULT p) = 1 ∧ findKey p.val t.chip.fetches = some ⟨a, []⟩ ∧
          (t.chip.rope (a / 64)).mgmtOut.length = (s.chip.rope (a / 64)).mgmtOut.length +
            if s.chip.rd (Reg.Ledg.LEDGER_SEQ p) = 0xFFFFFFFF then 1 else 11)) ∧
      (s.chip.population (a / 64) ≤ a % 64 ∨ s.chip.isSensor a = true ∨ (s.chip.posn a).admState ≠ 6 →
        Runs (.ledgerGo p) s (fun t => t.chip.rd (Reg.Ledg.LEDGER_RESULT p) = 7 ∧ t.chip.ropes = s.chip.ropes))) ∧
    (∀ (p : PortIx) (s : State),
      (s.chip.has p .ledger = true → s.chip.rd (Reg.Ledg.LEDGER_RESULT p) = 1 → Runs (.ledgerGo p) s (fun t =>
        t.chip.rd (Reg.Ledg.LEDGER_RESULT p) = 5 ∧ t.chip.ropes = s.chip.ropes ∧ t.chip.fetches = s.chip.fetches)) ∧
      (s.chip.has p .ledger = false → Runs (.ledgerGo p) s (fun t => t.chip.rd (Reg.Ledg.LEDGER_RESULT p) = 6 ∧
        t.chip.ropes = s.chip.ropes))) ∧
    (∀ (dt : Nat) (b : List Byte) (a : Nat) (r : BulkRec) (s : State), s.chip.bulkIn (b.map BitVec.toNat) 2 = some (a, r) →
      Runs (.bulkLedgerRowRx dt b) s (fun t => (t.chip.posn a).bulkAck = some r.seq ∧
        ∀ p < 4, t.chip.rd (Reg.Ledg.LEDGER_ROWS p) = if (s.chip.posn a).bulkAck = some r.seq then s.chip.rd (Reg.Ledg.LEDGER_ROWS p)
          else (s.chip.rd (Reg.Ledg.LEDGER_ROWS p) + 1) % 2 ^ (Reg.Ledg.LEDGER_ROWS p).width)))

/-- R292, R294, R295. A frame that the filter accepts joins the receive queue while it has room, stamped with the start of frame; the consumer releases
the head; a buffer set pending goes out, and its success frees it; an abort ends a buffer that is not being sent. Where a clause goes beyond the words
of the rules it is the model's choice: log entries 14, 40. -/
def Obligations.CanFramesFlow : Prop :=
  (∀ (dt : Nat) (b : BusIx) (f : BusFrame) (s : State),
    let n := busNum b
    let c := s.chip.busAdvance n dt
    let fr : CanFrame := ⟨f.id, f.ext, f.fdf, f.brs, f.esi, f.remote, f.data.take 64, c.busNow n % 2 ^ 32⟩
    c.busLive n = true → f.remote = false → (f.fdf = true → c.rd (Reg.Can.DATA_RATE n) ≠ 0) → c.canAccepts n fr = true →
    (s.chip.can n).queue.length < 16 →
    Runs (.canFrameRx dt b f) s (fun t => (t.chip.can n).queue = (s.chip.can n).queue ++ [fr])) ∧
  (∀ (b : BusIx) (s : State), Runs (.rxAck b) s (fun t => (t.chip.can (busNum b)).queue = (s.chip.can (busNum b)).queue.drop 1 ∧
    ∀ m, m ≠ busNum b → t.chip.can m = s.chip.can m)) ∧
  (∀ (dt : Nat) (x : BusIx) (b : Fin 3) (tdc : Option Nat) (t0 : TxBuf) (s : State),
    (s.chip.can (busNum x)).buf b = some t0 → (s.chip.busAdvance (busNum x) dt).busLive (busNum x) = true →
    s.chip.on (Reg.Can.LISTEN_ONLY (busNum x)) = false →
    Runs (.canTxDone dt x b .success tdc) s (fun t => (t.chip.can (busNum x)).buf b = none ∧ t.chip.rd (txResult (busNum x) b) = 3)) ∧
  (∀ (p : PortIx) (k : Fin 2) (s : State), s.chip.has p .order = true ∨ s.chip.has p .maint = true →
    (s.chip.can (16384 + k)).buf2 = none → s.chip.rd (Reg.Can.CAN_STATE (16384 + k)) = 1 →
    Runs (.tx2Go (some p) (.station k)) s (fun t => t.chip.rd (Reg.Can.TX2_RESULT (16384 + k)) = 1 ∧
      (t.chip.can (16384 + k)).buf2 = some ⟨s.chip.tx2Frame (16384 + k), false, false, none⟩)) ∧
  (∀ (a : CellAddr) (p : Option PortIx) (s : State), (s.chip.can a).buf2 = none → s.chip.rd (Reg.Can.CAN_STATE a) = 1 →
    Runs (.tx2Go p (.cell a)) s (fun t => t.chip.rd (Reg.Can.TX2_RESULT a) = 1 ∧
      (t.chip.can a).buf2 = some ⟨s.chip.tx2Frame a, s.chip.on (Reg.Can.TX2_ONE_SHOT a), false, none⟩)) ∧
  (∀ (p : PortIx) (k : Fin 2) (s : State), s.chip.has p .order = true ∨ s.chip.has p .maint = true →
    (s.chip.can (16384 + k)).buf2.isSome = true → s.chip.rd (Reg.Can.TX2_RESULT (16384 + k)) ≠ 2 →
    Runs (.tx2Abort (some p) (.station k)) s (fun t => t.chip.rd (Reg.Can.TX2_RESULT (16384 + k)) = 4 ∧
      (t.chip.can (16384 + k)).buf2 = none)) ∧
  (∀ (a : CellAddr) (p : Option PortIx) (s : State), (s.chip.can a).buf2.isSome = true → s.chip.rd (Reg.Can.TX2_RESULT a) ≠ 2 →
    Runs (.tx2Abort p (.cell a)) s (fun t => t.chip.rd (Reg.Can.TX2_RESULT a) = 4 ∧ (t.chip.can a).buf2 = none))

/-- R291, R295, R296, R297, R298, R299, R300, R302, R303. Errors count by the role of the node; a buffer with sixteen bit errors at one position ends as a
clash; an unacknowledged node counts as alone after 500 ms, and then makes paced attempts; a station queue whose head stays owned is reported. A pack
bus is configured only OFFLINE and within range; an idle bus lets the controller join; a restart is taken in BUS_OFF, by the cell, by the station
channel's host and by itself after the delay; recovery ends ERROR_ACTIVE with both counters 0. Where a clause goes beyond the words of the rules it is
the model's choice: log entries 2, 40. -/
def Obligations.CanErrorsAndRestarts : Prop :=
  ((∀ (dt : Nat) (x : BusIx) (kind : Fin 8) (dp heavy : Bool) (s : State), (s.chip.busAdvance (busNum x) dt).busLive (busNum x) = true →
      Runs (.canBusError dt x kind dp (.receiver heavy)) s (fun t =>
        (t.chip.can (busNum x)).rec0 = (s.chip.can (busNum x)).rec0 + (if heavy then 8 else 1) ∧
        t.chip.rd (Reg.Can.LAST_ERR (busNum x)) = kind)) ∧
    (∀ (dt : Nat) (x : BusIx) (kind : Fin 8) (dp : Bool) (b : Fin 3) (pos : Option Nat) (s : State),
      (s.chip.busAdvance (busNum x) dt).busLive (busNum x) = true → kind ≠ 3 →
      Runs (.canBusError dt x kind dp (.transmitter b pos false)) s (fun t =>
        (t.chip.can (busNum x)).tec = (s.chip.can (busNum x)).tec + 8 ∧ t.chip.rd (Reg.Can.LAST_ERR (busNum x)) = kind)) ∧
    (∀ (x : BusIx) (b : Fin 3) (t0 : TxBuf) (pos k : Nat) (s : State), (s.chip.can (busNum x)).buf b = some t0 → t0.clash = some (pos, k) →
      16 ≤ k →
      Runs (.identClash x b) s (fun t => (t.chip.can (busNum x)).buf b = none ∧ t.chip.rd (txResult (busNum x) b) = 6 ∧
        t.chip.rd (Reg.Can.IDENT_CLASH (busNum x)) = 1 ∧ t.chip.rd (Reg.Can.CLASH_POS (busNum x)) = pos % 512)) ∧
    (∀ (dt : Nat) (x : BusIx) (t0 : Nat) (s : State), (s.chip.can (busNum x)).aloneFrom = some t0 →
      (s.chip.busAdvance (busNum x) dt).busLive (busNum x) = true → s.chip.on (Reg.Can.BUS_ALONE (busNum x)) = false →
      t0 + 500000000 ≤ (s.chip.busAdvance (busNum x) dt).busRun (busNum x) →
      Runs (.busAlone dt x) s (fun t => t.chip.rd (Reg.Can.BUS_ALONE (busNum x)) = 1 ∧ t.chip.rd (Reg.Can.ALONE_SEEN (busNum x)) = 1)) ∧
    (∀ (x : BusIx) (s : State), s.chip.on (Reg.Can.BUS_ALONE (busNum x)) = true →
      Runs (.busAloneAttempt x) s (fun t => (t.chip.can (busNum x)).paced = true ∧ t.chip.regs = s.chip.regs)) ∧
    (∀ (dt : Nat) (k : Fin 2) (t0 : Nat) (q : List Nat) (s : State), (s.chip.can (16384 + k)).queueAt = t0 :: q →
      t0 + s.chip.card.can.rxStall * 1000000 < (s.chip.advance dt).runNs →
      Runs (.canRxStall dt (.station k)) s (fun t => ∃ m ∈ t.chip.faults.arrivals, m.level = 6 ∧ m.source = 0x40 + k ∧ m.kind = 0xA4 ∧
        m.detail = 4))) ∧
  ((∀ (a : CellAddr) (v : Word) (s : State), s.chip.cellIsS a = false → s.chip.rd (Reg.Can.CAN_STATE a) = 0 → 1 ≤ bits v.toNat 0 3 →
      bits v.toNat 0 3 ≤ 4 → bits v.toNat 3 3 ≤ 4 → s.chip.rd (Reg.Idb.PACK_STATE a) = 0 →
      Runs (.canCfgWrite a v) s (fun t => t.chip.rd (Reg.Can.ARB_RATE a) = bits v.toNat 0 3 ∧ t.chip.rd (Reg.Can.DATA_RATE a) = bits v.toNat 3 3 ∧
        t.chip.rd (Reg.Can.TX_ORDER a) = bits v.toNat 6 1 ∧ t.chip.rd (Reg.Can.LISTEN_ONLY a) = bits v.toNat 7 1 ∧
        OnlyFields [Reg.Can.ARB_RATE a, Reg.Can.DATA_RATE a, Reg.Can.TX_ORDER a, Reg.Can.LISTEN_ONLY a] s t)) ∧
    (∀ (x : BusIx) (s : State), Runs (.canBusIdleSeen x) s (fun t =>
      t.chip.can (busNum x) = { s.chip.can (busNum x) with joining := false } ∧ t.chip.regs = s.chip.regs)) ∧
    (∀ (a : CellAddr) (s : State), s.chip.rd (Reg.Can.CAN_STATE a) = 3 → s.chip.on (Reg.Can.RECOVERING a) = false →
      Runs (.canRestart a) s (fun t => t.chip.rd (Reg.Can.RECOVERING a) = 1 ∧ OnlyFields [Reg.Can.RECOVERING a] s t)) ∧
    (∀ (p : PortIx) (k : Fin 2) (s : State), s.chip.has p .order = true ∨ s.chip.has p .maint = true →
      s.chip.rd (Reg.Can.CAN_STATE (16384 + k)) = 3 → s.chip.on (Reg.Can.RECOVERING (16384 + k)) = false →
      Runs (.channelRestartGo p k) s (fun t => t.chip.rd (Reg.Can.RECOVERING (16384 + k)) = 1 ∧ t.chip.rd (Reg.StCan.RESTART_RESULT k) = 1)) ∧
    (∀ (p : PortIx) (s : State), s.chip.has p .maint = true →
      s.chip.rd (Reg.CanRst.CELL_CAN_SEL p) % 64 < s.chip.population (s.chip.rd (Reg.CanRst.CELL_CAN_SEL p) / 64) →
      s.chip.isSensor (s.chip.rd (Reg.CanRst.CELL_CAN_SEL p)) = false → s.chip.rd (Reg.Can.CAN_STATE (s.chip.rd (Reg.CanRst.CELL_CAN_SEL p))) = 3 →
      s.chip.on (Reg.Can.RECOVERING (s.chip.rd (Reg.CanRst.CELL_CAN_SEL p))) = false →
      Runs (.cellCanRestart p) s (fun t => t.chip.rd (Reg.CanRst.CELL_CAN_RESULT p) = 1 ∧
        ∃ m ∈ (t.chip.rope (s.chip.rd (Reg.CanRst.CELL_CAN_SEL p) / 64)).mgmtOut, m.addr = s.chip.rd (Reg.CanRst.CELL_CAN_SEL p) ∧
          m.reg = 0xB3 ∧ m.data = 1)) ∧
    (∀ (dt : Nat) (k : Fin 2) (t0 : Nat) (s : State), s.chip.rd (Reg.Can.CAN_STATE (16384 + k)) = 3 →
      s.chip.on (Reg.Can.RECOVERING (16384 + k)) = false → (s.chip.can (16384 + k)).busOffAt = some t0 →
      t0 + s.chip.card.can.restartDelay * 1000000000 ≤ (s.chip.advance dt).runNs → (s.chip.can (16384 + k)).restarts = [] →
      1 ≤ s.chip.card.can.restartMax →
      Runs (.canAutoRestart dt (.station k)) s (fun t => t.chip.rd (Reg.Can.RECOVERING (16384 + k)) = 1 ∧
        t.chip.rd (Reg.StCan.AUTO_RESTARTS k) = 1)) ∧
    (∀ (dt : Nat) (a : CellAddr) (t0 : Nat) (s : State), s.chip.rd (Reg.Can.CAN_STATE a) = 3 → s.chip.on (Reg.Can.RECOVERING a) = false →
      (s.chip.can a).busOffAt = some t0 → t0 + s.chip.card.can.restartDelay * 1000000000 ≤ (s.chip.advance dt).busRun a →
      (s.chip.can a).restarts = [] → 1 ≤ s.chip.card.can.restartMax →
      Runs (.canAutoRestart dt (.cell a)) s (fun t => ∃ m ∈ (t.chip.rope (a / 64)).mgmtOut, m.addr = a ∧ m.reg = 0xB3 ∧ m.data = 1)) ∧
    (∀ (x : BusIx) (s : State), s.chip.on (Reg.Can.RECOVERING (busNum x)) = true →
      Runs (.canRecoveryDone x) s (fun t => t.chip.rd (Reg.Can.RECOVERING (busNum x)) = 0 ∧ t.chip.rd (Reg.Can.CAN_STATE (busNum x)) = 1 ∧
        t.chip.rd (Reg.Can.TEC (busNum x)) = 0 ∧ t.chip.rd (Reg.Can.REC (busNum x)) = 0)))

/-- R19, R20, R24, R316, R317, R318. At MODE_DECIDE a CHAIN rope in service whose reports since the last decision show no break stays CHAIN; with a break
it is SPLIT at the lowest break position. A SPLIT rope whose failed path has run clean for HEAL_HOLD is CHAIN again and the heal is counted; a rope
whose mode has changed more than four times within 10 s is DOWN, with its fence and a fault of severity 5. A host with MAINT rights takes a populated
rope out of service, unless that would cost a deblocked region its redundancy, and brings a DOWN rope back; both are noted for the next MODE_DECIDE
and change no mode themselves. Without the right they are refused. Where a clause goes beyond the words of the rules it is the model's choice: log
entry 25. -/
def Obligations.RopesRecover : Prop :=
  (∀ (dt : Nat) (g : RopeIx) (s : State), 0 < s.chip.population g → s.chip.mode g = 0 → (s.chip.rope g).goingDown ≠ 2 →
      s.chip.ridgeUp (homeOf g) = true → s.chip.ridgeUp (partnerOf (homeOf g)) = true → s.chip.on (linkReg (homeOf g / 2)) = true →
      (s.chip.breakPositions g = [] → Runs (.modeDecide dt) s (fun t => t.chip.mode g = 0 ∧ (t.chip.rope g).breaks = [])) ∧
      (s.chip.breakPositions g ≠ [] → Runs (.modeDecide dt) s (fun t => t.chip.mode g = 1 ∧ (t.chip.rope g).breaks = [] ∧
        t.chip.rd (Reg.Rope.BREAK_POS g) = (s.chip.breakPositions g).foldl min (s.chip.population g) % 2 ^ (Reg.Rope.BREAK_POS g).width))) ∧
  ((∀ (dt t0 : Nat) (g : RopeIx) (s : State), (s.chip.rope g).cleanSince = some t0 → s.chip.mode g = 1 ∨ s.chip.mode g = 2 →
      s.chip.breakPositions g = [] → s.chip.card.lanes.healHold * 1000000 ≤ (s.chip.advance dt).runNs - t0 →
      s.chip.ridgeUp (homeOf g) = true → s.chip.ridgeUp (partnerOf (homeOf g)) = true → s.chip.on (linkReg (homeOf g / 2)) = true →
      Runs (.ropeHeal dt g) s (fun t => t.chip.mode g = 0 ∧
        t.chip.rd Reg.Recov.HEAL_EVENTS = (s.chip.rd Reg.Recov.HEAL_EVENTS + 1) % 2 ^ (Reg.Recov.HEAL_EVENTS).width ∧
        t.chip.rd Reg.Recov.LAST_KIND = (if s.chip.mode g = 1 then 2 else 4) ∧ t.chip.rd Reg.Recov.LAST_ROPE = g.val)) ∧
    (∀ (dt : Nat) (g : RopeIx) (s : State), s.chip.mode g ≠ 3 → s.chip.recov.outputsBlocked = false →
      4 < ((s.chip.rope g).changes.filter (fun x => decide ((s.chip.advance dt).runNs - x < 10000000000))).length →
      Runs (.ropeUnstable dt g) s (fun t => t.chip.mode g = 3 ∧ t.chip.rd Reg.Recov.ROPE_DOWN_SEEN = 1 ∧
        t.chip.rd Reg.Recov.LAST_KIND = 7 ∧ g.val ∈ t.chip.faults.fencedRopes ∧
        ∃ m, t.chip.faults.arrivals = s.chip.faults.arrivals ++ [m] ∧ m.kind = 0x42 ∧ m.source = g.val ∧ m.minSev = 5))) ∧
  (∀ (p : PortIx) (s : State), let g := s.chip.rd (Reg.Recov.ROPE_SEL p)
      g < 256 →
      (s.chip.has p .maint = true → 0 < s.chip.population g → s.chip.mode g ≠ 3 → (s.chip.rope g).goingDown = 0 →
        s.chip.blocked (g / 32) = true →
        Runs (.ropeDownGo p) s (fun t => (t.chip.rope g).goingDown = 1 ∧ t.chip.rd (Reg.Recov.ROPE_RESULT p) = 1 ∧
          t.chip.mode g = s.chip.mode g)) ∧
      (s.chip.has p .maint = true → 0 < s.chip.population g → s.chip.mode g = 3 → (s.chip.rope g).comingUp = false →
        s.chip.underTest g = false → s.chip.ropeEntryHeld g = false →
        Runs (.ropeUpGo p) s (fun t => (t.chip.rope g).comingUp = true ∧ t.chip.rd (Reg.Recov.ROPE_RESULT p) = 1 ∧
          g ∉ t.chip.faults.fencedRopes)) ∧
      (s.chip.has p .maint = false → ∀ i ∈ [Instr.ropeDownGo p, .ropeUpGo p], Runs i s (fun t =>
        t.chip.rd (Reg.Recov.ROPE_RESULT p) = 3 ∧ t.chip.ropes = s.chip.ropes ∧
        t.chip.rd (Reg.Port.RIGHTS_REFUSED p) = (s.chip.rd (Reg.Port.RIGHTS_REFUSED p) + 1) % 2 ^ (Reg.Port.RIGHTS_REFUSED p).width)))

/-- R26, R319, R320, R321, R322, R323. A Ridge that fails is lost, with its fault and its lanes down; a host with MAINT rights restarts a lost Ridge that
is cool and whose partner is in service, and one that passes its test is in service again; a die-to-die link that is lost is out of service with its
fault, and one that comes up is in service unless it is fenced. A mismatch on the active control plane takes it out of service and blocks the outputs
until the spare takes over at the frame boundary, with the fault; on the spare it takes that out of service; a plane whose resynchronisation is done
is the spare again. Where a clause goes beyond the words of the rules it is the model's choice: log entry 25. -/
def Obligations.RidgesAndPlanesFailOver : Prop :=
  ((∀ (d : RidgeIx) (k : Fin 3) (s : State), s.chip.ridgeUp d = true → s.chip.recov.outputsBlocked = false →
      Runs (.ridgeFailure d k) s (fun t => t.chip.ridge d = 4 ∧ t.chip.rd Reg.Recov.TRAVERSE_SEEN = 1 ∧
        (∀ x ∈ s.chip.endsOf d, t.chip.rd (Reg.RLane.LANE_UP x.1 x.2) = 0) ∧
        t.chip.faults.arrivals = s.chip.faults.arrivals ++ [⟨4, d.val, 0x70, k.val, false, false, false, 0, s.chip.frame⟩])) ∧
    (∀ (p : PortIx) (s : State), let d := s.chip.rd (Reg.Recov.RIDGE_SEL p)
      (s.chip.has p .maint = true → s.chip.ridge d = 4 → s.chip.ridge (partnerOf d) ≠ 4 → mapGet 0 s.chip.recov.dieTemps d < 105 * 16 →
        findKey d s.chip.recov.restarting = none →
        Runs (.ridgeRestart p) s (fun t => t.chip.rd (Reg.Recov.RIDGE_RESULT p) = 1 ∧ findKey d t.chip.recov.restarting = some p.val)) ∧
      (s.chip.has p .maint = false → Runs (.ridgeRestart p) s (fun t => t.chip.rd (Reg.Recov.RIDGE_RESULT p) = 4 ∧
        t.chip.recov = s.chip.recov))) ∧
    (∀ (d : RidgeIx) (p : PortIx) (s : State), findKey d.val s.chip.recov.restarting = some p.val →
      Runs (.ridgeSelfTestDone d true) s (fun t => t.chip.ridgeUp d = true ∧ t.chip.rd (Reg.Recov.RIDGE_RESULT p) = 2 ∧
        findKey d.val t.chip.recov.restarting = none) ∧
      Runs (.ridgeSelfTestDone d false) s (fun t => t.chip.ridge d = s.chip.ridge d ∧ t.chip.rd (Reg.Recov.RIDGE_RESULT p) = 5)) ∧
    (∀ (k : Fin 2) (s : State), s.chip.on (linkReg k) = true → s.chip.recov.outputsBlocked = false →
      Runs (.dieToDieLinkLost k) s (fun t => t.chip.rd (linkReg k) = 0 ∧
        t.chip.faults.arrivals = s.chip.faults.arrivals ++ [⟨4, 0x10 + k.val, 0x71, 0, false, false, false, 0, s.chip.frame⟩])) ∧
    (∀ (k : Fin 2) (s : State), bits (s.chip.rd Reg.Flt.LINKS_FENCED) k 1 = 0 →
      Runs (.dieToDieLinkUp k) s (fun t => t.chip.rd (linkReg k) = 1 ∧ OnlyFields [linkReg k] s t))) ∧
  ((∀ (k : Fin 2) (s : State), s.chip.on (planeReg k) = true → s.chip.rd Reg.Die.ACTIVE_PLANE = k.val →
      Runs (.lockstepMismatch k) s (fun t => t.chip.rd (planeReg k) = 0 ∧ t.chip.recov.outputsBlocked = true ∧ t.chip.rd Reg.Die.RESYNC = 1 ∧
        t.chip.rd Reg.Die.ACTIVE_PLANE = k.val)) ∧
    (∀ (k : Fin 2) (s : State), s.chip.on (planeReg k) = true → s.chip.rd Reg.Die.ACTIVE_PLANE = 1 - k.val →
      s.chip.recov.outputsBlocked = false →
      Runs (.lockstepMismatch k) s (fun t => t.chip.rd (planeReg k) = 0 ∧ t.chip.recov.outputsBlocked = false ∧
        t.chip.faults.arrivals = s.chip.faults.arrivals ++ [⟨4, 0x110 + k.val, 0x73, 0, false, false, false, 0, s.chip.frame⟩])) ∧
    (∀ (k : Fin 2) (s : State), s.chip.recov.outputsBlocked = true → s.chip.rd Reg.Die.ACTIVE_PLANE = k.val →
      s.chip.on (planeReg (1 - k.val)) = true →
      Runs .planeFailover s (fun t => t.chip.rd Reg.Die.ACTIVE_PLANE = 1 - k.val ∧ t.chip.recov.outputsBlocked = false ∧
        t.chip.rd Reg.Recov.FAILOVER_SEEN = 1 ∧
        t.chip.rd Reg.Recov.FAILOVER_COUNT = (s.chip.rd Reg.Recov.FAILOVER_COUNT + 1) % 2 ^ (Reg.Recov.FAILOVER_COUNT).width ∧
        t.chip.rd Reg.Recov.LAST_KIND = 6)) ∧
    (∀ (k : Fin 2) (s : State), s.chip.rd Reg.Die.RESYNC = 1 → s.chip.rd Reg.Die.ACTIVE_PLANE = k.val →
      s.chip.on (planeReg (1 - k.val)) = false → bits (s.chip.rd Reg.Flt.PLANES_FENCED) (1 - k.val) 1 = 0 →
      Runs .planeResyncDone s (fun t => t.chip.rd Reg.Die.RESYNC = 0 ∧ t.chip.rd (planeReg (1 - k.val)) = 1)))

/-- R304, R305, R306, R309, R324. Admission of an awaited position starts with the reads of its identity, in their order; a position served from end B
that is silent is polled; an epoch that is not confirmed within two frames is written again, three times in all; a position goes on after its backoff;
an abandoned one has its DIE_UID read; a cell silent for 80 µs is lost. A new epoch differs from the recorded one and from the cell's own, and is
never 0. A host with MAINT rights readmits an abandoned position, its failures forgotten, and an admitted one in a blocked region; without the right
it is refused; a position that is being admitted is left to it. Where a clause goes beyond the words of the rules it is the model's choice: log entry
28. -/
def Obligations.AdmissionMoves : Prop :=
  ((∀ (a : CellAddr) (s : State), a % 64 < s.chip.population (a / 64) → s.chip.mode (a / 64) ≠ 3 → s.chip.admitting (a / 64) = false →
      s.chip.awaits a = true → (∀ b ∈ s.chip.ropeCells (a / 64), b < a.val → s.chip.awaits b = false) →
      Runs (.admissionStart a) s (fun t => (t.chip.posn a).admState = 2 ∧
        ∃ l, (t.chip.rope (a / 64)).mgmtOut = (s.chip.rope (a / 64)).mgmtOut ++ l ∧
          l.map (fun m => (m.op, m.addr, m.reg)) = [0x00, 0x01, 0x02, 0x03, 0x05, 0x07, 0x0B].map (fun k => (2, a.val, k)))) ∧
    (∀ (a : CellAddr) (s : State), a % 64 < s.chip.population (a / 64) → s.chip.mode (a / 64) = 2 → (s.chip.posn a).quiet ≠ 0 →
      (s.chip.posn a).admState = 1 ∨ (s.chip.posn a).admState = 9 →
      Runs (.admitPollRead a) s (fun t => (t.chip.posn a) = s.chip.posn a ∧
        ∃ m, (t.chip.rope (a / 64)).mgmtOut = (s.chip.rope (a / 64)).mgmtOut ++ [m] ∧ m.op = 2 ∧ m.addr = a.val ∧ m.reg = 0x07)) ∧
    (∀ (a : CellAddr) (s : State), (s.chip.posn a).admState = 3 → 2 ≤ signedDiff 32 s.chip.frame (s.chip.posn a).epochFrame →
      ((s.chip.posn a).epochWrites < 3 → Runs (.epochConfirmTimeout a) s (fun t => (t.chip.posn a).admState = 3 ∧
        (t.chip.posn a).epochWrites = (s.chip.posn a).epochWrites + 1 ∧ (t.chip.posn a).epochFrame = s.chip.frame)) ∧
      (3 ≤ (s.chip.posn a).epochWrites → (s.chip.posn a).fails + 1 < s.chip.card.admission.retryMax →
        Runs (.epochConfirmTimeout a) s (fun t => (t.chip.posn a).admState = 7 ∧ (t.chip.posn a).reason = 5 ∧
          (t.chip.posn a).fails = (s.chip.posn a).fails + 1))) ∧
    (∀ (a : CellAddr) (dt : Nat) (s : State), (s.chip.posn a).admState = 7 →
      (s.chip.posn a).since + s.chip.backoff a ≤ (s.chip.advance dt).runNs →
      Runs (.admitBackoffEnd a dt) s (fun t => (t.chip.posn a).admState = 1 ∧ (t.chip.posn a).fails = (s.chip.posn a).fails)) ∧
    (∀ (a : CellAddr) (s : State), (s.chip.posn a).admState = 8 →
      Runs (.abandonedUidCheck a) s (fun t => t.chip.posn a = s.chip.posn a ∧
        (t.chip.rope (a / 64)).mgmtOut.length = (s.chip.rope (a / 64)).mgmtOut.length + 2)) ∧
    (∀ (a : CellAddr) (s : State), (s.chip.posn a).admState = 6 → 8 ≤ (s.chip.posn a).quiet →
      Runs (.cellLost a) s (fun t => (t.chip.posn a).admState = 9 ∧ t.chip.rd Reg.Recov.CELL_LOST_SEEN = 1 ∧
        (t.chip.posn a).epochRec = (s.chip.posn a).epochRec))) ∧
  ((∀ recorded cell : Nat, recorded < 65536 → cell < 65536 → nextEpoch recorded cell ≠ recorded ∧ nextEpoch recorded cell ≠ cell ∧
      0 < nextEpoch recorded cell ∧ nextEpoch recorded cell < 65536) ∧
    (∀ (p : PortIx) (s : State), let a := s.chip.rd (Reg.Adm.ADM_CELL p)
      (s.chip.has p .maint = true → a % 64 < s.chip.population (a / 64) → s.chip.mode (a / 64) ≠ 3 →
        ((s.chip.posn a).admState = 8 → Runs (.readmitGo p) s (fun t => t.chip.rd (Reg.Adm.ADM_RESULT p) = 1 ∧
          (t.chip.posn a).admState = 1 ∧ (t.chip.posn a).fails = 0)) ∧
        ((s.chip.posn a).admState = 6 → s.chip.blocked (regionOf a) = true → Runs (.readmitGo p) s (fun t =>
          t.chip.rd (Reg.Adm.ADM_RESULT p) = 1 ∧ (t.chip.posn a).admState = 1)) ∧
        (2 ≤ (s.chip.posn a).admState → (s.chip.posn a).admState ≤ 5 → Runs (.readmitGo p) s (fun t =>
          t.chip.rd (Reg.Adm.ADM_RESULT p) = 5 ∧ OnlyFields [Reg.Adm.ADM_RESULT p] s t))) ∧
      (s.chip.has p .maint = false → Runs (.readmitGo p) s (fun t => t.chip.rd (Reg.Adm.ADM_RESULT p) = 3 ∧ t.chip.pos = s.chip.pos))))

/-- R330, R336, R337, R339. An unacknowledged fault that comes again counts one severity higher than its entry, at most 7, and never below its base; a new
one is entered at its base while the table has room for 1,024; one that is acknowledged by itself or has base 0 is not entered. An injected one that
is capped reacts at 2 at most. The faults of a cycle are taken real ones before injected ones, then by falling severity, falling level, rising source
and rising kind: the order is total, and the list that is handled is in it and holds every arrival once. Where a clause goes beyond the words of the
rules it is the model's choice: log entry 31. -/
def Obligations.FaultsCollected : Prop :=
  ((∀ (c : Chip) (held : List HeldFault) (m : Arrival) (e : HeldFault), c.rd (Reg.Class.AUTO_ACK m.kind) = 0 → c.baseSev m ≠ 0 →
      held.find? (fun x => x.isKey m) = some e →
      (c.judgeFault held m).1.eff = min 7 (max (c.baseSev m) (e.eff + 1)) ∧ (c.judgeFault held m).1.repeated = true ∧
      (c.judgeFault held m).2.length = held.length) ∧
    (∀ (c : Chip) (held : List HeldFault) (m : Arrival), c.rd (Reg.Class.AUTO_ACK m.kind) = 0 → c.baseSev m ≠ 0 →
      held.find? (fun x => x.isKey m) = none →
      (c.judgeFault held m).1.eff = c.baseSev m ∧ (c.judgeFault held m).1.tableFull = decide (1024 ≤ held.length) ∧
      (c.judgeFault held m).2 = if held.length < 1024 then
        held ++ [⟨m.level, m.kind, m.source, m.injected, c.baseSev m, 1, m.injected && !c.on Reg.Flt.LIVE_INJECTION⟩] else held) ∧
    (∀ (c : Chip) (held : List HeldFault) (m : Arrival), c.rd (Reg.Class.AUTO_ACK m.kind) = 1 ∨ c.baseSev m = 0 →
      (c.judgeFault held m).2 = held ∧ (c.judgeFault held m).1.eff = c.baseSev m) ∧
    (∀ (c : Chip) (held : List HeldFault) (m : Arrival), m.injected = true → c.rd Reg.Flt.LIVE_INJECTION = 0 →
      (c.judgeFault held m).1.sev ≤ 2)) ∧
  ((∀ x y : Nat × Arrival, firstOrder x y = true ∨ firstOrder y x = true) ∧
    (∀ x y z : Nat × Arrival, firstOrder x y = true → firstOrder y z = true → firstOrder x z = true) ∧
    (∀ (c : Chip) (held : List HeldFault) (l : List Arrival), (c.ordered held l).length = l.length ∧
      (∀ m, m ∈ c.ordered held l ↔ m ∈ l) ∧
      (c.ordered held l).Pairwise (fun a b => firstOrder ((c.judgeFault held a).1.eff, a) ((c.judgeFault held b).1.eff, b) = true)))

/-- R332, R333, R342. A fault of severity 6 or more blocks every region and one of 7 trips the station too; one below 4 neither fences, blocks nor trips.
Where a clause goes beyond the words of the rules it is the model's choice: log entry 31. -/
def Obligations.FaultsReact : Prop :=
  (∀ (c : Chip) (j : Judged), j.m.kind ≠ 0xFF → 6 ≤ j.sev → (c.react j).allBlocked = true) ∧
  (∀ (c : Chip) (j : Judged), j.m.kind ≠ 0xFF → 7 ≤ j.sev → (c.react j).rd Reg.Flt.TRIP = 1 ∧ (c.react j).rd Reg.Flt.TRIP_SEEN = 1) ∧
  (∀ (c : Chip) (j : Judged), j.sev < 4 ∨ j.m.kind = 0xFF → c.react j = c)

/-- R328, R331, R336, R338, R340, R341, R342, R343, R346, R348. A message, an acknowledgement, an unfence order and a reset of the first-fault register or
of the trip wait for the close of the cycle; a port without their right is refused with 3. An injection of levels 2 to 6 joins the cycle marked
INJECTED, one of level 1 goes out to its cell; a cell queues the message it is told to inject. FAULT_HOLD keeps FAULT_N low; a pulse ends with its
time and leaves the pin as FAULT_HOLD has it. Where a clause goes beyond the words of the rules it is the model's choice: log entry 32. -/
def Obligations.FaultOrders : Prop :=
  ((∀ (w : BitVec 64) (f : Word) (late : Bool) (s : State), s.chip.recov.outputsBlocked = false →
      Runs (.faultMessageRx w f late) s (fun t => t.chip.faults.arrivals = s.chip.faults.arrivals ++ [msgArrival w.toNat f.toNat late] ∧
        t.chip.rd Reg.Flt.FAULT_COUNT = (s.chip.rd Reg.Flt.FAULT_COUNT + 1) % 2 ^ (Reg.Flt.FAULT_COUNT).width)) ∧
    (∀ (p : PortIx) (s : State), s.chip.has p .protect = true ∨ s.chip.has p .maint = true →
      Runs (.ackGo p) s (fun t => t.chip.rd (Reg.Flt.ACK_RESULT p) = 0 ∧ t.chip.faults.held = s.chip.faults.held ∧
        ∃ k, t.chip.faults.acks = s.chip.faults.acks ++ [k] ∧ k.port = p.val ∧ k.all = false ∧ k.kind = s.chip.rd (Reg.Flt.ACK_KIND p)) ∧
      Runs (.ackAll p) s (fun t => t.chip.rd (Reg.Flt.ACK_RESULT p) = 0 ∧
        ∃ k, t.chip.faults.acks = s.chip.faults.acks ++ [k] ∧ k.port = p.val ∧ k.all = true)) ∧
    (∀ (p : PortIx) (s : State), s.chip.has p .protect = true →
      Runs (.firstReset p) s (fun t => t.chip.rd (Reg.Flt.RESET_RESULT p) = 0 ∧
        t.chip.faults.firstResets = s.chip.faults.firstResets ++ [p.val] ∧ t.chip.rd Reg.Flt.FIRST_VALID = s.chip.rd Reg.Flt.FIRST_VALID) ∧
      Runs (.tripReset p) s (fun t => t.chip.rd (Reg.Flt.RESET_RESULT p) = 0 ∧
        t.chip.faults.tripResets = s.chip.faults.tripResets ++ [p.val] ∧ t.chip.rd Reg.Flt.TRIP = s.chip.rd Reg.Flt.TRIP)) ∧
    (∀ (p : PortIx) (s : State), s.chip.has p .maint = true → s.chip.twoHandOk 1 = true →
      s.chip.rd (Reg.Flt.UNFENCE_LEVEL p) ≠ 2 → ¬(s.chip.rd (Reg.Flt.UNFENCE_LEVEL p) = 4 ∧ s.chip.rd (Reg.Flt.UNFENCE_INDEX p) < 4) →
      Runs (.unfenceGo p) s (fun t => t.chip.rd (Reg.Flt.UNFENCE_RESULT p) = 0 ∧ t.chip.faults.unfences =
        s.chip.faults.unfences ++ [(p.val, s.chip.rd (Reg.Flt.UNFENCE_LEVEL p), s.chip.rd (Reg.Flt.UNFENCE_INDEX p))])) ∧
    (∀ (p : PortIx) (s : State), s.chip.has p .protect = false → s.chip.has p .maint = false →
      (∀ i ∈ [Instr.ackGo p, .ackAll p], Runs i s (fun t => t.chip.rd (Reg.Flt.ACK_RESULT p) = 3 ∧ t.chip.faults = s.chip.faults)) ∧
      (∀ i ∈ [Instr.firstReset p, .tripReset p], Runs i s (fun t => t.chip.rd (Reg.Flt.RESET_RESULT p) = 3 ∧
        t.chip.faults = s.chip.faults)) ∧
      Runs (.unfenceGo p) s (fun t => t.chip.rd (Reg.Flt.UNFENCE_RESULT p) = 3 ∧ t.chip.faults = s.chip.faults) ∧
      Runs (.injGo p) s (fun t => t.chip.rd (Reg.Flt.INJ_RESULT p) = 3 ∧ t.chip.faults = s.chip.faults))) ∧
  ((∀ (p : PortIx) (s : State),
      let m := msgArrival (s.chip.rd (Reg.Flt.INJ_MSG_LO p) + s.chip.rd (Reg.Flt.INJ_MSG_HI p) * 2 ^ 32) s.chip.frame false
      s.chip.has p .protect = true ∨ s.chip.has p .maint = true → (∀ e ∈ s.chip.faults.injecting, e.1 ≠ p.val) →
      (2 ≤ m.level → m.level ≤ 6 → s.chip.recov.outputsBlocked = false →
        Runs (.injGo p) s (fun t => t.chip.rd (Reg.Flt.INJ_RESULT p) = 1 ∧
          t.chip.faults.arrivals = s.chip.faults.arrivals ++ [{ m with injected := true, fenced := false }])) ∧
      (m.level = 1 → level1Kind m.kind = true → m.source < 16384 → m.source % 64 < s.chip.population (m.source / 64) →
        Runs (.injGo p) s (fun t => t.chip.rd (Reg.Flt.INJ_RESULT p) = 0 ∧ t.chip.faults.arrivals = s.chip.faults.arrivals ∧
          t.chip.faults.injecting = s.chip.faults.injecting ++ [(p.val, m.source)] ∧
          (t.chip.rope (m.source / 64)).mgmtOut.length = (s.chip.rope (m.source / 64)).mgmtOut.length + 2)) ∧
      (m.level = 0 ∨ 6 < m.level → Runs (.injGo p) s (fun t => t.chip.rd (Reg.Flt.INJ_RESULT p) = 2 ∧ t.chip.faults = s.chip.faults))) ∧
    (∀ (a : CellAddr) (s : State), level1Kind (s.chip.rd (Reg.CFlt.INJ_KIND a)) = true → (s.chip.cmd a).faultQ.length < 8 →
      Runs (.cellInjGo a) s (fun t => t.chip.rd (Reg.CFlt.INJ_RESULT a) = 1 ∧
        (t.chip.cmd a).faultQ.length = (s.chip.cmd a).faultQ.length + 1 ∧
        t.chip.rd (Reg.CFlt.FAULTS_INJECTED a) = (s.chip.rd (Reg.CFlt.FAULTS_INJECTED a) + 1) % 2 ^ (Reg.CFlt.FAULTS_INJECTED a).width)) ∧
    (∀ (p : PortIx) (v : Bool) (s : State), s.chip.has p .protect = true →
      Runs (.faultHoldWrite p v) s (fun t => t.chip.rd Reg.Flt.FAULT_HOLD = bit v ∧
        t.chip.rd Reg.Flt.FAULT_N_LOW = bit (v || s.chip.on Reg.Flt.PULSE_RUNNING) ∧
        OnlyFields [Reg.Flt.FAULT_HOLD, Reg.Flt.FAULT_N_LOW] s t)) ∧
    (∀ (dt t0 : Nat) (s : State), s.chip.faults.pulseEnd = some t0 → t0 ≤ (s.chip.advance dt).runNs →
      Runs (.faultNPulseEnd dt) s (fun t => t.chip.rd Reg.Flt.PULSE_RUNNING = 0 ∧ t.chip.faults.pulseEnd = none ∧
        t.chip.rd Reg.Flt.FAULT_N_LOW = s.chip.rd Reg.Flt.FAULT_HOLD % 2)))

/-- R353, R354, R358, R359. A trigger while ARMED starts a recording, with its cause and instant; one in POST is only marked; one while ARMING or FULL is
counted as ignored. The trigger may be a level that is met for LT_HOLD samples, once in each run, a task's instruction, or a host's order, which waits
for the next frame and needs PROTECT. Where a clause goes beyond the words of the rules it is the model's choice: log entry 29. -/
def Obligations.RecorderTriggers : Prop :=
  (∀ (d : Fin 1024) (s : State), s.chip.rd Reg.Rec.REC_STATE = 2 → s.chip.card.recorder.chans = [] →
    Runs (.recorderTriggerInstr d) s (fun t => t.chip.rd Reg.Rec.TRIGGERED_SEEN = 1 ∧
      t.chip.recorder.seq = (s.chip.recorder.seq + 1) % 2 ^ 32 ∧
      let b := t.chip.recBuf (s.chip.rd Reg.Rec.ACTIVE_BUF)
      b.cause = 4 ∧ b.index = d.val ∧ b.trigFrame = s.chip.frame ∧ b.trigAt = s.chip.time.frameStart ∧ b.seq = s.chip.recorder.seq ∧
        b.injected = false)) ∧
  (∀ (d : Fin 1024) (s : State), s.chip.rd Reg.Rec.REC_STATE = 3 →
    Runs (.recorderTriggerInstr d) s (fun t => t.chip.rd Reg.Rec.REC_STATE = 3 ∧
      (t.chip.recBuf (s.chip.rd Reg.Rec.ACTIVE_BUF)).triggers = satNat 16 ((s.chip.recBuf (s.chip.rd Reg.Rec.ACTIVE_BUF)).triggers + 1) ∧
      (t.chip.recBuf (s.chip.rd Reg.Rec.ACTIVE_BUF)).cause = (s.chip.recBuf (s.chip.rd Reg.Rec.ACTIVE_BUF)).cause)) ∧
  (∀ (d : Fin 1024) (s : State), s.chip.rd Reg.Rec.REC_STATE = 1 ∨ s.chip.rd Reg.Rec.REC_STATE = 4 →
    Runs (.recorderTriggerInstr d) s (fun t => t.chip.recorder = s.chip.recorder ∧ t.chip.rd Reg.Rec.IGNORED_SEEN = 1 ∧
      t.chip.rd Reg.Rec.TRIG_IGNORED = (s.chip.rd Reg.Rec.TRIG_IGNORED + 1) % 2 ^ (Reg.Rec.TRIG_IGNORED).width ∧
      t.chip.rd Reg.Rec.LAST_IGNORED_CAUSE =
        if s.chip.rd Reg.Rec.REC_STATE = 4 then 3 else if s.chip.recorder.rearm then 2 else 1)) ∧
  (∀ (d : Fin 1024) (s : State), s.chip.rd Reg.Rec.REC_STATE = 0 → Does (.recorderTriggerInstr d) s s.chip) ∧
  (∀ (k : Fin 32) (s : State), let x := mapGet LtSt.idle s.chip.recorder.lts k
    s.chip.rd (Reg.Lt.LT_HOLD k) ≤ x.run → 0 < x.run →
    (x.fired = false → Runs (.levelTrigger k) s (fun t => (mapGet LtSt.idle t.chip.recorder.lts k).fired = true ∧
      t.chip.rd (Reg.Lt.LT_COUNT k) = (s.chip.rd (Reg.Lt.LT_COUNT k) + 1) % 2 ^ (Reg.Lt.LT_COUNT k).width)) ∧
    (x.fired = true → Does (.levelTrigger k) s s.chip)) ∧
  (∀ (p : PortIx) (s : State),
    (s.chip.has p .protect = true → Runs (.trigGo p) s (fun t => t.chip.rd (Reg.Rec.TRIG_RESULT p) = 0 ∧
      t.chip.recorder = { s.chip.recorder with orders := s.chip.recorder.orders ++ [p.val] } ∧ t.chip.rd Reg.Rec.REC_STATE =
        s.chip.rd Reg.Rec.REC_STATE)) ∧
    (s.chip.has p .protect = false → Runs (.trigGo p) s (fun t => t.chip.rd (Reg.Rec.TRIG_RESULT p) = 4 ∧
      t.chip.recorder = s.chip.recorder)))

/-- R354, R356, R357, R359, R360. ARMING ends with PRE_TIME; POST ends with its time and the buffer goes to CLOSING; 20 ms later it is HELD and counted; a
PROTECT port frees a HELD buffer and no other; a window of the rate rule ends each millisecond. A port reads the records of a buffer one by one, and a
buffer's description as one snapshot; a new capture of a cell is acknowledged. Where a clause goes beyond the words of the rules it is the model's
choice: log entry 29. -/
def Obligations.RecorderBuffers : Prop :=
  (∀ (dt : Nat) (s : State), s.chip.rd Reg.Rec.REC_STATE = 1 →
    s.chip.recorder.takenAt + s.chip.rd Reg.Rec.PRE_TIME * 1000000 ≤ (s.chip.advance dt).runNs →
    Runs (.preTimeExpiry dt) s (fun t => t.chip.rd Reg.Rec.REC_STATE = 2 ∧ t.chip.recorder = s.chip.recorder)) ∧
  (∀ (dt : Nat) (s : State), let b := s.chip.rd Reg.Rec.ACTIVE_BUF
    s.chip.rd Reg.Rec.REC_STATE = 3 → s.chip.recorder.postEnd ≤ (s.chip.advance dt).runNs →
    Runs (.postTimeExpiry dt) s (fun t => (t.chip.recBuf b).state = 2 ∧ (t.chip.recBuf b).postShort = false ∧
      (t.chip.recBuf b).closedAt = (s.chip.advance dt).runNs ∧
      (t.chip.rd Reg.Rec.REC_STATE = 1 ∨ t.chip.rd Reg.Rec.REC_STATE = 4))) ∧
  (∀ (dt : Nat) (b : Fin 16) (s : State), (s.chip.recBuf b).state = 2 →
    (s.chip.recBuf b).closedAt + 20000000 ≤ (s.chip.advance dt).runNs → s.chip.rd Reg.Rec.REC_STATE ≠ 4 →
    Runs (.closingEnd dt b) s (fun t => (t.chip.recBuf b).state = 3 ∧
      t.chip.rd Reg.Rec.RECORDINGS = (s.chip.rd Reg.Rec.RECORDINGS + 1) % 2 ^ (Reg.Rec.RECORDINGS).width)) ∧
  (∀ (p : PortIx) (s : State), let b := s.chip.rd (Reg.Rec.REL_BUF p)
    (s.chip.has p .protect = false → Runs (.relGo p) s (fun t => t.chip.rd (Reg.Rec.REL_RESULT p) = 3 ∧
      t.chip.recorder = s.chip.recorder)) ∧
    (s.chip.has p .protect = true → (s.chip.recBuf b).state ≠ 3 → Runs (.relGo p) s (fun t => t.chip.rd (Reg.Rec.REL_RESULT p) = 2 ∧
      t.chip.recorder = s.chip.recorder)) ∧
    (s.chip.has p .protect = true → (s.chip.recBuf b).state = 3 → s.chip.rd Reg.Rec.REC_STATE ≠ 4 →
      Runs (.relGo p) s (fun t => t.chip.rd (Reg.Rec.REL_RESULT p) = 1 ∧ t.chip.recBuf b = RecBuf.free ∧
        t.chip.rd Reg.Rec.REC_STATE = s.chip.rd Reg.Rec.REC_STATE))) ∧
  (∀ (dt : Nat) (s : State), s.chip.rd Reg.Rec.REC_STATE = 2 → s.chip.recorder.winAt + 1000000 ≤ (s.chip.advance dt).runNs →
    s.chip.recorder.nr = 0 → s.chip.recorder.rd = 0 → s.chip.rd Reg.Rec.RATE_LEVEL = 0 →
    Runs (.rateWindowEnd dt) s (fun t => t.chip.recorder.winAt = s.chip.recorder.winAt + 1000000 ∧ t.chip.recorder.calm = 0 ∧
      t.chip.regs = s.chip.regs)) ∧
  (∀ (dt : Nat) (s : State), (s.chip.advance dt).runNs < s.chip.recorder.winAt + 1000000 →
    Does (.rateWindowEnd dt) s (s.chip.advance dt)) ∧
  (∀ (p : PortIx) (row : RecRow) (s : State), let x := s.chip.recBuf (s.chip.rd (Reg.Rec.RD_BUF p))
    s.chip.has p .protect = true ∨ s.chip.has p .maint = true → x.state = 3 → x.rows[s.chip.rd (Reg.Rec.RD_IDX p)]? = some row →
    Runs (.rdW0Read p) s (fun t => t.chip.rd (Reg.Rec.RD_RESULT p) = 0 ∧ t.chip.rd (Reg.Rec.RD_W0 p) = leAt row.bytes 0 4 % 2 ^ 32 ∧
      t.chip.rd (Reg.Rec.RD_W3 p) = leAt row.bytes 12 4 % 2 ^ 32 ∧
      t.chip.rd (Reg.Rec.RD_IDX p) = (s.chip.rd (Reg.Rec.RD_IDX p) + 1) % 2 ^ (Reg.Rec.RD_IDX p).width ∧
      t.chip.recorder = s.chip.recorder)) ∧
  (∀ (p : PortIx) (s : State), let x := s.chip.recBuf (s.chip.rd (Reg.Rec.BD_SEL p))
    (s.chip.has p .observe = true → Runs (.bdStateRead p) s (fun t =>
      t.chip.rd (Reg.Rec.BD_STATE p) = x.state % 2 ^ (Reg.Rec.BD_STATE p).width ∧
      t.chip.rd (Reg.Rec.BD_SEQ p) = x.seq % 2 ^ 32 ∧ t.chip.rd (Reg.Rec.BD_SEQ p).snapOwn = x.seq % 2 ^ 32 ∧
      t.chip.rd (Reg.Rec.BD_TRIG_FRAME p).snapOwn = x.trigFrame % 2 ^ 32 ∧ t.chip.recorder = s.chip.recorder)) ∧
    (s.chip.has p .observe = false → Does (.bdStateRead p) s s.chip)) ∧
  (∀ (dt : Nat) (b : List Byte) (a : Nat) (r : BulkRec) (s : State), s.chip.bulkIn (b.map BitVec.toNat) 4 = some (a, r) →
    Runs (.bulkCellCaptureRx dt b) s (fun t => (t.chip.posn a).bulkAck = some r.seq ∧
      ((s.chip.posn a).bulkAck = some r.seq → t.chip.recorder = s.chip.recorder)))

/-- R362, R363, R366, R370, R371. A stop input in RUN with a channel low is a demand: counted, shown, every region blocked in the same evaluation, with a
trip where the card says so; one whose channels are both high again is LATCHED. A missing test pulse or channels that disagree too long put the input
in FAULT, which blocks every region and demands a trip, or enters the degraded mode where the card and the moment allow it; the fault clears after ten
clean test periods. A block that has failed evaluates nothing. Where a clause goes beyond the words of the rules it is the model's choice: log entry
30. -/
def Obligations.SafetyInputs : Prop :=
  (∀ (dt : Nat) (chs : List (Bool × Bool)) (f0 f1 : Bool) (s : State), s.chip.rd Reg.Saf.SAFETY_OK = 0 →
    Does (.safetyEvaluation dt chs f0 f1) s (s.chip.advance dt)) ∧
  (∀ (dt : Nat) (x : Fin 8) (chs : List (Bool × Bool)) (f0 f1 : Bool) (s : State), s.chip.rd Reg.Saf.SAFETY_OK = 1 →
    (∀ y < 8, y ≠ x.val → s.chip.rd (Reg.SafIn.FUNCTION y) = 0) → s.chip.isStop x = true →
    (s.chip.rd (Reg.SafIn.IN_STATE x) = 1 → (chs.getD x (false, false)).1 = false ∨ (chs.getD x (false, false)).2 = false →
      Runs (.safetyEvaluation dt chs f0 f1) s (fun t => t.chip.rd (Reg.SafIn.IN_STATE x) = 0 ∧
        t.chip.rd Reg.Ord.BLOCKED = 0xFF ∧ bits (t.chip.rd Reg.Saf.DEMAND_MAP) x 1 = 1 ∧ t.chip.rd Reg.Saf.DEMAND_SEEN = 1 ∧
        t.chip.rd (Reg.SafIn.DEMANDS x) = (s.chip.rd (Reg.SafIn.DEMANDS x) + 1) % 2 ^ (Reg.SafIn.DEMANDS x).width ∧
        t.chip.rd Reg.Saf.DEMAND_COUNT = (s.chip.rd Reg.Saf.DEMAND_COUNT + 1) % 2 ^ (Reg.Saf.DEMAND_COUNT).width ∧
        (s.chip.rd (Reg.SafIn.TRIP_ON_DEMAND x) = 1 → t.chip.rd Reg.Flt.TRIP = 1 ∧ t.chip.rd Reg.Saf.TRIP_DEMAND = 1) ∧
        t.chip.faults.arrivals = s.chip.faults.arrivals)) ∧
    (s.chip.rd (Reg.SafIn.IN_STATE x) = 0 → chs.getD x (false, false) = (true, true) → (s.chip.safIn x).bothLow = true →
      s.chip.rd (Reg.SafIn.PULSED x) = 0 → s.chip.rd (Reg.SafIn.AUTO_RESET x) = 0 →
      Runs (.safetyEvaluation dt chs f0 f1) s (fun t => t.chip.rd (Reg.SafIn.IN_STATE x) = 3))) ∧
  (∀ (dt : Nat) (x : Fin 8) (seen : List (Option Bool × Option Bool)) (s : State), s.chip.rd Reg.Saf.SAFETY_OK = 1 →
    (∀ y < 8, y ≠ x.val → s.chip.rd (Reg.SafIn.FUNCTION y) = 0) → s.chip.isStop x = true → s.chip.rd (Reg.SafIn.PULSED x) = 1 →
    (seen.getD x (none, none) = (some true, none) → Runs (.testPulse dt false seen) s (fun t =>
      t.chip.rd (Reg.SafIn.PULSE_OK_A x) = 1 ∧ OnlyFields [Reg.SafIn.PULSE_OK_A x] s { t with chip := { t.chip with time := s.chip.time } })) ∧
    (seen.getD x (none, none) = (some false, none) → s.chip.rd (Reg.SafIn.IN_STATE x) ≠ 2 → s.chip.rd (Reg.SafIn.DEGRADE_ALLOWED x) = 0 →
      Runs (.testPulse dt false seen) s (fun t => t.chip.rd (Reg.SafIn.IN_STATE x) = 2 ∧ t.chip.rd (Reg.SafIn.LAST_CAUSE x) = 3 ∧
        t.chip.rd Reg.Ord.BLOCKED = 0xFF ∧ t.chip.rd Reg.Saf.TRIP_DEMAND = 1 ∧ t.chip.rd Reg.Flt.TRIP = 1 ∧
        ∃ m ∈ t.chip.faults.arrivals, m.level = 6 ∧ m.source = 0x30 + x.val ∧ m.kind = 0xA6 ∧ m.detail = 3))) ∧
  (∀ (dt : Nat) (x : Fin 8) (t0 : Nat) (s : State), s.chip.rd Reg.Saf.SAFETY_OK = 1 → (s.chip.safIn x).apartFrom = some t0 →
    s.chip.rd (Reg.SafIn.DISC_TIME x) * 1000000 < (s.chip.advance dt).runNs - t0 → s.chip.rd (Reg.SafIn.IN_STATE x) ≠ 2 →
    s.chip.isStop x = true →
    Runs (.discrepancyTimeout dt x) s (fun t => t.chip.rd (Reg.SafIn.IN_STATE x) = 2 ∧ t.chip.rd (Reg.SafIn.LAST_CAUSE x) = 1 ∧
      (s.chip.rd (Reg.SafIn.DEGRADE_ALLOWED x) = 0 → t.chip.rd Reg.Ord.BLOCKED = 0xFF ∧ t.chip.rd Reg.Saf.TRIP_DEMAND = 1) ∧
      (s.chip.rd (Reg.SafIn.DEGRADE_ALLOWED x) = 1 → s.chip.rd Reg.Saf.DEGRADED = 0 → s.chip.rd Reg.Saf.TRIP_DEMAND = 0 →
        t.chip.rd Reg.Saf.DEGRADED = 1 ∧ t.chip.rd (Reg.SafIn.IN_DEGRADED x) = 1 ∧ t.chip.rd Reg.Saf.DEGRADED_INPUT = x.val ∧
        t.chip.rd Reg.Ord.BLOCKED = s.chip.rd Reg.Ord.BLOCKED ∧ t.chip.rd Reg.Saf.TRIP_DEMAND = 0))) ∧
  (∀ (dt : Nat) (x : Fin 8) (s : State), s.chip.rd (Reg.SafIn.IN_STATE x) = 2 → (s.chip.safIn x).fenced = false →
    s.chip.bothHigh x = true → s.chip.rd (Reg.SafIn.PULSED x) = 0 →
    (10 * s.chip.rd Reg.Saf.TP_PERIOD * 1000000 ≤ (s.chip.advance dt).runNs - (s.chip.safIn x).cleanFrom →
      Runs (.inputFaultClear dt x) s (fun t => t.chip.rd (Reg.SafIn.IN_STATE x) = 3 ∧ bits (t.chip.rd Reg.Saf.FAULT_MAP) x 1 = 0 ∧
        t.chip.rd Reg.Saf.TRIP_DEMAND = s.chip.rd Reg.Saf.TRIP_DEMAND)) ∧
    ((s.chip.advance dt).runNs - (s.chip.safIn x).cleanFrom < 10 * s.chip.rd Reg.Saf.TP_PERIOD * 1000000 →
      Does (.inputFaultClear dt x) s (s.chip.advance dt)))

/-- R33, R366, R368, R369, R370, R371. An output is de-energised when its OFF_DELAY has run; a read-back that disagrees, or an off-pulse that does not
show, switches it off with a fault and holds a trip demand; a feedback that does not follow switches it off. SAFETY_RESET needs PROTECT, a block that
is sound and every stop input at rest; accepted, it ends the trip demand and takes latched inputs to RUN. The degraded mode that expires demands a
trip with every output off; a failure of the block, of its supplies or of the Summit trips the station. Where a clause goes beyond the words of the
rules it is the model's choice: log entry 30. -/
def Obligations.SafetyOutputs : Prop :=
  (∀ (dt : Nat) (y : Fin 2) (t0 : Nat) (s : State), (s.chip.safOut y).offDue = some t0 →
    (t0 ≤ (s.chip.advance dt).runNs → Runs (.offDelayExpiry dt y) s (fun t => t.chip.outOn y = false ∧ (t.chip.safOut y).offDue = none)) ∧
    ((s.chip.advance dt).runNs < t0 → Does (.offDelayExpiry dt y) s (s.chip.advance dt))) ∧
  (∀ (dt : Nat) (y ch : Fin 2) (s : State),
    Does (.outputOffPulseTest dt y ch true) s (s.chip.advance dt) ∧
    (s.chip.outOn y = true → Runs (.outputOffPulseTest dt y ch false) s (fun t => t.chip.outOn y = false ∧
      bits (t.chip.rd Reg.Saf.SO_FAULT) y 1 = 1 ∧ t.chip.rd Reg.Saf.OUTPUT_FAULT_SEEN = 1 ∧ t.chip.rd Reg.Saf.TRIP_DEMAND = 1 ∧
      t.chip.rd Reg.Ord.BLOCKED = 0xFF))) ∧
  (∀ (y : Fin 2) (s : State),
    (s.chip.rd Reg.Saf.SAFETY_OK = 1 → Runs (.safeOutputReadbackMismatch y) s (fun t => t.chip.outOn y = false ∧
      bits (t.chip.rd Reg.Saf.SO_FAULT) y 1 = 1 ∧ t.chip.rd Reg.Saf.TRIP_DEMAND = 1 ∧ t.chip.rd Reg.Flt.TRIP = 1 ∧
      ∃ m ∈ t.chip.faults.arrivals, m.level = 6 ∧ m.source = 0x30 ∧ m.kind = 0xA6 ∧ m.detail = 0x8005 + 256 * y.val)) ∧
    (s.chip.rd Reg.Saf.SAFETY_OK = 0 → Does (.safeOutputReadbackMismatch y) s s.chip)) ∧
  (∀ (dt : Nat) (y : Fin 2) (t0 : Nat) (s : State), (s.chip.safOut y).changed = some t0 →
    s.chip.rd Reg.Saf.FB_TIME * 1000000 ≤ (s.chip.advance dt).runNs - t0 →
    Runs (.fbTimeExpiry dt y) s (fun t => t.chip.outOn y = false ∧ bits (t.chip.rd Reg.Saf.SO_FAULT) y 1 = 1 ∧
      t.chip.rd Reg.Saf.OUTPUT_FAULT_SEEN = 1 ∧ t.chip.rd Reg.Saf.TRIP_DEMAND = s.chip.rd Reg.Saf.TRIP_DEMAND)) ∧
  (∀ (p : PortIx) (s : State),
    (s.chip.has p .protect = false → Runs (.safetyReset p) s (fun t => t.chip.rd (Reg.Saf.RESET_RESULT p) = 4 ∧
      t.chip.rd Reg.Saf.TRIP_DEMAND = s.chip.rd Reg.Saf.TRIP_DEMAND ∧ t.chip.safety = s.chip.safety)) ∧
    (s.chip.has p .protect = true → s.chip.rd Reg.Saf.SAFETY_OK = 0 → Runs (.safetyReset p) s (fun t =>
      t.chip.rd (Reg.Saf.RESET_RESULT p) = 5 ∧ OnlyFields [Reg.Saf.RESET_RESULT p] s t)) ∧
    (s.chip.has p .protect = true → s.chip.rd Reg.Saf.SAFETY_OK = 1 →
      (∀ x < 8, s.chip.isStop x = true → s.chip.rd (Reg.SafIn.IN_STATE x) = 1 ∨ s.chip.rd (Reg.SafIn.IN_STATE x) = 3) →
      (∀ y < 2, (s.chip.safOut y).fbFailed = true → bits (s.chip.rd Reg.Saf.FB_OPEN) y 1 = 1) →
      Runs (.safetyReset p) s (fun t => t.chip.rd (Reg.Saf.RESET_RESULT p) = 1 ∧ t.chip.rd Reg.Saf.TRIP_DEMAND = 0 ∧
        t.chip.rd Reg.Saf.SO_FAULT = 0 ∧ t.chip.rd Reg.Ord.BLOCKED = s.chip.rd Reg.Ord.BLOCKED ∧
        ∀ x < 8, s.chip.isStop x = true → t.chip.rd (Reg.SafIn.IN_STATE x) = 1 ∧ (t.chip.safIn x).demanded = false)) ∧
    (s.chip.has p .protect = true → s.chip.rd Reg.Saf.SAFETY_OK = 1 → (∃ x < 8, s.chip.isStop x = true ∧
      s.chip.rd (Reg.SafIn.IN_STATE x) = 0 ∧ s.chip.degraded x = false) →
      Runs (.safetyReset p) s (fun t => t.chip.rd (Reg.Saf.RESET_RESULT p) = 2 ∧ OnlyFields [Reg.Saf.RESET_RESULT p] s t))) ∧
  (∀ (dt : Nat) (s : State), let x := s.chip.rd Reg.Saf.DEGRADED_INPUT
    s.chip.rd Reg.Saf.DEGRADED = 1 → x < 8 →
    s.chip.rd Reg.Saf.DEGRADED_TIME * 1000000000 ≤ (s.chip.advance dt).runNs - s.chip.safety.degradedAt →
    Runs (.degradedExpiry dt) s (fun t => t.chip.rd Reg.Saf.TRIP_DEMAND = 1 ∧ t.chip.rd Reg.Flt.TRIP = 1 ∧ t.chip.outOn 0 = false ∧
      t.chip.outOn 1 = false ∧ t.chip.rd Reg.Saf.DEGRADED_EXPIRED = 1 ∧ t.chip.rd (Reg.SafIn.LAST_CAUSE x) = 7 ∧
      t.chip.rd Reg.Ord.BLOCKED = 0xFF)) ∧
  (∀ (k : Fin 2) (s : State), ∀ i ∈ [Instr.safetyBlockSelfTestFailure, .vs24OutOfWindow k], Runs i s (fun t =>
    t.chip.rd Reg.Saf.SAFETY_OK = 0 ∧ t.chip.rd Reg.Saf.TRIP_DEMAND = 1 ∧ t.chip.rd Reg.Flt.TRIP = 1 ∧ t.chip.outOn 0 = false ∧
    t.chip.outOn 1 = false ∧ t.chip.rd Reg.Ord.BLOCKED = 0xFF)) ∧
  (∀ s : State, Runs .summitCommonLogicFailure s (fun t => t.chip.rd Reg.Flt.TRIP = 1 ∧ t.chip.outOn 0 = false ∧ t.chip.outOn 1 = false ∧
    t.chip.rd Reg.Ord.BLOCKED = 0xFF ∧ t.chip.faults.arrivals = s.chip.faults.arrivals))

/-- R378, R379. ATTACH is accepted in LINKED, once start-up has reached LINKS and outside HALT (R402), with Bus Master Enable and Memory Space Enable set;
every way of leaving ATTACHED gives the new state of the table, and DETACH_CAUSE takes its cause; a link that comes up takes a DOWN port to LINKED.
When a port leaves ATTACHED its streams are idle, every register of its own returns to its reset value but those kept, a token it held is free with
the hold started, and every cause but an orderly DETACH puts a HOST_PORT fault, port and cause in it, before the collector. Where a clause goes beyond
the words of the rules it is the model's choice: log entries 24, 41. -/
def Obligations.PortsAttachAndLeave : Prop :=
  ((∀ (p : PortIx) (w v : Fin 8) (s : State), s.chip.rd (Reg.Port.PORT_STATE p) = 0 →
      Runs (.hostLinkUp p w v) s (fun t => t.chip.rd (Reg.Port.PORT_STATE p) = 1)) ∧
    (∀ (p : PortIx) (mps : Nat) (s : State), s.chip.rd (Reg.Port.PORT_STATE p) = 1 → 5 ≤ s.chip.rd Reg.Card.START_STATE →
      s.chip.rd Reg.Card.START_STATE ≤ 7 →
      Runs (.attach p true true mps) s (fun t => t.chip.rd (Reg.Port.PORT_STATE p) = 2 ∧ t.chip.rd (Reg.Port.ATTACH_RESULT p) = 1 ∧
        t.chip.rd (Reg.Port.ATTACH_COUNT p) = (s.chip.rd (Reg.Port.ATTACH_COUNT p) + 1) % 65536)) ∧
    (∀ (p : PortIx) (s : State), s.chip.attached p = true →
      Runs (.detach p) s (fun t => t.chip.rd (Reg.Port.PORT_STATE p) = 1 ∧ t.chip.rd (Reg.Port.DETACH_CAUSE p) = 0) ∧
      Runs (.hostLinkDown p) s (fun t => t.chip.rd (Reg.Port.PORT_STATE p) = 0 ∧ t.chip.rd (Reg.Port.DETACH_CAUSE p) = 1) ∧
      Runs (.hostResetAssert p) s (fun t => t.chip.rd (Reg.Port.PORT_STATE p) = 0 ∧ t.chip.rd (Reg.Port.DETACH_CAUSE p) = 2) ∧
      Runs (.functionLevelReset p) s (fun t => t.chip.rd (Reg.Port.PORT_STATE p) = 1 ∧ t.chip.rd (Reg.Port.DETACH_CAUSE p) = 3) ∧
      Runs (.busMasterDisable p) s (fun t => t.chip.rd (Reg.Port.PORT_STATE p) = 1 ∧ t.chip.rd (Reg.Port.DETACH_CAUSE p) = 4) ∧
      Runs (.aerUncorrectable p) s (fun t => t.chip.rd (Reg.Port.PORT_STATE p) = 1 ∧ t.chip.rd (Reg.Port.DETACH_CAUSE p) = 6)) ∧
    (∀ (p : PortIx) (dt : Nat) (s : State), s.chip.attached p = true →
      s.chip.rd (Reg.Port.WATCHDOG_MS p) * 1000000 ≤ (s.chip.advance dt).runNs - (s.chip.port p).beat →
      Runs (.hostWatchdogExpiry dt p) s (fun t => t.chip.rd (Reg.Port.PORT_STATE p) = 1 ∧ t.chip.rd (Reg.Port.DETACH_CAUSE p) = 5))) ∧
  (∀ (p : PortIx) (s : State), s.chip.attached p = true →
      Runs (.aerUncorrectable p) s (fun t =>
        (∀ st, t.chip.stream p st = StreamSt.idle) ∧
        (∀ r, t.chip.has p r = false) ∧
        (s.chip.on (Reg.Port.TOKEN p) = true → t.chip.on Reg.Ord.TOKEN_HELD = false ∧ t.chip.on Reg.Ord.HOLDING = true ∧
          t.chip.orders.targets = s.chip.orders.applied) ∧
        (∃ a ∈ t.chip.faults.arrivals, a.level = 6 ∧ a.source = p ∧ a.kind = 0xA5 ∧ a.detail = 6) ∧
        t.chip.rd (Reg.Port.ATTACH_COUNT p) = s.chip.rd (Reg.Port.ATTACH_COUNT p) ∧
        t.chip.rd (Reg.Port.HEARTBEAT p) = 0 ∧ t.chip.rd (Reg.Ord.P_ORDER_SET p) = 0 ∧ t.chip.rd (Reg.Card.FLASH_ADDR p) = 0))

/-- R380, R381, R382, R383, R385. A heartbeat restarts the port's watchdog; an ORDER port takes the free token and gives it back, with no hold. A commit
of orders takes all set registers and both mode bits at once, clamped, and reports 2 with CLAMPED_SEEN exactly when one was clamped; without the token
it is refused; when the hold ends, the ramp to the fallback values starts. Where a clause goes beyond the words of the rules it is the model's choice:
log entry 22. -/
def Obligations.OrdersCommit : Prop :=
  ((∀ (p : PortIx) (v : Word) (s : State), s.chip.attached p = true →
      Runs (.heartbeat p v) s (fun t => (t.chip.port p).beat = s.chip.runNs ∧ t.chip.rd (Reg.Port.HEARTBEAT p) = v.toNat)) ∧
    (∀ (p : PortIx) (s : State), s.chip.has p .order = true → s.chip.on Reg.Ord.TOKEN_HELD = false → s.chip.on (Reg.Port.TOKEN p) = false →
      Runs (.orderClaim p) s (fun t => t.chip.on (Reg.Port.TOKEN p) = true ∧ t.chip.on Reg.Ord.TOKEN_HELD = true ∧
        t.chip.rd Reg.Ord.TOKEN_PORT = p ∧ t.chip.rd (Reg.Port.ATTACH_RESULT p) = 1 ∧ t.chip.orders.applied = s.chip.orders.applied)) ∧
    (∀ (p q : PortIx) (s : State), s.chip.has p .order = true → s.chip.on Reg.Ord.TOKEN_HELD = true → s.chip.rd Reg.Ord.TOKEN_PORT = q →
      q ≠ p →
      Runs (.orderClaim p) s (fun t => t.chip.rd (Reg.Port.ATTACH_RESULT p) = 4 ∧ t.chip.rd Reg.Ord.TOKEN_PORT = q)) ∧
    (∀ (p : PortIx) (s : State), s.chip.attached p = true → s.chip.on (Reg.Port.TOKEN p) = true →
      Runs (.orderRelease p) s (fun t => t.chip.on (Reg.Port.TOKEN p) = false ∧ t.chip.on Reg.Ord.TOKEN_HELD = false ∧
        t.chip.on Reg.Ord.HOLDING = s.chip.on Reg.Ord.HOLDING ∧ t.chip.orders = s.chip.orders))) ∧
  ((∀ (p : PortIx) (s : State), s.chip.has p .order = true → s.chip.on (Reg.Port.TOKEN p) = true →
      Runs (.orderGo p) s (fun t =>
        let want : List Int := [s.chip.rdI (Reg.Ord.P_ORDER_SET p), s.chip.rdI (Reg.Ord.Q_ORDER_SET p), (s.chip.rd (Reg.Ord.UDC_ORDER_SET p) : Int),
          (s.chip.rd (Reg.Ord.VAC_ORDER_SET p) : Int), s.chip.rdI (Reg.Ord.P_BATT_ORDER_SET p)].map (· * 1000000000)
        let got := (List.range 5).map (fun k => s.chip.clampOrder k (want.getD k 0))
        t.chip.orders.commit = some (got, s.chip.rd (Reg.Ord.MODE_P_SET p), s.chip.rd (Reg.Ord.MODE_Q_SET p)) ∧
        t.chip.rd (Reg.Ord.ORDER_RESULT p) = (if got = want then 1 else 2) ∧
        (got ≠ want → t.chip.rd Reg.Ord.CLAMPED_SEEN = 1))) ∧
    (∀ (p : PortIx) (s : State), s.chip.has p .order = true → s.chip.on (Reg.Port.TOKEN p) = false →
      Runs (.orderGo p) s (fun t => t.chip.rd (Reg.Ord.ORDER_RESULT p) = 4 ∧ t.chip.orders = s.chip.orders)) ∧
    (∀ (dt : Nat) (s : State), s.chip.on Reg.Ord.HOLDING = true →
      s.chip.rd Reg.Ord.ORDER_HOLD_MS * 1000000 ≤ (s.chip.advance dt).runNs - s.chip.orders.holdFrom →
      Runs (.orderHoldExpiry dt) s (fun t => t.chip.on Reg.Ord.HOLDING = false ∧ t.chip.on Reg.Ord.FALLBACK_RAMP = true ∧
        t.chip.orders.targets = (List.range 5).map (fun k =>
          (s.chip.advance dt).clampOrder k (s.chip.rdI (Reg.Env.ENV_FALLBACK k) * 1000000000)) ∧
        t.chip.orders.applied = s.chip.orders.applied)))

/-- R386. BLOCK_GO blocks the regions asked for; DEBLOCK_GO is refused whole with its causes shown, or deblocks them; TRIP_GO drives TRIP_N low with every
region blocked and leaves the port attached. -/
def Obligations.BlockDeblockTrip : Prop :=
  (∀ (p : PortIx) (s : State), s.chip.has p .order = true ∨ s.chip.has p .protect = true →
    Runs (.blockGo p) s (fun t => t.chip.rd (Reg.Ord.BLK_RESULT p) = 1 ∧
      t.chip.rd Reg.Ord.BLOCKED = (s.chip.rd Reg.Ord.BLOCKED ||| s.chip.rd (Reg.Ord.BLOCK_REQ p)) % 256)) ∧
  (∀ (p : PortIx) (s : State), s.chip.has p .order = true → s.chip.on (Reg.Port.TOKEN p) = true → s.chip.deblockCause ≠ 0 →
    Runs (.deblockGo p) s (fun t => t.chip.rd (Reg.Ord.BLK_RESULT p) = 2 ∧ t.chip.on Reg.Ord.DEBLOCK_REFUSED_SEEN = true ∧
      t.chip.rd Reg.Ord.BLOCKED = s.chip.rd Reg.Ord.BLOCKED ∧ t.chip.rd Reg.Ord.DEBLOCK_CAUSE = s.chip.deblockCause % 64)) ∧
  (∀ (p : PortIx) (s : State), s.chip.has p .order = true → s.chip.on (Reg.Port.TOKEN p) = true → s.chip.deblockCause = 0 →
    s.chip.orders.justBlocked.2 ≠ s.chip.frame →
    Runs (.deblockGo p) s (fun t => t.chip.rd (Reg.Ord.BLK_RESULT p) = 1 ∧ t.chip.rd Reg.Ord.DEBLOCK_CAUSE = 0 ∧
      ∀ r < 8, t.chip.blocked r = (s.chip.blocked r && !(bits (s.chip.rd (Reg.Ord.DEBLOCK_REQ p)) r 1 == 1)))) ∧
  (∀ (p : PortIx) (s : State), s.chip.has p .protect = true →
    Runs (.tripGo p) s (fun t => t.chip.on Reg.Flt.TRIP = true ∧ t.chip.rd Reg.Ord.BLOCKED = 0xFF ∧
      t.chip.rd (Reg.Ord.BLK_RESULT p) = 1 ∧ t.chip.attached p = s.chip.attached p))

/-- R387, R388, R390, R392. A stream that a port with its right enables, its ring well placed, is ACTIVE from an empty ring, and is refused otherwise; the
oldest record of its buffer goes into the ring at WR_PTR, the head mirror after it; a record that finds the buffer full is dropped whole and counted,
and SEQ counts it; writes leave the engine when they are acknowledged; records that wait for INT_DELAY signal once. Where a clause goes beyond the
words of the rules it is the model's choice: log entries 23, 41. -/
def Obligations.Streams : Prop :=
  (∀ (p : PortIx) (st : StreamIx) (s : State),
    (s.chip.attached p = false → Runs (.streamEnable p st) s (fun t => t.chip.rd (Reg.Strm.STREAM_RESULT p st) = 4 ∧
      OnlyFields [Reg.Strm.STREAM_RESULT p st] s t)) ∧
    (s.chip.attached p = true → s.chip.has p (streamRight st) = false → Runs (.streamEnable p st) s (fun t =>
      t.chip.rd (Reg.Strm.STREAM_RESULT p st) = 2 ∧ t.chip.rd (Reg.Strm.ACTIVE p st) = s.chip.rd (Reg.Strm.ACTIVE p st) ∧
      t.chip.streams = s.chip.streams)) ∧
    (s.chip.has p (streamRight st) = true → s.chip.rd (Reg.Strm.ACTIVE p st) = 0 →
      (s.chip.ringBase p st % 4096 = 0 → 12 ≤ s.chip.rd (Reg.Strm.RING_SIZE_LOG2 p st) → s.chip.rd (Reg.Strm.RING_SIZE_LOG2 p st) ≤ 24 →
        s.chip.headAddr p st % 8 = 0 →
        Runs (.streamEnable p st) s (fun t => t.chip.rd (Reg.Strm.ACTIVE p st) = 1 ∧ t.chip.rd (Reg.Strm.STREAM_RESULT p st) = 1 ∧
          t.chip.rd (Reg.Strm.WR_PTR p st) = 0 ∧ t.chip.rd (Reg.Strm.RD_PTR p st) = 0 ∧
          (st.val ≠ 2 → t.chip.stream p st = StreamSt.idle ∧ t.chip.rd (Reg.Strm.BUF_LEVEL p st) = 0))) ∧
      (s.chip.ringBase p st % 4096 ≠ 0 ∨ s.chip.rd (Reg.Strm.RING_SIZE_LOG2 p st) < 12 ∨ 24 < s.chip.rd (Reg.Strm.RING_SIZE_LOG2 p st) ∨
        s.chip.headAddr p st % 8 ≠ 0 →
        Runs (.streamEnable p st) s (fun t => t.chip.rd (Reg.Strm.STREAM_RESULT p st) = 3 ∧
          OnlyFields [Reg.Strm.STREAM_RESULT p st] s t)))) ∧
  (∀ (p : PortIx) (st : StreamIx) (v : Word) (s : State),
    (s.chip.attached p = true → Runs (.rdPtrWrite p st v) s (fun t =>
      t.chip.rd (Reg.Strm.RD_PTR p st) = v.toNat % 2 ^ (Reg.Strm.RD_PTR p st).width ∧ OnlyFields [Reg.Strm.RD_PTR p st] s t)) ∧
    (s.chip.attached p = false → Does (.rdPtrWrite p st v) s (s.chip.refuse p))) ∧
  (∀ (dt : Nat) (p : PortIx) (st : StreamIx) (r : StreamRec) (rest : List StreamRec) (s : State),
    let size := 2 ^ s.chip.rd (Reg.Strm.RING_SIZE_LOG2 p st)
    let w := s.chip.rd (Reg.Strm.WR_PTR p st)
    (s.chip.stream p st).buf = r :: rest → st.val ≠ 2 → s.chip.rd (Reg.Strm.ACTIVE p st) = 1 → w + r.len ≤ size →
    r.len < s.chip.ringFree p st → (s.chip.port p).inFlight = [] → r.len ≤ 256 →
    Runs (.streamRecordWrite dt p st) s (fun t => (t.chip.stream p st).buf = rest ∧
      t.chip.rd (Reg.Strm.WR_PTR p st) = (w + r.len) % size % 2 ^ (Reg.Strm.WR_PTR p st).width ∧
      t.chip.rd (Reg.Strm.RECORDS_SENT p st) = (s.chip.rd (Reg.Strm.RECORDS_SENT p st) + 1) % 2 ^ (Reg.Strm.RECORDS_SENT p st).width ∧
      (t.chip.port p).inFlight.getLast? = some (s.chip.headAddr p st, leBytes 8 ((w + r.len) % size)))) ∧
  (∀ (dt : Nat) (p : PortIx) (st : StreamIx) (s : State), (s.chip.stream p st).buf = [] →
    Does (.streamRecordWrite dt p st) s (s.chip.advance dt)) ∧
  (∀ (p : PortIx) (st : StreamIx) (len : Nat) (s : State), st.val ≠ 2 → s.chip.rd (Reg.Strm.ACTIVE p st) = 1 →
    16384 < bufUnits (s.chip.stream p st).buf * 16 + len →
    Runs (.streamRecordDrop p st len) s (fun t => (t.chip.stream p st).buf = (s.chip.stream p st).buf ∧
      (t.chip.stream p st).seq = ((s.chip.stream p st).seq + 1) % 2 ^ 32 ∧
      t.chip.rd (Reg.Strm.RECORDS_DROPPED p st) =
        (s.chip.rd (Reg.Strm.RECORDS_DROPPED p st) + 1) % 2 ^ (Reg.Strm.RECORDS_DROPPED p st).width ∧
      t.chip.rd (Reg.Port.DROP_SEEN p) = 1)) ∧
  (∀ (p : PortIx) (s : State), Runs (.dmaAck p) s (fun t => (t.chip.port p).inFlight = (s.chip.port p).inFlight.drop 1 ∧
    t.chip.rd (Reg.Port.IN_FLIGHT p) = ((s.chip.port p).inFlight.length - 1) % 2 ^ (Reg.Port.IN_FLIGHT p).width)) ∧
  (∀ (dt : Nat) (p : PortIx) (st : StreamIx) (s : State), 0 < (s.chip.stream p st).unsignalled →
    (s.chip.stream p st).firstAt + s.chip.rd (Reg.Strm.INT_DELAY p st) * 1000 ≤ (s.chip.advance dt).runNs →
    Runs (.intDelayExpiry dt p st) s (fun t => (t.chip.stream p st).unsignalled = 0 ∧
      (s.chip.rd (Reg.Msix.MASK p (st + 1)) = 1 → t.chip.rd (Reg.Msix.PENDING p (st + 1)) = 1 ∧ t.chip.ports = s.chip.ports) ∧
      (s.chip.rd (Reg.Msix.MASK p (st + 1)) = 0 → (t.chip.port p).irqs = countAt (st + 1) (s.chip.port p).irqs)))

/-- R375, R377, R392, R413, R414. A malformed access and a correctable link error are counted and flagged while the port is not DOWN. A write of a
register word reaches nothing at a reserved offset or from a port that is DOWN; an order value is taken from an ORDER port and refused, with its
count, from an attached port without it; a sticky flag is cleared by the bits that are written as 1 and by no other. Where a clause goes beyond the
words of the rules it is the model's choice: log entries 21, 22, 23. -/
def Obligations.RegisterWrites : Prop :=
  (∀ (p : PortIx) (w : Bool) (s : State),
    (s.chip.rd (Reg.Port.PORT_STATE p) ≠ 0 →
      Runs (.malformedAccess p w) s (fun t => t.chip.rd (Reg.Port.ACCESS_ERR_SEEN p) = 1 ∧
        t.chip.rd (Reg.Port.ACCESS_ERR p) = (s.chip.rd (Reg.Port.ACCESS_ERR p) + 1) % 2 ^ (Reg.Port.ACCESS_ERR p).width) ∧
      Runs (.linkCorrectableError p) s (fun t => t.chip.rd (Reg.Port.LINK_ERR_SEEN p) = 1 ∧
        t.chip.rd (Reg.Port.PORT_STATE p) = s.chip.rd (Reg.Port.PORT_STATE p))) ∧
    (s.chip.rd (Reg.Port.PORT_STATE p) = 0 → Does (.malformedAccess p w) s s.chip ∧ Does (.linkCorrectableError p) s s.chip)) ∧
  (∀ (p : PortIx) (off : Nat) (data : Word) (s : State), s.chip.rd (Reg.Port.PORT_STATE p) = 0 ∨ hostWord p off = [] →
    Does (.registerWrite p off data) s s.chip) ∧
  (∀ (p : PortIx) (data : Word) (s : State),
    (s.chip.has p .order = true → Runs (.registerWrite p 0x2000 data) s (fun t => t.chip.rd (Reg.Ord.P_ORDER_SET p) =
      data.toNat % 2 ^ (Reg.Ord.P_ORDER_SET p).width ∧ OnlyFields [Reg.Ord.P_ORDER_SET p] s t)) ∧
    (s.chip.attached p = true → s.chip.has p .order = false → s.chip.inState 8 = false →
      Runs (.registerWrite p 0x2000 data) s (fun t => t.chip.rd (Reg.Ord.P_ORDER_SET p) = s.chip.rd (Reg.Ord.P_ORDER_SET p) ∧
        t.chip.rd (Reg.Port.RIGHTS_REFUSED p) = (s.chip.rd (Reg.Port.RIGHTS_REFUSED p) + 1) % 2 ^ (Reg.Port.RIGHTS_REFUSED p).width ∧
        t.chip.rd (Reg.Port.RIGHTS_SEEN p) = 1)) ∧
    (s.chip.has p .maint = true → ∀ f ∈ [Reg.Time.REF_ACQUIRED, Reg.Time.REF_LOST, Reg.Time.STEP_DONE, Reg.Time.REF_REJECTED,
      Reg.Time.PPS_MISSING, Reg.Time.FRAME_RESYNC], s.chip.rd f < 2 →
      Runs (.registerWrite p 0x4018 data) s (fun t =>
        t.chip.rd f = if bits data.toNat (f.key % 32) 1 = 1 then 0 else s.chip.rd f)))

/-- R5, R44, R143, R228, R238, R251, R271, R327, R345, R348, R377. A read of the low word of a group by a port with OBSERVE copies the whole group into
that port's own snapshot and changes nothing else; TIME_NS and ANGLE latch the present instant. Without OBSERVE nothing is latched. The probes of a
port show what the block holds of the cell they name as they are read; a log entry is read by its sequence number, with a result that says whether it
is held; the die identity is what is fused, for every port that is not DOWN. A read of a low word of a cell latches the words that it snapshots;
CELL_TIME_NS latches the present cell time, and BUF_W0 the buffer entry that BUF_SEL names. Where a clause goes beyond the words of the rules it is
the model's choice: log entry 45. -/
def Obligations.SnapshotReads : Prop :=
  ((∀ (p : PortIx) (s : State), s.chip.has p .observe = true →
      let latches (i : Instr) (l : List Fld) : Prop := Runs i s (fun t =>
        (∀ f ∈ l, t.chip.rd (f.snap p) = s.chip.rd f % 2 ^ f.width) ∧ OnlyFields (l.map (fun f => f.snap p)) s t)
      let latchesOwn (i : Instr) (l : List Fld) : Prop := Runs i s (fun t =>
        (∀ f ∈ l, t.chip.rd f.snapOwn = s.chip.rd f % 2 ^ f.width) ∧ OnlyFields (l.map Fld.snapOwn) s t)
      latches (.ptpGmIdLoRead p) [Reg.Time.PTP_GM_ID_LO, Reg.Time.PTP_GM_ID_HI] ∧
      (∀ (g : RopeIx) (e : EndIx), latches (.testErrCountRead p (.ridge g e)) [Reg.RLane.TEST_ERR_COUNT g e, Reg.RLane.TEST_BITS g e]) ∧
      (∀ r : RegionIx, latchesOwn (.probeKeyRead p r) (rankGroup p r) ∧ latches (.refV0Read p r) (armGroup r)) ∧
      latchesOwn (.prSocRead p) (polGroup p) ∧
      (∀ j : Fin 128, latches (.slotOutRead p j) (slotGroup j)) ∧
      (∀ a : CellAddr, latches (.ctStateRead p a) (cellGroup a)) ∧
      latches (.firstMsgLoRead p) [Reg.Flt.FIRST_MSG_LO, Reg.Flt.FIRST_MSG_HI, Reg.Flt.FIRST_STAMP, Reg.Flt.FIRST_FRAME, Reg.Flt.FIRST_SEV,
        Reg.Flt.FIRST_VALID, Reg.Flt.FIRST_COMPANIONS] ∧
      (∀ dt : Nat, Runs (.timeNsRead dt p) s (fun t =>
        t.chip.rd (Reg.Time.TIME_NS.snap p) = (s.chip.advance dt).nowNs % 1000000000 ∧
        t.chip.rd (Reg.Time.TIME_SEC_LO.snap p) = (s.chip.advance dt).nowNs / 1000000000 % 2 ^ 32 ∧
        t.chip.rd (Reg.Time.FRAME_NUM.snap p) = s.chip.rd Reg.Time.FRAME_NUM % 2 ^ 32)) ∧
      (∀ (dt : Nat) (n : ChanIx), Runs (.angleRead dt p n) s (fun t =>
        t.chip.rd ((Reg.Angle.STAMP n).snap p) = (s.chip.advance dt).nowNs % 2 ^ 32 ∧
        t.chip.rd ((Reg.Angle.RATE n).snap p) = s.chip.rd (Reg.Angle.RATE n) % 2 ^ (Reg.Angle.RATE n).width ∧
        t.chip.rd (Reg.Angle.ANGLE n) = s.chip.rd (Reg.Angle.ANGLE n)))) ∧
    (∀ (p : PortIx) (r : RegionIx) (j : Fin 128) (a : CellAddr) (s : State), s.chip.has p .observe = false →
      ∀ i ∈ [Instr.ptpGmIdLoRead p, .probeKeyRead p r, .refV0Read p r, .prSocRead p, .slotOutRead p j, .impAbsRead p, .admStateRead p,
        .ppPackStateRead p, .ctStateRead p a, .firstMsgLoRead p, .logW0Read p], Does i s s.chip)) ∧
  ((∀ (p : PortIx) (s : State), s.chip.has p .observe = true →
      (let a := s.chip.rd (Reg.Adm.ADM_CELL p);
        Runs (.admStateRead p) s (fun t => t.chip.rd (Reg.Adm.ADM_STATE p).snapOwn = (s.chip.posn a).admState % 2 ^ (Reg.Adm.ADM_STATE p).width ∧
          t.chip.rd (Reg.Adm.ADM_EPOCH p).snapOwn = (s.chip.posn a).epochRec % 2 ^ (Reg.Adm.ADM_EPOCH p).width ∧ t.chip.pos = s.chip.pos)) ∧
      (let a := s.chip.rd (Reg.Xchg.PACK_PROBE_CELL p);
        Runs (.ppPackStateRead p) s (fun t =>
          t.chip.rd (Reg.Xchg.PP_PACK_STATE p).snapOwn = s.chip.packState a % 2 ^ (Reg.Xchg.PP_PACK_STATE p).width ∧
          t.chip.rd (Reg.Xchg.PP_XCHG_STATE p).snapOwn = (s.chip.xch a).state % 2 ^ (Reg.Xchg.PP_XCHG_STATE p).width ∧
          t.chip.xchs = s.chip.xchs)) ∧
      (∀ x, findKey (8 * s.chip.rd (Reg.Sweep.IMP_PROBE_CELL p) + s.chip.rd (Reg.Sweep.IMP_PROBE_POINT p)) s.chip.sweep.results = some x →
        Runs (.impAbsRead p) s (fun t => t.chip.rd (Reg.Sweep.IMP_ABS p).snapOwn = x.absZ % 2 ^ (Reg.Sweep.IMP_ABS p).width ∧
          t.chip.rd (Reg.Sweep.IMP_FREQ p).snapOwn = x.freq % 2 ^ (Reg.Sweep.IMP_FREQ p).width)) ∧
      (findKey (8 * s.chip.rd (Reg.Sweep.IMP_PROBE_CELL p) + s.chip.rd (Reg.Sweep.IMP_PROBE_POINT p)) s.chip.sweep.results = none →
        Runs (.impAbsRead p) s (fun t => t.chip.rd (Reg.Sweep.IMP_ABS p).snapOwn = 0 ∧ t.chip.rd (Reg.Sweep.IMP_AGE p).snapOwn = 0xFFFF)) ∧
      Runs (.logW0Read p) s (fun t => t.chip.rd (Reg.Flt.LOG_RESULT p) =
        ringPlace (s.chip.rd Reg.Flt.LOG_HEAD) (s.chip.rd (Reg.Flt.LOG_SEL p)) 16384 % 2 ^ (Reg.Flt.LOG_RESULT p).width ∧
        t.chip.faults = s.chip.faults)) ∧
    (∀ (p : PortIx) (s : State), s.chip.rd (Reg.Port.PORT_STATE p) ≠ 0 →
      Runs (.dieUidLoRead p) s (fun t => t.chip.rd (dieUidLo.snap p) = s.fuses.dieUid % 2 ^ 32 ∧
        t.chip.rd (dieUidHi.snap p) = s.fuses.dieUid / 2 ^ 32 % 2 ^ 32)) ∧
    (∀ (p : PortIx) (s : State), s.chip.rd (Reg.Port.PORT_STATE p) = 0 → Does (.dieUidLoRead p) s s.chip)) ∧
  ((∀ (a : CellAddr) (b : LaneIx) (p : PortIx) (k : Fin 4) (s : State),
      ∀ x ∈ [(Instr.headLoRead a, 0xF1), (.bcIntegRead a, 0x9C), (.chargeWhLoRead a, 0xE1), (.corrReRead a k, 0x72 + 4 * k.val),
        (.testErrCountRead p (.cell a b), 0x37 + 16 * b.val)],
        Runs x.1 s (fun t => (∀ w ∈ snapOf x.2, ∀ f ∈ mgmtAt w, t.chip.rd (f.cell a).cellSnap = s.chip.rd (f.cell a) % 2 ^ f.width) ∧
          OnlyFields ((snapOf x.2).flatMap (fun w => (mgmtAt w).map (fun f => (f.cell a).cellSnap))) s t)) ∧
    (∀ (a : CellAddr) (s : State), Runs (.cellTimeNsRead a) s (fun t =>
      t.chip.rd (Reg.CTime.CELL_TIME_NS a) = (s.chip.ct a).time / 256 % 1000000000 ∧
      t.chip.rd (Reg.CTime.CELL_TIME_SEC_LO a).cellSnap = (s.chip.ct a).time / 256 / 1000000000 % 2 ^ 32 ∧ t.chip.ctime = s.chip.ctime)) ∧
    (∀ (a : CellAddr) (s : State), let e := mapGet (0, 0) (s.chip.meas1 a).buf (s.chip.rd (Reg.Adc.BUF_SEL a))
      Runs (.bufW0Read a) s (fun t => (t.chip.cmd a).data = e.1 ∧ t.chip.rd (Reg.Adc.BUF_W1 a).cellSnap = e.2 % 2 ^ 32 ∧
        t.chip.meas = s.chip.meas)))

/-- R397, R400, R402, R403, R404, R409. Start-up step by step: reset is left only with every supply up, into SELF_TEST or HALT_FUSE (a factory test mode,
of which the specification says nothing, is a fault); the self-test leads to CARD_READ or HALT_SELFTEST; reading the cards selects the passing
candidate of the highest CARD_SEQ or halts; validation leads to CONFIGURE or halts with its conflict; CONFIGURE loads the card and burns what it asks
for; LINKS leads to RUN with TRIP_N released and the station channels online. A command of another state changes nothing. A restart leaves HALT alone.
Where a clause goes beyond the words of the rules it is the model's choice: log entries 7, 20, 42. -/
def Obligations.StartUp : Prop :=
  (∀ (tm : Fin 4) (ok : Bool) (s : State),
    (s.chip.rd Reg.Card.START_STATE ≠ 0 ∨ s.chip.recov.supplyLow ≠ [] → Does (.wcResetRelease tm ok) s s.chip) ∧
    (s.chip.rd Reg.Card.START_STATE = 0 → s.chip.recov.supplyLow = [] → tm.val = 0 ∨ s.fuses.fieldClosed = true →
      Runs (.wcResetRelease tm ok) s (fun t => OnlyFields [Reg.Card.START_STATE, Reg.Card.HALT_CODE] s t ∧
        (ok = true → t.chip.rd Reg.Card.START_STATE = 1 ∧ t.chip.rd Reg.Card.HALT_CODE = s.chip.rd Reg.Card.HALT_CODE) ∧
        (ok = false → t.chip.rd Reg.Card.START_STATE = 8 ∧ t.chip.rd Reg.Card.HALT_CODE = 1))) ∧
    (s.chip.rd Reg.Card.START_STATE = 0 → s.chip.recov.supplyLow = [] → tm.val ≠ 0 → s.fuses.fieldClosed = false →
      exec (.wcResetRelease tm ok) s = .fault .factoryTestMode)) ∧
  (∀ (summit safety : Bool) (planes : List (Fin 2)) (ridges : List RidgeIx) (recorder : Bool) (s : State),
    s.chip.rd Reg.Card.START_STATE = 1 →
    Runs (.selfTestDone summit safety planes ridges recorder) s (fun t =>
      if summit = false ∨ safety = false ∨ (0 ∈ planes ∧ 1 ∈ planes) then
        t.chip.rd Reg.Card.START_STATE = 8 ∧ t.chip.rd Reg.Card.HALT_CODE = 2 ∧
          OnlyFields [Reg.Card.START_STATE, Reg.Card.HALT_CODE] s t
      else t.chip.rd Reg.Card.START_STATE = 2 ∧ t.chip.rd Reg.Card.HALT_CODE = s.chip.rd Reg.Card.HALT_CODE ∧
        t.chip.start.recorderBad = !recorder)) ∧
  (∀ (sigA sigB : Bool) (s : State), s.chip.rd Reg.Card.START_STATE = 2 →
    Runs (.cardReadDone false false sigA sigB) s (fun t => t.chip.rd Reg.Card.START_STATE = 8 ∧ t.chip.rd Reg.Card.HALT_CODE = 3 ∧
      t.chip.flash = s.chip.flash)) ∧
  (∀ (a b sigA sigB : Bool) (s : State), s.chip.rd Reg.Card.START_STATE = 2 →
    let va := s.chip.viewCopy s.fuses 0 a sigA
    let vb := s.chip.viewCopy s.fuses 1 b sigB
    (va.candidate vb = true → va.passes = true → vb.seq ≤ va.seq ∨ vb.candidate va = false ∨ vb.passes = false →
      Runs (.cardReadDone a b sigA sigB) s (fun t => t.chip.rd Reg.Card.START_STATE = 3 ∧ t.chip.rd Reg.Card.ACTIVE_COPY = 0 ∧
        t.chip.rd Reg.Card.COPY_A_STATUS = (if va.committed = true then 3 else 2))) ∧
    (a = true ∨ b = true → va.candidate vb = false ∨ va.passes = false → vb.candidate va = false ∨ vb.passes = false →
      Runs (.cardReadDone a b sigA sigB) s (fun t => t.chip.rd Reg.Card.START_STATE = 8 ∧ t.chip.rd Reg.Card.HALT_CODE = 4))) ∧
  (∀ (image : Option (Fin 65536 × Word)) (card : Card) (s : State), s.chip.rd Reg.Card.START_STATE = 3 →
    let h := s.chip.header (s.chip.rd Reg.Card.ACTIVE_COPY)
    ((s.fuses.stepMajor, s.fuses.stepMinor) ∉ steppingList h 128 →
      Runs (.validateDone image card) s (fun t => t.chip.rd Reg.Card.START_STATE = 8 ∧ t.chip.rd Reg.Card.HALT_CODE = 5)) ∧
    (∀ x, (s.fuses.stepMajor, s.fuses.stepMinor) ∈ steppingList h 128 →
      cardFinding s.fuses h (image.map (fun e => (e.1.val, e.2.toNat))) card = some x →
      Runs (.validateDone image card) s (fun t => t.chip.rd Reg.Card.START_STATE = 8 ∧ t.chip.rd Reg.Card.HALT_CODE = 6 ∧
        t.chip.rd Reg.Card.CONFLICT_CODE = x.1 % 2 ^ 16 ∧ t.chip.rd Reg.Card.CONFLICT_DETAIL = x.2 % 2 ^ 32)) ∧
    ((s.fuses.stepMajor, s.fuses.stepMinor) ∈ steppingList h 128 →
      cardFinding s.fuses h (image.map (fun e => (e.1.val, e.2.toNat))) card = none →
      Runs (.validateDone image card) s (fun t => t.chip.rd Reg.Card.START_STATE = 4 ∧ t.chip.start.card = some card))) ∧
  (∀ (card : Card) (s : State), s.chip.rd Reg.Card.START_STATE = 4 → s.chip.start.card = some card →
    Runs (.configureDone false) s (fun t => t.chip.rd Reg.Card.START_STATE = 8 ∧ t.chip.rd Reg.Card.HALT_CODE = 2 ∧ t.fuses = s.fuses) ∧
    Runs (.configureDone true) s (fun t => t.chip.rd Reg.Card.START_STATE = 5 ∧ t.chip.rd Reg.Saf.SAFETY_OK = 1 ∧
      t.chip.rd Reg.Saf.TRIP_DEMAND = 0 ∧ t.chip.start.card = none ∧
      t.fuses = s.fuses.burn (s.chip.header (s.chip.rd Reg.Card.ACTIVE_COPY)))) ∧
  (∀ (ms : Nat) (s : State),
    (s.chip.rd Reg.Card.START_STATE ≠ 5 → Does (.linksDone ms) s s.chip) ∧
    (s.chip.rd Reg.Card.START_STATE = 5 → Runs (.linksDone ms) s (fun t => t.chip.rd Reg.Card.START_STATE = 6 ∧
      t.chip.rd Reg.Card.STARTUP_MS = satNat 32 ms ∧ t.chip.rd (Reg.Can.CAN_STATE 16384) = 1 ∧ t.chip.rd (Reg.Can.CAN_STATE 16385) = 1 ∧
      (s.chip.rd Reg.Saf.TRIP_DEMAND = 0 → t.chip.rd Reg.Flt.TRIP = 0)))) ∧
  (∀ (p : PortIx) (s : State),
    (s.chip.rd Reg.Card.START_STATE ≠ 8 ∨ s.chip.rd (Reg.Port.PORT_STATE p) ≠ 1 → Does (.restartGo p) s s.chip) ∧
    (s.chip.rd Reg.Card.START_STATE = 8 → s.chip.rd (Reg.Port.PORT_STATE p) = 1 → s.chip.start.job = none →
      Does (.restartGo p) s s.chip.wcReset) ∧
    (s.chip.rd Reg.Card.START_STATE = 8 → s.chip.rd (Reg.Port.PORT_STATE p) = 1 → s.chip.start.job.isSome = true →
      Does (.restartGo p) s { s.chip with start := { s.chip.start with restartDue := true } }))

/-- R397, R405, R406, R407, R408. A flash order needs MAINT and the copy that is not active, one at a time; while it runs FLASH_RESULT is 1, and at its
end 2 or 6; an erase leaves its sector erased, a read the page in the port's registers, a program what the page and the old bytes have in common.
Provisioning needs MAINT, RUN and every region blocked; it ends with the reason of its refusal and RUN, or switches to the new card at the boundary
and burns what the card asks for. Where a clause goes beyond the words of the rules it is the model's choice: log entries 2, 20, 42. -/
def Obligations.Provisioning : Prop :=
  (∀ (p : PortIx) (s : State), ∀ i ∈ [Instr.eraseGo p, .programGo p, .readGo p],
    (s.chip.rd Reg.Card.START_STATE ≠ 8 → s.chip.has p .maint = false → Runs i s (fun t =>
      t.chip.rd (Reg.Card.FLASH_RESULT p) = 4 ∧ t.chip.start.job = s.chip.start.job ∧ t.chip.flash = s.chip.flash)) ∧
    (s.chip.rd Reg.Card.START_STATE = 6 → s.chip.has p .maint = true → s.chip.rd (Reg.Card.FLASH_COPY p) = s.chip.rd Reg.Card.ACTIVE_COPY →
      Runs i s (fun t => t.chip.rd (Reg.Card.FLASH_RESULT p) = 3 ∧ OnlyFields [Reg.Card.FLASH_RESULT p] s t)) ∧
    (s.chip.rd Reg.Card.START_STATE = 6 → s.chip.has p .maint = true → s.chip.rd (Reg.Card.FLASH_COPY p) ≠ s.chip.rd Reg.Card.ACTIVE_COPY →
      s.chip.start.job.isSome = true → Runs i s (fun t => t.chip.rd (Reg.Card.FLASH_RESULT p) = 5 ∧ OnlyFields [Reg.Card.FLASH_RESULT p] s t)) ∧
    (s.chip.rd Reg.Card.START_STATE = 6 → s.chip.has p .maint = true → s.chip.rd (Reg.Card.FLASH_COPY p) ≠ s.chip.rd Reg.Card.ACTIVE_COPY →
      s.chip.start.job = none → Runs i s (fun t => t.chip.rd (Reg.Card.FLASH_RESULT p) = 1 ∧
        ∃ j, t.chip.start.job = some j ∧ j.port = p ∧ j.copy = s.chip.rd (Reg.Card.FLASH_COPY p) ∧ j.addr = s.chip.rd (Reg.Card.FLASH_ADDR p)))) ∧
  (∀ (j : FlashJob) (s : State), s.chip.start.job = some j → s.chip.start.restartDue = false →
    Runs (.flashOpDone true) s (fun t => t.chip.rd (Reg.Card.FLASH_RESULT j.port) = 2 ∧ t.chip.start.job = none ∧
      (j.op = 0 → ∀ n < 262144, t.chip.page j.copy n = if n / 256 = j.addr / 65536 then erasedPage else s.chip.page j.copy n) ∧
      (j.op = 1 → t.chip.page j.copy (j.addr / 256) =
        (List.range 256).map (fun k => (s.chip.page j.copy (j.addr / 256)).getD k 0xFF &&& j.page.getD k 0xFF)) ∧
      (j.op = 2 → t.chip.flash = s.chip.flash ∧ ∀ k < 64, t.chip.rd (Reg.Card.FLASH_PAGE j.port k) =
        leAt (s.chip.page j.copy (j.addr / 256)) (4 * k) 4 % 2 ^ 32)) ∧
    Runs (.flashOpDone false) s (fun t => t.chip.rd (Reg.Card.FLASH_RESULT j.port) = 6 ∧ t.chip.start.job = none)) ∧
  (∀ (ok : Bool) (s : State), s.chip.start.job = none → Does (.flashOpDone ok) s s.chip) ∧
  (∀ (p : PortIx) (ok : Bool) (s t : State), ∀ i ∈ [Instr.eraseGo p, .programGo p, .readGo p, .flashOpDone ok],
    mapWf erasedPage s.chip.flash = true → exec i s = .next t → mapWf erasedPage t.chip.flash = true) ∧
  (∀ (p : PortIx) (s : State),
    (s.chip.has p .maint = false → Runs (.provisionGo p) s (fun t => t.chip.rd (Reg.Card.PROV_RESULT p) = 4 ∧
      t.chip.rd Reg.Card.START_STATE = s.chip.rd Reg.Card.START_STATE)) ∧
    (s.chip.has p .maint = true → s.chip.rd Reg.Card.START_STATE ≠ 6 ∨ s.chip.rd Reg.Ord.BLOCKED ≠ 0xFF ∨ s.chip.rd Reg.Xchg.XCHG_ACTIVE ≠ 0 →
      Runs (.provisionGo p) s (fun t => t.chip.rd (Reg.Card.PROV_RESULT p) = 3 ∧ OnlyFields [Reg.Card.PROV_RESULT p] s t)) ∧
    (s.chip.has p .maint = true → s.chip.rd Reg.Card.START_STATE = 6 → s.chip.rd Reg.Ord.BLOCKED = 0xFF → s.chip.rd Reg.Xchg.XCHG_ACTIVE = 0 →
      s.chip.cal.running = none → Runs (.provisionGo p) s (fun t => t.chip.rd (Reg.Card.PROV_RESULT p) = 1 ∧
        t.chip.rd Reg.Card.START_STATE = 7 ∧ t.chip.start.provPort = some p.val))) ∧
  (∀ (dt : Nat) (sigOk : Bool) (image : Option (Fin 65536 × Word)) (card : Card) (p : PortIx) (s : State),
    s.chip.rd Reg.Card.START_STATE = 7 → s.chip.start.provPort = some p.val →
    let k := 1 - s.chip.rd Reg.Card.ACTIVE_COPY
    let h := s.chip.header k
    (headerOk h = false → Runs (.provisionDone dt sigOk image card) s (fun t => t.chip.rd Reg.Card.START_STATE = 6 ∧
      t.chip.rd (Reg.Card.PROV_RESULT p) = 6 ∧ t.chip.rd Reg.Card.PROV_CONFLICT_CODE = 0x1301 ∧ t.fuses = s.fuses ∧
      t.chip.card = s.chip.card)) ∧
    (headerOk h = true → leAt h 16 1 < s.fuses.rollback ∨ sigOk = false ∨ (s.fuses.keyBound = true ∧ keyHashOf h ≠ s.fuses.keyHash) ∨
        leAt h 12 4 ≤ s.chip.rd Reg.Card.CARD_SEQ →
      Runs (.provisionDone dt sigOk image card) s (fun t => t.chip.rd Reg.Card.START_STATE = 6 ∧ t.chip.rd (Reg.Card.PROV_RESULT p) = 5 ∧
        t.fuses = s.fuses ∧ t.chip.card = s.chip.card)) ∧
    (headerOk h = true → s.fuses.rollback ≤ leAt h 16 1 → sigOk = true → s.fuses.keyBound = false ∨ keyHashOf h = s.fuses.keyHash →
      s.chip.rd Reg.Card.CARD_SEQ < leAt h 12 4 → (∀ x, cardFinding s.fuses h (image.map (fun e => (e.1.val, e.2.toNat))) card = some x →
        Runs (.provisionDone dt sigOk image card) s (fun t => t.chip.rd Reg.Card.START_STATE = 6 ∧ t.chip.rd (Reg.Card.PROV_RESULT p) = 6 ∧
          t.chip.rd Reg.Card.PROV_CONFLICT_CODE = x.1 % 2 ^ 16 ∧ t.fuses = s.fuses ∧ t.chip.card = s.chip.card))) ∧
    (headerOk h = true → s.fuses.rollback ≤ leAt h 16 1 → sigOk = true → s.fuses.keyBound = false ∨ keyHashOf h = s.fuses.keyHash →
      s.chip.rd Reg.Card.CARD_SEQ < leAt h 12 4 → cardFinding s.fuses h (image.map (fun e => (e.1.val, e.2.toNat))) card = none →
      Runs (.provisionDone dt sigOk image card) s (fun t => t.chip.rd Reg.Card.START_STATE = 6 ∧ t.chip.rd (Reg.Card.PROV_RESULT p) = 2 ∧
        t.chip.start.provPort = none ∧ t.fuses = s.fuses.burn h)))

/-- R409, R410, R411. Field closure is armed by MAINT and closes only with the code, an active card that allows it, a bound key and every region blocked
in RUN; the arm expires after 10 s; a WN140 closes only in BIVOUAC, once, with its code. A refusal leaves every fuse as it was; an accepted one blows
that one fuse. Where a clause goes beyond the words of the rules it is the model's choice: log entry 42. -/
def Obligations.FieldClosure : Prop :=
  (∀ (p : PortIx) (s : State),
    (s.chip.has p .maint = true → Does (.fieldCloseArm p) s { s.chip with start := { s.chip.start with armed := some (p.val, s.chip.runNs) } }) ∧
    (s.chip.has p .maint = false → Runs (.fieldCloseArm p) s (fun t => t.chip.rd (Reg.Card.FIELD_RESULT p) = 3 ∧
      t.chip.start = s.chip.start))) ∧
  (∀ (p : PortIx) (dt : Nat) (s : State),
    (s.chip.has p .maint = false → Runs (.fieldCloseGo p dt) s (fun t => t.chip.rd (Reg.Card.FIELD_RESULT p) = 3 ∧ t.fuses = s.fuses)) ∧
    (s.chip.has p .maint = true → (s.chip.advance dt).fieldArmed p = false →
      Runs (.fieldCloseGo p dt) s (fun t => t.chip.rd (Reg.Card.FIELD_RESULT p) = 5 ∧ t.fuses = s.fuses)) ∧
    (s.chip.has p .maint = true → (s.chip.advance dt).fieldArmed p = true →
      (s.chip.rd (Reg.Card.FIELD_CODE p) ≠ s.fuses.dieUid % 2 ^ 32 →
        Runs (.fieldCloseGo p dt) s (fun t => t.chip.rd (Reg.Card.FIELD_RESULT p) = 4 ∧ t.fuses = s.fuses)) ∧
      (s.chip.rd (Reg.Card.FIELD_CODE p) = s.fuses.dieUid % 2 ^ 32 → s.fuses.keyBound = false ∨ s.chip.rd Reg.Ord.BLOCKED ≠ 0xFF ∨
          headerFlag (s.chip.header (s.chip.rd Reg.Card.ACTIVE_COPY)) 0 = false →
        Runs (.fieldCloseGo p dt) s (fun t => t.chip.rd (Reg.Card.FIELD_RESULT p) = 2 ∧ t.fuses = s.fuses)) ∧
      (s.chip.rd (Reg.Card.FIELD_CODE p) = s.fuses.dieUid % 2 ^ 32 → s.fuses.keyBound = true → s.chip.rd Reg.Ord.BLOCKED = 0xFF →
        headerFlag (s.chip.header (s.chip.rd Reg.Card.ACTIVE_COPY)) 0 = true → s.chip.rd Reg.Card.START_STATE = 6 →
        Runs (.fieldCloseGo p dt) s (fun t => t.chip.rd (Reg.Card.FIELD_RESULT p) = 1 ∧
          t.fuses = { s.fuses with fieldClosed := true } ∧ t.chip.rd Reg.Ord.BLOCKED = 0xFF)))) ∧
  (∀ (dt q t0 : Nat) (s : State), s.chip.start.armed = some (q, t0) →
    (t0 + 10000000000 ≤ (s.chip.advance dt).runNs → Runs (.fieldCloseArmExpiry dt) s (fun t => t.chip.start.armed = none ∧
      t.chip.regs = s.chip.regs)) ∧
    ((s.chip.advance dt).runNs < t0 + 10000000000 → Does (.fieldCloseArmExpiry dt) s (s.chip.advance dt))) ∧
  (∀ (a : CellAddr) (readBack : Bool) (s : State),
    (s.chip.rd (Reg.CFlt.FIELD_CLOSE_GO a) ≠ 1 → exec (.cellFieldCloseGo a readBack) s = .next s) ∧
    (s.chip.rd (Reg.CFlt.FIELD_CLOSE_GO a) = 1 → Runs (.cellFieldCloseGo a readBack) s (fun t =>
      t.chip.rd (Reg.CFlt.FIELD_CLOSE_GO a) = 0 ∧ OnlyFields [Reg.CFlt.FIELD_CLOSE_GO a, Reg.CFlt.FIELD_CLOSE_RESULT a] s { t with fuses := s.fuses } ∧
      t.chip.rd (Reg.CFlt.FIELD_CLOSE_RESULT a) = (if s.chip.cellState a ≠ 3 then 3 else if mapGet false s.fuses.cellsClosed a = true then 4
        else if s.chip.rd (Reg.CFlt.FIELD_CLOSE_CODE a) ≠ (s.chip.part a).fused.dieUid % 2 ^ 32 then 2
        else if readBack = false then 5 else 1) ∧
      (t.chip.rd (Reg.CFlt.FIELD_CLOSE_RESULT a) = 1 → t.fuses = { s.fuses with cellsClosed := mapSet false s.fuses.cellsClosed a.val true }) ∧
      (t.chip.rd (Reg.CFlt.FIELD_CLOSE_RESULT a) ≠ 1 → t.fuses = s.fuses))))

/-- R27, R404, R409, R423, R428, R435. Reset by pin or by a supply below its threshold returns every register of the WC8400 to its reset value and leaves
those of the cells, the flash and the fuses; the supply that is low holds the device in reset until it is back. A supply outside its range, a fuse row
that disagrees and a die at 110 °C raise the level-5 fault of their resource; a Ridge at 125 °C is lost, and the Summit at 125 °C trips the station.
Where a clause goes beyond the words of the rules it is the model's choice: log entries 6, 42. -/
def Obligations.ResetsAndSupplies : Prop :=
  (∀ s : State, Does .wcResetNAsserted s s.chip.wcReset) ∧
  (∀ c : Chip, (∀ f : Fld, f.key < 8 * 33554432 → c.wcReset.rd f = f.reset) ∧ (∀ f : Fld, 8 * 33554432 ≤ f.key → c.wcReset.rd f = c.rd f) ∧
    (c.start.job = none → c.wcReset.flash = c.flash) ∧ c.wcReset.card = Chip.reset.card ∧ c.wcReset.faults = Chip.reset.faults ∧
    c.wcReset.recov.supplyLow = c.recov.supplyLow) ∧
  (∀ (k : Fin 5) (s : State), Runs (.supplyBelowReset k) s (fun t => t.fuses = s.fuses ∧ t.pending = s.pending ∧
    t.chip.regs = s.chip.wcReset.regs ∧ t.chip.faults.arrivals = [] ∧ ∀ x, x ∈ t.chip.recov.supplyLow ↔ x = k.val ∨ x ∈ s.chip.recov.supplyLow)) ∧
  (∀ (k : Fin 5) (s : State), Runs (.wcSupplyReturn k) s (fun t => t.chip.regs = s.chip.regs ∧
    ∀ x, x ∈ t.chip.recov.supplyLow ↔ x ≠ k.val ∧ x ∈ s.chip.recov.supplyLow)) ∧
  (∀ (k : Fin 5) (mv : Nat) (s : State), Runs (.supplyOutOfRange k mv) s (fun t =>
    t.chip.faults.arrivals = s.chip.faults.arrivals ++ [⟨5, k.val + 1, 0x90, mv % 2 ^ 32, false, false, false, 0, s.chip.frame⟩] ∧
    OnlyFields [Reg.Flt.FAULT_COUNT] s { t with chip := { t.chip with faults := s.chip.faults } })) ∧
  (∀ (row : Nat) (s : State), Runs (.fuseIntegrityFailure row) s (fun t =>
    t.chip.faults.arrivals = s.chip.faults.arrivals ++ [⟨5, 0x20, 0x91, row % 2 ^ 32, false, false, false, 0, s.chip.frame⟩] ∧
    OnlyFields [Reg.Flt.FAULT_COUNT] s { t with chip := { t.chip with faults := s.chip.faults } })) ∧
  (∀ (die : Fin 5) (deg : Int) (s : State),
    (105 * 16 < deg → deg < 110 * 16 → Runs (.dieTempSample die deg) s (fun t => t.chip.regs = s.chip.regs ∧
      t.chip.faults = s.chip.faults ∧ t.chip.recov.warned = s.chip.recov.warned)) ∧
    (deg ≤ 105 * 16 → Runs (.dieTempSample die deg) s (fun t => die.val ∉ t.chip.recov.warned ∧ t.chip.regs = s.chip.regs)) ∧
    (110 * 16 ≤ deg → deg < 125 * 16 → die.val ∉ s.chip.recov.warned → Runs (.dieTempSample die deg) s (fun t => die.val ∈ t.chip.recov.warned ∧
      t.chip.faults.arrivals = s.chip.faults.arrivals ++ [⟨5, 0x10 + die.val, 0x92, ofSigned 32 deg % 2 ^ 32, false, false, false, 0, s.chip.frame⟩])) ∧
    (125 * 16 ≤ deg → die.val < 4 → s.chip.ridgeUp die = true → Runs (.dieTempSample die deg) s (fun t =>
      t.chip.rd (ridgeReg die) = 4 ∧ t.chip.rd Reg.Recov.TRAVERSE_SEEN = 1)) ∧
    (125 * 16 ≤ deg → die.val = 4 → Runs (.dieTempSample die deg) s (fun t => t.chip.rd Reg.Flt.TRIP = 1 ∧ t.chip.outOn 0 = false ∧
      t.chip.outOn 1 = false ∧ t.chip.rd Reg.Ord.BLOCKED = 0xFF)))

/-- For every command and state, a step with the command at the front of the queue is the command's execution on the state with the rest of the queue. -/
def Obligations.StepRunsFront : Prop :=
  ∀ (i : Instr) (s : State), step (s.withFront i) = exec i s ∧ (∀ rest, s.pending = i :: rest → step s = exec i { s with pending := rest })

/-- The block takes its commands first in, first out: no command touches the queue, so a step that answers a next state leaves exactly the queue without
its front; on an empty queue the block idles (log entry 1). Where a clause goes beyond the words of the rules it is the model's choice: log entry 1. -/
def Obligations.QueueMovesOn : Prop :=
  ∀ s t : State, step s = .next t → t.pending = s.pending.tail ∧ (s.pending = [] → t = s)

/-- R342, R402. What reset leaves: START_STATE is RESET, every region is blocked, TRIP_N is low, the safe outputs are off, no port holds the token, the
station CAN channels are offline, nothing waits, and every register field holds the reset value of its table. Where a clause goes beyond the words of
the rules it is the model's choice: log entry 6. -/
def Obligations.ResetValues : Prop :=
  State.reset.chip.rd Reg.Card.START_STATE = 0 ∧ State.reset.chip.rd Reg.Ord.BLOCKED = 0xFF ∧ State.reset.chip.rd Reg.Flt.TRIP = 1 ∧
  State.reset.chip.outOn 0 = false ∧ State.reset.chip.outOn 1 = false ∧ (∀ p < 4, State.reset.chip.rd (Reg.Port.TOKEN p) = 0) ∧
  (∀ n < 2, State.reset.chip.rd (Reg.Can.CAN_STATE (16384 + n)) = 0) ∧ State.reset.pending = [] ∧
  (∀ f : Fld, State.reset.chip.rd f = f.reset)

/-- R398, R399, R409, R410, R411. At reset the fuses are sound, and every step keeps them so: an unbound part holds no key hash, the rollback floor stays
within its byte, and the record of closed cells keeps its canonical form. -/
def Obligations.FusesStaySound : Prop :=
  State.reset.fuses.sound ∧ ∀ s t : State, s.fuses.sound → step s = .next t → t.fuses.sound

/-- R409. No fuse ever goes back: from any sound state, through any number of steps, what was fused stays fused, the rollback floor never falls and a
bound key never changes. -/
def Obligations.FusesOnlyGrow : Prop :=
  (∀ s t : State, s.fuses.sound → step s = .next t → s.fuses.grewInto t.fuses) ∧
  (∀ (l : List State) (s t : State), s.fuses.sound → l.head? = some s → l.getLast? = some t →
    (∀ k u v, l[k]? = some u → l[k + 1]? = some v → step u = .next v) → s.fuses.grewInto t.fuses)

/-- R398, R399, R407, R410, R411. Only the commands at which the specification blows a fuse touch one: CONFIGURE_DONE, PROVISION_DONE and the two
FIELD_CLOSE_GO. -/
def Obligations.OthersLeaveFuses : Prop :=
  ∀ (i : Instr) (s t : State), blowsFuses i = false → exec i s = .next t → t.fuses = s.fuses

/-- R409. (a factory test mode is entered only before field closure). The block stops nowhere else: every command answers a next state in every state, but
WC_RESET_RELEASE and CELL_POWER_ON_RESET with a test mode selected before closure, and none is ever refused. Where a clause goes beyond the words of
the rules it is the model's choice: log entry 7. -/
def Obligations.NoOtherStop : Prop :=
  (∀ (i : Instr) (s : State) (r : Refusal), exec i s ≠ .refused r) ∧
  (∀ (i : Instr) (s : State) (f : Fault), exec i s = .fault f →
    f = .factoryTestMode ∧ ((∃ tm ok, i = .wcResetRelease tm ok) ∨ (∃ a tm fu b1 b2 b3, i = .cellPowerOnReset a tm fu b1 b2 b3)))

/-- R112. The belay window holds exactly the short angles the rule's unsigned 16-bit comparison gives, none where its bounds are equal; inside it the
polarity NONE gives BYPASS, POS gives INSERT_POS and NEG gives INSERT_NEG; outside it the target is BYPASS, and so a belay run starts. -/
def Obligations.BelayWindowGivesTarget : Prop :=
  (∀ a lo hi : BitVec 16, inWindow a.toNat lo.toNat hi.toNat = decide ((a - lo).toNat < (hi - lo).toNat)) ∧
  (∀ a lo : BitVec 16, inWindow a.toNat lo.toNat lo.toNat = false) ∧
  belayTarget 0 = 0 ∧ belayTarget 1 = 1 ∧ belayTarget 2 = 2 ∧
  (∀ (x0 minPulse ticks pol : Nat) (rate : Int) (lo hi : BitVec 16),
    (belaySchedule x0 rate lo.toNat hi.toNat pol minPulse ticks).1 =
      if ((BitVec.ofNat 16 (x0 / 2 ^ 32)) - lo).toNat < (hi - lo).toNat then belayTarget pol else 0)

/-- R64. A channel that is gated: every action of the WC8400 dated on it and not yet executed is discarded and counted in DROPPED_COUNT, the others stay,
GATED_DROP is set, one level-6 fault "channel gated" is raised on system resource 0x0010 and none "late command"; and the loss of a grid channel's
reference under GATE does exactly that. -/
def Obligations.GatedChannelDropsActions : Prop :=
  (∀ (c : Chip) (n : ChanIx),
    (c.gateChannel n).time.dated = c.time.dated.filter (fun d => !decide (d.part = 0 ∧ d.chan = some n.val)) ∧
    (c.gateChannel n).rd Reg.Time.DROPPED_COUNT = (c.rd Reg.Time.DROPPED_COUNT +
      (c.time.dated.filter (fun d => decide (d.part = 0 ∧ d.chan = some n.val))).length) % 2 ^ (Reg.Time.DROPPED_COUNT).width ∧
    (c.gateChannel n).rd (Reg.Angle.GATED_DROP n) = 1 ∧ (c.gateChannel n).rd (Reg.Angle.GATED n) = 1 ∧
    (c.gateChannel n).faults.arrivals = c.faults.arrivals ++ [⟨6, 0x10, 0xA3, n.val, false, false, false, 0, c.frame⟩] ∧
    ∀ f : Fld, (∀ g ∈ [Reg.Angle.VALID n, Reg.Angle.GATED n, Reg.Time.DROPPED_COUNT, Reg.Angle.GATED_DROP n, Reg.Flt.FAULT_COUNT], f.key ≠ g.key) →
      (c.gateChannel n).rd f = c.rd f) ∧
  (∀ (n : Fin 2) (s : State), 2 ≤ (s.chip.gridLock n).missing → s.chip.rd (Reg.Angle.COASTING n) ≠ 1 → s.chip.rd (Reg.Angle.GATED n) ≠ 1 →
    s.chip.rd (Reg.Angle.LOSS_ACTION n) = 1 → Runs (.referenceLost (.grid n)) s (fun t =>
      t.chip.time.dated = s.chip.time.dated.filter (fun d => !decide (d.part = 0 ∧ d.chan = some n.val)) ∧
      t.chip.rd (Reg.Angle.GATED_DROP n) = 1 ∧ t.chip.rd (Reg.Angle.VALID n) = 0 ∧
      t.chip.faults.arrivals = s.chip.faults.arrivals ++ [⟨6, 0x10, 0xA3, n.val, false, false, false, 0, s.chip.frame⟩]))

/-- R130. The duty of a frame follows the sign of the arm current in the sense of the polarity once it leaves I_DIR_HYST, else it stays; under CHARGE
bypassed cells are inserted in ascending key and inserted ones removed in descending key, under DISCHARGE both orders are reversed (64 fresh cells,
none used yet: R123 and R129 say what age and number change). Current in 2^-16 A, I_DIR_HYST in 0.1 A. -/
def Obligations.DutyAndOrders : Prop :=
  (∀ (w : WalkIn) (pol before : Nat), let x := (if pol = 2 then -1 else 1) * w.iArm * 10
    (x > (w.iHyst : Int) * 65536 → w.duty pol before = 0) ∧ (x < -((w.iHyst : Int) * 65536) → w.duty pol before = 1) ∧
    (-((w.iHyst : Int) * 65536) ≤ x → x ≤ (w.iHyst : Int) * 65536 → w.duty pol before = before)) ∧
  (∀ x : Walk, x.cells.Pairwise (fun u v => u.key ≤ v.key) → x.cells.length ≤ 64 → (∀ u ∈ x.cells, u.stale = false ∧ u.used = false) →
    (x.insertOrder 0).Pairwise (fun u v => u.key ≤ v.key) ∧ (x.insertOrder 1) = (x.insertOrder 0).reverse ∧
    (x.removeOrder 0).Pairwise (fun u v => v.key ≤ u.key) ∧ (x.removeOrder 1) = (x.removeOrder 0).reverse ∧
    (∀ u, u ∈ x.insertOrder 0 ↔ u ∈ x.cells ∧ u.cur = 0) ∧ (∀ u, u ∈ x.removeOrder 0 ↔ u ∈ x.cells ∧ (u.cur = 1 ∨ u.cur = 2)))

end
end

