-- ==== Sys2Proof/Laws/Ops.lean ====
section
/-! SUPPORT. Once for each shared operation, what it can do: interrupts, refusals for rights, fault messages, the passage of time, blocking,
folds over the parts of the chip, and the three shapes that a command's meaning has. -/

namespace Sys2Proof.Machine

/-! ### Writing one field -/

theorem Chip.rd_wr (c : Chip) (f g : Fld) (v : Nat) (h : g.key ≠ f.key ∨ g = f) :
    (c.wr f v).rd g = if g = f then v % 2 ^ f.width else c.rd g := by
  by_cases hg : g = f
  · subst hg; simp
  · rw [if_neg hg, Chip.rd_wr_ne c (h.resolve_right hg)]

theorem Chip.rd_set_self (c : Chip) (f : Fld) (h : f.width = 1) : (c.set f).rd f = 1 := by simp [Chip.set, h]

theorem Chip.rd_clr_self (c : Chip) (f : Fld) : (c.clr f).rd f = 0 := by simp [Chip.clr]

theorem Chip.rd_inc_self (c : Chip) (f : Fld) : (c.inc f).rd f = (c.rd f + 1) % 2 ^ f.width := by simp [Chip.inc, Chip.add]

/-! ### Interrupts and refusals (R377, R392) -/

theorem Chip.rd_irq (c : Chip) (p v : Nat) {f : Fld} (h : f.key ≠ (Reg.Msix.PENDING p v).key) : (c.irq p v).rd f = c.rd f := by
  unfold Chip.irq
  split
  · exact Chip.rd_wr_ne c h 1
  · rfl

/-- An interrupt touches the record of its own port and the pending bits, and nothing else. -/
theorem Chip.irq_only (c : Chip) (p v : Nat) : c.irq p v = { c with regs := (c.irq p v).regs, ports := (c.irq p v).ports } := by
  unfold Chip.irq
  split <;> rfl

/-- A refusal for rights touches the port's count and flag, and what the interrupt touches. -/
theorem Chip.refuse_only (c : Chip) (p : Nat) : c.refuse p = { c with regs := (c.refuse p).regs, ports := (c.refuse p).ports } := by
  unfold Chip.refuse
  rw [Chip.irq_only]
  rfl

theorem Chip.rd_refuse_ne (c : Chip) (p : Nat) {f : Fld} (h1 : f.key ≠ (Reg.Port.RIGHTS_REFUSED p).key)
    (h2 : f.key ≠ (Reg.Port.RIGHTS_SEEN p).key) (h3 : f.key ≠ (Reg.Msix.PENDING p 0).key) : (c.refuse p).rd f = c.rd f := by
  unfold Chip.refuse
  rw [Chip.rd_irq _ _ _ h3]
  simp only [Chip.set, Chip.inc, Chip.add]
  rw [Chip.rd_wr_ne _ h2, Chip.rd_wr_ne _ h1]

theorem Chip.rd_refuseTo_self (c : Chip) (p v : Nat) (f : Fld) : (c.refuseTo p f v).rd f = v % 2 ^ f.width := by
  simp [Chip.refuseTo]

/-! ### Fault messages (R328, R331) -/

/-- Below the level of the planes every message arrives, whatever the planes are doing. -/
theorem Chip.receive_arrivals (c : Chip) (m : Arrival) (h : m.level ≠ 4 ∨ c.recov.outputsBlocked = false) :
    (c.receive m).faults.arrivals = c.faults.arrivals ++ [m] := by
  unfold Chip.receive
  rw [if_neg]
  · rfl
  · rcases h with h | h <;> simp [h]

/-- A message touches the arrivals and FAULT_COUNT, and nothing else. -/
theorem Chip.receive_only (c : Chip) (m : Arrival) :
    c.receive m = { c with regs := (c.receive m).regs, faults := { c.faults with arrivals := (c.receive m).faults.arrivals } } := by
  unfold Chip.receive
  split <;> rfl

theorem Chip.rd_receive_ne (c : Chip) (m : Arrival) {f : Fld} (h : f.key ≠ Reg.Flt.FAULT_COUNT.key) : (c.receive m).rd f = c.rd f := by
  unfold Chip.receive
  split
  · rfl
  · simp only [Chip.inc, Chip.add]; rw [Chip.rd_wr_ne _ h]; rfl

theorem Chip.rd_raise_ne (c : Chip) (level source kind detail : Nat) {f : Fld} (h : f.key ≠ Reg.Flt.FAULT_COUNT.key) :
    (c.raise level source kind detail).rd f = c.rd f := Chip.rd_receive_ne c _ h

theorem Chip.raise_arrivals (c : Chip) (level source kind detail : Nat) (h : level ≠ 4 ∨ c.recov.outputsBlocked = false) :
    (c.raise level source kind detail).faults.arrivals =
      c.faults.arrivals ++ [⟨level, source, kind, detail % 2 ^ 32, false, false, false, 0, c.frame⟩] := Chip.receive_arrivals c _ h

/-! ### The passage of time (R36) -/

@[simp] theorem Chip.advance_regs (c : Chip) (dt : Nat) : (c.advance dt).regs = c.regs := rfl

@[simp] theorem Chip.rd_advance (c : Chip) (dt : Nat) (f : Fld) : (c.advance dt).rd f = c.rd f := rfl

/-- Time never runs back, and nothing but the time base moves. -/
theorem Chip.advance_only (c : Chip) (dt : Nat) :
    c.advance dt = { c with time := { c.time with units := (c.advance dt).time.units } } ∧ c.time.units ≤ (c.advance dt).time.units :=
  ⟨rfl, Nat.le_add_right _ _⟩

/-! ### Folds -/

/-- What every step of a fold keeps, the fold keeps. -/
theorem foldl_keeps {α β : Type} (P : β → Prop) (g : β → α → β) (l : List α) (b : β) (h : P b)
    (hs : ∀ b a, a ∈ l → P b → P (g b a)) : P (l.foldl g b) := by
  induction l generalizing b with
  | nil => exact h
  | cons a l ih => exact ih _ (hs _ _ (by simp) h) (fun b x hx => hs b x (by simp [hx]))

/-- A fold whose steps leave a field alone leaves it alone. -/
theorem Chip.rd_foldl {α : Type} (g : Chip → α → Chip) (l : List α) (c : Chip) (f : Fld) (hs : ∀ c a, a ∈ l → (g c a).rd f = c.rd f) :
    (l.foldl g c).rd f = c.rd f :=
  foldl_keeps (fun d => d.rd f = c.rd f) g l c rfl (fun b a ha h => (hs b a ha).trans h)

/-! ### The shapes of a meaning -/

theorem State.run_next {s t : State} {f : Chip → Chip} (h : s.run f = .next t) :
    t.chip = f s.chip ∧ t.fuses = s.fuses ∧ t.pending = s.pending := by
  cases h; exact ⟨rfl, rfl, rfl⟩

theorem State.runFused_next {s t : State} {f : Fuses → Chip → Chip} (h : s.runFused f = .next t) :
    t.chip = f s.fuses s.chip ∧ t.fuses = s.fuses ∧ t.pending = s.pending := by
  cases h; exact ⟨rfl, rfl, rfl⟩

theorem State.blow_next {s t : State} {f : Fuses → Chip → Fuses × Chip} (h : s.blow f = .next t) :
    t.chip = (f s.fuses s.chip).2 ∧ t.fuses = (f s.fuses s.chip).1 ∧ t.pending = s.pending := by
  cases h; exact ⟨rfl, rfl, rfl⟩

theorem runs_run (s : State) (f : Chip → Chip) (P : State → Prop) (i : Instr) (hi : exec i s = s.run f) (h : P { s with chip := f s.chip }) :
    Runs i s P := ⟨_, hi, h⟩

/-! ### Fields alone -/

theorem OnlyFields.refl (l : List Fld) (s : State) : OnlyFields l s s := ⟨rfl, fun _ _ => rfl⟩

theorem OnlyFields.wr {l : List Fld} {s : State} {c : Chip} (f : Fld) (v : Nat) (hf : f ∈ l) (h : OnlyFields l s { s with chip := c }) :
    OnlyFields l s { s with chip := c.wr f v } := by
  obtain ⟨h1, h2⟩ := h
  have hc : c = { s.chip with regs := c.regs } := congrArg State.chip h1
  refine ⟨?_, fun g hg => ?_⟩
  · show ({ s with chip := c.wr f v } : State) = _
    rw [hc]; rfl
  · exact (Chip.rd_wr_ne c (hg f hf) v).trans (h2 g hg)

end Sys2Proof.Machine
end

