-- ==== Sys2Proof/Tests/Slice0.lean ====
section
/-! SUPPORT. The model's own tests: small single steps, terms that WellFormed refuses, and for every obligation with hypotheses a
named theorem that shows a state and operands meeting them, clause by clause. -/

namespace Sys2Proof.Tests
open Sys2Proof Sys2Proof.Machine
set_option maxRecDepth 16000

/-- The reset state with some register fields written and its chip changed by `f`. -/
def tst (l : List (Fld × Nat)) (f : Chip → Chip := id) : State :=
  { State.reset with chip := f (l.foldl (fun c e => c.wr e.1 e.2) State.reset.chip) }
/-- Test data. -/
def sd : SlotDef := ⟨1, 0, 0, 0, 0, 0, 0, 0, 0, [⟨0, .sensor 0 1, none, .one⟩], [], [], [], [], 0, true, 1, 1, 1, false, 1, 0, 1⟩
/-- Test data. -/
def td : TaskDesc := ⟨0, 0, 0, true, true, false, 0, 1, 0, 0, 1, 0, 0, 0, 0, 0, 0, 0, 0, 0⟩
/-- Test data. -/
def ti : TaskInst := ⟨0, 0, 0, 0, .waiting, 0, 0, none, 0, 0, 0, 0, false, false, false⟩
/-- Test data. -/
def slot0 (x : SlotSt) (c : Chip) : Chip := { c with card := { c.card with loop := { c.card.loop with slots := [(0, sd)] } } }.setSlot 0 x
/-- Test data. -/
def task0 (d : TaskDesc) (l : List TaskInst) (c : Chip) : Chip :=
  { c with card := { c.card with tasks := { c.card.tasks with descs := [d] } }, sched := { c.sched with insts := l } }
/-- Test data. -/
def cmdBlk (m : Nat) : CmdBlk := ⟨0, 0, m, 0, 0, [], 0, 0, 0, 0, 0, 0, 0, 0, 0, false, 0, false, false, false, 0, 0, false, 0, 0⟩
/-- Test data. -/
def goodCard : Card := { Card.blank with time := { Card.blank.time with refMode := some 1 }, loads := (List.range 5).foldl (fun l i =>
    [Reg.Env.ENV_MIN i, Reg.Env.ENV_MAX i, Reg.Env.ENV_FALLBACK i, Reg.Env.ENV_RATE i].foldl (fun l f => mapSet (2 ^ 40) l f.key (if f.key = (Reg.Env.ENV_RATE i).key then 1 else 0)) l) [] }


/-- Witnesses of the clauses of TimeReferencesAndLocks. -/
theorem witness_time_references_and_locks_1 :
    (∃ (domain : Nat) (gm : Nat) (m : Announce) (s : State), s.chip.time.master = some m ∧ m.identity = gm ∧ domain =
      s.chip.rd Reg.Time.PTP_DOMAIN ∧ s.chip.rd Reg.Time.REF_MODE = 1) ∧
    (∃ (msg : Announce) (s : State), msg.domain = s.chip.rd Reg.Time.PTP_DOMAIN ∧ s.chip.time.master = none) ∧
    (∃ (s : State), s.chip.rd Reg.Time.REF_MODE = 1 ∧ s.chip.rd Reg.Time.SYNC_MASK = 0) ∧
    (∃ (s : State), s.chip.rd Reg.Time.REF_MODE = 3) ∧
    (∃ (p : PortIx) (s : State), (s.chip.has p .order = true ∨ s.chip.has p .maint = true)) ∧
    (∃ (s : State), s.chip.time.tb.locked = false ∧ 4 ≤ s.chip.time.tb.inCount) ∧
    (∃ (s : State), s.chip.time.tb.locked = true ∧ 3 ≤ s.chip.time.tb.outCount) ∧
    (∃ (s : State), s.chip.on Reg.Time.HOLDOVER = false ∧ s.chip.recov.outputsBlocked = false) :=
  ⟨⟨0, 6, ⟨1, 2, 3, 4, 5, 6, 7, 0⟩, tst [(Reg.Time.REF_MODE, 1)] (fun c =>
     { c with time := { c.time with master := some ⟨1, 2, 3, 4, 5, 6, 7, 0⟩ } }), by decide⟩,
   ⟨⟨1, 2, 3, 4, 5, 6, 7, 0⟩, tst [], by decide⟩,
   ⟨tst [(Reg.Time.REF_MODE, 1), (Reg.Time.SYNC_MASK, 0)], by decide⟩,
   ⟨tst [(Reg.Time.REF_MODE, 3)], by decide⟩,
   ⟨0, tst [((Reg.Port.PORT_STATE 0), 2), ((Reg.Port.RIGHTS 0), 31)], by decide⟩,
   ⟨tst [] (fun c => { c with time := { c.time with tb := ⟨4, 0, 0, false⟩ } }), by decide⟩,
   ⟨tst [] (fun c => { c with time := { c.time with tb := ⟨0, 3, 0, true⟩ } }), by decide⟩,
   ⟨tst [], by decide⟩⟩

/-- Witnesses of the clauses of TimeReferencesAndLocks. -/
theorem witness_time_references_and_locks_2 :
    (∃ (s : State), s.chip.rd Reg.Time.STEPPED = 1 ∧ 4 ≤ s.chip.time.rejectCount ∧ s.chip.time.rejected = false) ∧
    (∃ (s : State), s.chip.on Reg.Time.HOLDOVER = true) ∧
    (∃ (a : CellAddr) (s : State), (s.chip.ct a).pll.locked = false ∧ 16 ≤ (s.chip.ct a).pll.inCount) ∧
    (∃ (a : CellAddr) (s : State), (s.chip.ct a).pll.locked = true ∧ 2 ≤ (s.chip.ct a).pll.outCount) ∧
    (∃ (a : CellAddr) (s : State), 8 ≤ (s.chip.ct a).pll.missing) ∧
    (∃ (n : Fin 2) (s : State), s.chip.rd (Reg.Angle.KIND n) = 1 ∧ (s.chip.gridLock n).locked = false ∧ 1000 ≤
      (s.chip.gridLock n).inCount) ∧
    (∃ (n : Fin 2) (s : State), s.chip.rd (Reg.Angle.KIND n) = 1 ∧ (s.chip.gridLock n).locked = true ∧ 100 ≤
      (s.chip.gridLock n).outCount) ∧
    (∃ (n : Fin 2) (s : State), s.chip.rd (Reg.Angle.KIND n) = 1 ∧ 2 ≤ (s.chip.gridLock n).missing ∧ s.chip.rd
      (Reg.Angle.COASTING n) ≠ 1 ∧ s.chip.rd (Reg.Angle.GATED n) ≠ 1 ∧ s.chip.rd (Reg.Angle.LOSS_ACTION n) = 0) :=
  ⟨⟨tst [(Reg.Time.STEPPED, 1)] (fun c => { c with time := { c.time with acquired := true, rejectCount := 4 } }), by
     decide⟩,
   ⟨tst [(Reg.Time.HOLDOVER, 1)], by decide⟩,
   ⟨16383, tst [] (fun c => c.setCt 16383 { c.ct 16383 with pll := ⟨16, 0, 0, false⟩ }), by decide⟩,
   ⟨0, tst [] (fun c => c.setCt 0 { c.ct 0 with pll := ⟨0, 2, 0, true⟩ }), by decide⟩,
   ⟨0, tst [] (fun c => c.setCt 0 { c.ct 0 with pll := ⟨0, 0, 8, true⟩ }), by decide⟩,
   ⟨1, tst [((Reg.Angle.KIND 1), 1)] (fun c => c.setGridLock 1 ⟨1000, 0, 0, false⟩), by decide⟩,
   ⟨0, tst [((Reg.Angle.KIND 0), 1)] (fun c => c.setGridLock 0 ⟨0, 100, 0, true⟩), by decide⟩,
   ⟨0, tst [((Reg.Angle.KIND 0), 1), ((Reg.Angle.LOSS_ACTION 0), 0)] (fun c => c.setGridLock 0 ⟨0, 0, 2, true⟩), by
     decide⟩⟩

/-- Witnesses of the clauses of TimeStepAndChannels. -/
theorem witness_time_step_and_channels :
    (∃ (c : Chip), c.time.deblocked = false) ∧
    (∃ (c : Chip), c.time.deblocked = true) ∧
    (∃ (n : ChanIx) (s : State), s.chip.rd (Reg.Angle.KIND n) = 2) ∧
    (∃ (n : ChanIx) (sg : Segment) (s : State), (s.chip.angleCfg n).segs[s.chip.rd (Reg.Angle.SEGMENT n)]? = some sg
      ∧ s.chip.on (Reg.Angle.RAMPING n) = true ∧ sg.duration ≤ (s.chip.chan n).segFrames ∧ (s.chip.angleCfg
      n).segs.length = s.chip.rd (Reg.Angle.SEGMENT n) + 1 ∧ (s.chip.angleCfg n).endAction = some 2 ∧ s.chip.rd
      (Reg.Angle.KIND n) = 2) ∧
    (∃ (p : PortIx) (s : State), s.chip.has p .order = true ∧ s.chip.time.pendingSync = none ∧ s.chip.on
      Reg.Time.SYNC_FRAME = false) ∧
    (∃ (p : PortIx) (s : State), s.chip.has p .order = true ∧ s.chip.on Reg.Time.SYNC_FRAME = true ∧
      s.chip.allBlocked = false) :=
  ⟨⟨(tst []).chip, by decide⟩,
   ⟨(tst [] (fun c => { c with time := { c.time with deblocked := true } })).chip, by decide⟩,
   ⟨0, tst [((Reg.Angle.KIND 0), 2)], by decide⟩,
   ⟨0, ⟨3, 5⟩, tst [((Reg.Angle.RAMPING 0), 1), ((Reg.Angle.KIND 0), 2), (Reg.Angle.RAMPING 0, 1)] (fun c =>
     { c with card := { c.card with time := { c.card.time with chans := [(0, { AngleCfg.unused with kind := 2, segs := [⟨3, 5⟩], endAction := some 2 })] } } }.setChan
     0 { c.chan 0 with segFrames := 3 }), by decide⟩,
   ⟨0, tst [((Reg.Port.PORT_STATE 0), 2), ((Reg.Port.RIGHTS 0), 31)], by decide⟩,
   ⟨0, tst [((Reg.Port.PORT_STATE 0), 2), ((Reg.Port.RIGHTS 0), 31), (Reg.Time.SYNC_FRAME, 1), (Reg.Ord.BLOCKED, 0)],
     by decide⟩⟩

/-- Witnesses of the clauses of LateRule. -/
theorem witness_late_rule :
    (∃ (dt : Nat) (st : Word) (s : State), (let c := s.chip.advance dt; let d := signedDiff 32 st.toNat c.stamp; 0 <
      d)) ∧
    (∃ (dt : Nat) (st : Word) (s : State), (let c := s.chip.advance dt; let d := signedDiff 32 st.toNat c.stamp; d =
      0)) ∧
    (∃ (dt : Nat) (st : Word) (s : State), (let c := s.chip.advance dt; let d := signedDiff 32 st.toNat c.stamp;
      let w := s.chip.rd Reg.Time.LATE_WINDOW; d < 0 ∧ -(w : Int) ≤ d)) ∧
    (∃ (dt : Nat) (st : Word) (s : State), (let c := s.chip.advance dt; let d := signedDiff 32 st.toNat c.stamp;
      let w := s.chip.rd Reg.Time.LATE_WINDOW; d < -(w : Int))) :=
  ⟨⟨0, 1, tst [], by decide⟩,
   ⟨0, 0, tst [], by decide⟩,
   ⟨0, 0, tst [(Reg.Time.LATE_WINDOW, 1)] (fun c => { c with time := { c.time with units := 2 ^ 40 } }), by decide⟩,
   ⟨0, 0, tst [(Reg.Time.LATE_WINDOW, 1)] (fun c => { c with time := { c.time with units := 2 * 2 ^ 40 } }), by
     decide⟩⟩

/-- Witnesses of the clauses of LanesUpAndDown. -/
theorem witness_lanes_up_and_down_1 :
    (∃ (g : RopeIx) (e : EndIx) (s : State), s.chip.rd (Reg.RLane.PLL_LOCKED g e) = 1 ∧ s.chip.rd
      (Reg.RLane.BLOCK_LOCKED g e) = 1 ∧ s.chip.rd (Reg.RLane.LANE_UP g e) = 0 ∧ (s.chip.rlane g e).errHeld = false ∧
      (s.chip.rlane g e).moduleHeld = false) ∧
    (∃ (g : RopeIx) (e : EndIx) (s : State), s.chip.rd (Reg.RLane.LANE_UP g e) = 1 ∧ s.chip.rd
      (Reg.RLane.BLOCK_LOCKED g e) = 0 ∧ s.chip.recov.outputsBlocked = false ∧ s.chip.rd (Reg.RLane.TEST_ACTIVE g e)
      = 0) ∧
    (∃ (a : CellAddr) (s : State), (s.chip.gate a).powered = true) ∧
    (∃ (a : CellAddr) (b : LaneIx) (s : State), (s.chip.gate a).powered = true ∧ s.chip.rd (Reg.CLane.PLL_LOCKED a b)
      = 1 ∧ s.chip.rd (Reg.CLane.BLOCK_LOCKED a b) = 1 ∧ s.chip.rd (Reg.CLane.PORT_UP a b) = 0 ∧ (s.chip.clane a
      b).errHeld = false ∧ s.chip.cellState a ≠ 1) ∧
    (∃ (a : CellAddr) (b : LaneIx) (s : State), (s.chip.gate a).powered = true ∧ s.chip.rd (Reg.CLane.PORT_UP a b) =
      1 ∧ s.chip.rd (Reg.CLane.BLOCK_LOCKED a b) = 0 ∧ s.chip.rd (Reg.CLane.TEST_ACTIVE a b) = 0 ∧ s.chip.cellState a
      = 5) ∧
    (∃ (a : CellAddr) (b : LaneIx) (s : State), (s.chip.gate a).powered = true ∧ s.chip.cellState a = 1 ∧ s.chip.rd
      (Reg.CLane.PLL_LOCKED a b) = 1 ∧ s.chip.rd (Reg.CLane.BLOCK_LOCKED a b) = 1 ∧ s.chip.rd (Reg.CLane.PORT_UP a b)
      = 0 ∧ (s.chip.clane a b).errHeld = false ∧ (s.chip.ct a).pll.locked = true ∧ (s.chip.part a).fuseBad = false) ∧
    (∃ (a : CellAddr) (b : LaneIx) (s : State), s.chip.cellState a = 2 ∧ s.chip.rd (Reg.CLane.PORT_UP a b) = 1 ∧
      s.chip.rd (Reg.CLane.PORT_UP a (1 - b.val)) = 0 ∧ s.chip.rd (Reg.CLane.BLOCK_LOCKED a b) = 0 ∧ s.chip.rd
      (Reg.CLane.TEST_ACTIVE a b) = 0) ∧
    (∃ (a : CellAddr) (b : LaneIx) (s : State), (s.chip.gate a).powered = true ∧ s.chip.rd (Reg.CLane.PORT_UP a b) =
      0) :=
  ⟨⟨0, 0, tst [((Reg.RLane.PLL_LOCKED 0 0), 1), ((Reg.RLane.BLOCK_LOCKED 0 0), 1), ((Reg.RLane.LANE_UP 0 0), 0)], by
     decide⟩,
   ⟨0, 0, tst [((Reg.RLane.LANE_UP 0 0), 1), ((Reg.RLane.BLOCK_LOCKED 0 0), 0), ((Reg.RLane.TEST_ACTIVE 0 0), 0)], by
     decide⟩,
   ⟨0, tst [] (fun c => c.setGate 0 { c.gate 0 with powered := true }), by decide⟩,
   ⟨0, 0, tst [((Reg.CLane.PLL_LOCKED 0 0), 1), ((Reg.CLane.BLOCK_LOCKED 0 0), 1), ((Reg.CLane.PORT_UP 0 0), 0),
     (Reg.CId.CELL_STATE 0, 7)] (fun c => c.setGate 0 { c.gate 0 with powered := true }), by decide⟩,
   ⟨0, 0, tst [((Reg.CLane.PORT_UP 0 0), 1), ((Reg.CLane.BLOCK_LOCKED 0 0), 0), ((Reg.CLane.TEST_ACTIVE 0 0), 0),
     ((Reg.CId.CELL_STATE 0), 5)] (fun c => c.setGate 0 { c.gate 0 with powered := true }), by decide⟩,
   ⟨0, 0, tst [((Reg.CId.CELL_STATE 0), 1), ((Reg.CLane.PLL_LOCKED 0 0), 1), ((Reg.CLane.BLOCK_LOCKED 0 0), 1),
     ((Reg.CLane.PORT_UP 0 0), 0)] (fun c => (c.setGate 0 { c.gate 0 with powered := true }).setCt 0
     { c.ct 0 with pll := ⟨0, 0, 0, true⟩ }), by decide⟩,
   ⟨0, 0, tst [((Reg.CId.CELL_STATE 0), 2), ((Reg.CLane.PORT_UP 0 0), 1), ((Reg.CLane.PORT_UP 0 (1 - (0 :
     LaneIx).val)), 0), ((Reg.CLane.BLOCK_LOCKED 0 0), 0), ((Reg.CLane.TEST_ACTIVE 0 0), 0)], by decide⟩,
   ⟨0, 0, tst [((Reg.CLane.PORT_UP 0 0), 0)] (fun c => c.setGate 0 { c.gate 0 with powered := true }), by decide⟩⟩

/-- Witnesses of the clauses of LanesUpAndDown. -/
theorem witness_lanes_up_and_down_2 :
    (∃ (a : CellAddr) (b : LaneIx) (x : BreakBlk) (s : State), (s.chip.gate a).powered = true ∧ x.port.val = 1 -
      b.val) ∧
    (∃ (b : LaneIx) (x : BreakBlk), x.port.val ≠ 1 - b.val) ∧
    (∃ (x : BreakBlk), x.ridge = false) ∧
    (∃ (a : CellAddr) (b : LaneIx) (s : State), (s.chip.clane a b).remote.isSome = true) ∧
    (∃ (g : RopeIx) (e : EndIx) (s : State), (s.chip.rlane g e).windowErrs ≤ s.chip.rd (Reg.RLane.ERR_LIMIT_VALUE g
      e)) ∧
    (∃ (g : RopeIx) (e : EndIx) (s : State), s.chip.rd (Reg.RLane.ERR_LIMIT_VALUE g e) < (s.chip.rlane g
      e).windowErrs ∧ (s.chip.rlane g e).overWindows = 2 ∧ s.chip.rd (Reg.RLane.LANE_UP g e) = 1) ∧
    (∃ (a : CellAddr) (b : LaneIx) (s : State), (s.chip.clane a b).windowErrs ≤ s.chip.rd (Reg.CLane.ERR_LIMIT_VALUE
      a b)) :=
  ⟨⟨0, 0, ⟨false, 0, 1, 2, true⟩, tst [] (fun c => c.setGate 0 { c.gate 0 with powered := true }), by decide⟩,
   ⟨0, ⟨false, 0, 0, 2, true⟩, by decide⟩,
   ⟨⟨false, 3, 0, 2, true⟩, by decide⟩,
   ⟨0, 0, tst [] (fun c => c.setClane 0 0 { c.clane 0 0 with remote := some (1, false) }), by decide⟩,
   ⟨0, 0, tst [], by decide⟩,
   ⟨0, 0, tst [((Reg.RLane.LANE_UP 0 0), 1)] (fun c => c.setRlane 0 0
     { c.rlane 0 0 with windowErrs := c.rd (Reg.RLane.ERR_LIMIT_VALUE 0 0) + 1, overWindows := 2 }), by decide⟩,
   ⟨0, 0, tst [], by decide⟩⟩

/-- Witnesses of the clauses of LaneOrdersAndTests. -/
theorem witness_lane_orders_and_tests_1 :
    (∃ (p : PortIx) (g : RopeIx) (v : Word) (s : State), s.chip.has p .maint = true ∧ s.chip.mode g = 3 ∧ txEqValid
      v.toNat = true) ∧
    (∃ (p : PortIx) (g : RopeIx) (v : Word) (s : State), s.chip.has p .maint = true ∧ s.chip.mode g = 3 ∧ txEqValid
      v.toNat = false) ∧
    (∃ (p : PortIx) (g : RopeIx) (s : State), s.chip.has p .maint = true ∧ s.chip.mode g = 3) ∧
    (∃ (a : CellAddr) (v : Word) (s : State), (s.chip.gate a).powered = true ∧ txEqValid v.toNat = true) ∧
    (∃ (a : CellAddr) (v : Word) (s : State), (s.chip.gate a).powered = true ∧ txEqValid v.toNat = false) ∧
    (∃ (a : CellAddr) (s : State), (s.chip.gate a).powered = true) ∧
    (∃ (p : PortIx) (s : State), s.chip.has p .maint = false) ∧
    (∃ (p : PortIx) (r : RegionIx) (s : State), (let g := 32 * r.val + s.chip.rd (Reg.LaneTest.ROPE r); s.chip.has p
      .maint = true ∧ s.chip.twoHandOk 3 = true ∧ s.chip.laneTest r = LaneTestSt.idle ∧ 0 < s.chip.population g ∧
      s.chip.mode g = 3 ∧ (∀ a ∈ s.chip.ropeCells g, (s.chip.posn a).state = 4 ∨ (s.chip.posn a).state = 8))) :=
  ⟨⟨0, 0, 0x2370, tst [((Reg.Port.PORT_STATE 0), 2), ((Reg.Port.RIGHTS 0), 31), ((Reg.Rope.MODE 0), 3)], by decide⟩,
   ⟨0, 0, 0, tst [((Reg.Port.PORT_STATE 0), 2), ((Reg.Port.RIGHTS 0), 31), ((Reg.Rope.MODE 0), 3)], by decide⟩,
   ⟨0, 0, tst [((Reg.Port.PORT_STATE 0), 2), ((Reg.Port.RIGHTS 0), 31), ((Reg.Rope.MODE 0), 3)], by decide⟩,
   ⟨0, 0x2370, tst [] (fun c => c.setGate 0 { c.gate 0 with powered := true }), by decide⟩,
   ⟨0, 0, tst [] (fun c => c.setGate 0 { c.gate 0 with powered := true }), by decide⟩,
   ⟨0, tst [] (fun c => c.setGate 0 { c.gate 0 with powered := true }), by decide⟩,
   ⟨0, tst [], by decide⟩,
   ⟨0, 0, tst [(Reg.Rope.POPULATION 0, 1), (Reg.Rope.MODE 0, 3), (Reg.Port.PORT_STATE 0, 2), (Reg.Port.RIGHTS 0, 31)]
     (fun c => c.setAt 0 { c.posn 0 with state := 8 }), by decide⟩⟩

/-- Witnesses of the clauses of LaneOrdersAndTests. -/
theorem witness_lane_orders_and_tests_2 :
    (∃ (r : RegionIx) (s : State), (s.chip.laneTest r).starting = true ∧ (s.chip.laneTest r).acked < 6) ∧
    (∃ (r : RegionIx) (s : State), (s.chip.laneTest r).starting = true ∧ 6 ≤ (s.chip.laneTest r).acked ∧ s.chip.frame
      = (s.chip.laneTest r).startFrame ∧ (s.chip.laneTest r).rope < 32) ∧
    (∃ (r : RegionIx) (s : State), (s.chip.laneTest r).running = true) ∧
    (∃ (p : PortIx) (r : RegionIx) (s : State), s.chip.has p .maint = true ∧ (s.chip.laneTest r).running = true) ∧
    (∃ (g : RopeIx) (e : EndIx) (s : State), s.chip.rd (Reg.RLane.TEST_ACTIVE g e) = 1) ∧
    (∃ (g : RopeIx) (e : EndIx) (s : State), s.chip.rd (Reg.RLane.CHECKER_SYNC g e) = 1) ∧
    (∃ (a : CellAddr) (b : LaneIx) (s : State), s.chip.rd (Reg.CLane.TEST_ACTIVE a b) = 1) ∧
    (∃ (a : CellAddr) (b : LaneIx) (s : State), s.chip.rd (Reg.CLane.CHECKER_SYNC a b) = 1) :=
  ⟨⟨0, tst [] (fun c => c.setLaneTest 0 { c.laneTest 0 with starting := true, acked := 5 }), by decide⟩,
   ⟨0, tst [] (fun c => c.setLaneTest 0 { c.laneTest 0 with starting := true, acked := 6, rope := 31 }), by decide⟩,
   ⟨0, tst [] (fun c => c.setLaneTest 0 { c.laneTest 0 with running := true }), by decide⟩,
   ⟨0, 0, tst [((Reg.Port.PORT_STATE 0), 2), ((Reg.Port.RIGHTS 0), 31)] (fun c => c.setLaneTest 0
     { c.laneTest 0 with running := true }), by decide⟩,
   ⟨0, 0, tst [((Reg.RLane.TEST_ACTIVE 0 0), 1)], by decide⟩,
   ⟨0, 0, tst [((Reg.RLane.CHECKER_SYNC 0 0), 1)], by decide⟩,
   ⟨0, 0, tst [((Reg.CLane.TEST_ACTIVE 0 0), 1)], by decide⟩,
   ⟨0, 0, tst [((Reg.CLane.CHECKER_SYNC 0 0), 1)], by decide⟩⟩

/-- Witnesses of the clauses of Modules. -/
theorem witness_modules :
    (∃ (g : RopeIx) (e : EndIx) (s : State), s.chip.rd (Reg.Module.BUS_FAULT g e) = 0) ∧
    (∃ (g : RopeIx) (e : EndIx) (s : State), s.chip.rd (Reg.Module.PRESENT g e) = 1 ∧ s.chip.rd
      (Reg.Module.DIAG_VALID g e) = 1 ∧ s.chip.rd (Reg.Module.BUS_FAULT g e) = 0) ∧
    (∃ (d : RidgeIx) (bus : Fin 4) (x : Nat × Nat) (s : State), x ∈ busEnds d bus ∧ 0 < s.chip.population x.1) :=
  ⟨⟨0, 0, tst [((Reg.Module.BUS_FAULT 0 0), 0)], by decide⟩,
   ⟨0, 0, tst [((Reg.Module.PRESENT 0 0), 1), ((Reg.Module.DIAG_VALID 0 0), 1), ((Reg.Module.BUS_FAULT 0 0), 0)], by
     decide⟩,
   ⟨0, 0, (0, 0), tst [(Reg.Rope.POPULATION 0, 1)], by decide⟩⟩

/-- Witnesses of the clauses of StationFrames. -/
theorem witness_station_frames_1 :
    (∃ (dt : Nat) (s : State), s.chip.time.nextStart ≤ (s.chip.advance dt).nowNs ∧ s.chip.time.pendingSync = none) ∧
    (∃ (dt : Nat) (s : State), (s.chip.advance dt).nowNs < s.chip.time.nextStart) ∧
    (∃ (a : Fin 16384) (s : State), 0 < s.chip.population (a / 64) ∧ a % 64 < s.chip.population (a / 64) ∧
      (s.chip.posn a).admState = 6) ∧
    (∃ (bs : List Byte), Echo.read (bs.map BitVec.toNat) = none) ∧
    (∃ (g : RopeIx) (bs : List Byte) (x : Echo) (s : State), Echo.read (bs.map BitVec.toNat) = some x ∧ x.addr % 64 <
      s.chip.population g ∧ (s.chip.posn (64 * g.val + x.addr % 64)).admState = 1) ∧
    (∃ (cairn : List Byte), Cairn.read (cairn.map BitVec.toNat) = none) ∧
    (∃ (c : Chip) (n : Nat) (a : Nat), (c.posn a).freshFrame = some n) ∧
    (∃ (c : Chip) (n : Nat) (a : Nat), (c.posn a).freshFrame ≠ some n) :=
  ⟨⟨0, tst [], by decide⟩,
   ⟨0, tst [] (fun c => { c with time := { c.time with nextStart := 1 } }), by decide⟩,
   ⟨63, tst [(Reg.Rope.POPULATION 0, 64)] (fun c => c.setAt 63 { c.posn 63 with admState := 6 }), by decide⟩,
   ⟨[], by decide⟩,
   ⟨0, ((Echo.bytes ⟨0, 0, 0⟩).map (BitVec.ofNat 8)), ⟨0, 0, 0⟩, tst [(Reg.Rope.POPULATION 0, 1)] (fun c => c.setAt 0
     { c.posn 0 with admState := 1 }), by decide⟩,
   ⟨[], by decide⟩,
   ⟨(tst [] (fun c => c.setAt 0 { c.posn 0 with freshFrame := some 0 })).chip, 0, 0, by decide⟩,
   ⟨(tst []).chip, 0, 0, by decide⟩⟩

/-- Witness of StationFrames. -/
theorem witness_station_frames_2 :
    ∃ (c : Chip) (n : Nat) (a : Nat), (c.posn a).lastReport ≠ some n ∧ c.mode (a / 64) ≠ 3 :=
  ⟨(tst [(Reg.Rope.MODE 0, 1)] (id)).chip, 0, 0, by decide⟩

/-- Witnesses of the clauses of CellFrames. -/
theorem witness_cell_frames_1 :
    (∃ (a : CellAddr) (dt : Nat) (s : State), (s.chip.cellAdvance a dt).cellDue a = true ∧ 4 ≤ s.chip.cellState a ∧
      s.chip.cellState a ≤ 6 ∧ (s.chip.heldMode a = some (1)) ∧ s.chip.cellIsS a = false) ∧
    (∃ (a : CellAddr) (dt : Nat) (s : State), (s.chip.cellAdvance a dt).cellDue a = true ∧ 4 ≤ s.chip.cellState a ∧
      s.chip.cellState a ≤ 6 ∧ (s.chip.heldMode a = some (1)) ∧ s.chip.cellIsS a = true ∧ s.chip.cellState a = 4) ∧
    (∃ (a : CellAddr) (dt : Nat) (s : State), (s.chip.cellAdvance a dt).cellDue a = true ∧ 4 ≤ s.chip.cellState a ∧
      s.chip.cellState a ≤ 6 ∧ (s.chip.heldMode a = some (0))) ∧
    (∃ (a : CellAddr) (dt : Nat) (s : State), (s.chip.cellAdvance a dt).cellDue a = true ∧ 4 ≤ s.chip.cellState a ∧
      s.chip.cellState a ≤ 6 ∧ (s.chip.heldMode a = some (2)) ∧ s.chip.cellIsS a = false ∧ s.chip.rd
      (Reg.CId.FENCE_RECORD a) = 0 ∧ s.chip.rd (Reg.Prot.LOCAL_HOLD a) = 0 ∧ (s.chip.ct a).alignLost = false) ∧
    (∃ (a : CellAddr) (dt : Nat) (s : State), (s.chip.cellAdvance a dt).cellDue a = true ∧ 4 ≤ s.chip.cellState a ∧
      s.chip.cellState a ≤ 6) ∧
    (∃ (a : CellAddr) (dt : Nat) (t0 : Nat) (s : State), 4 ≤ s.chip.cellState a ∧ s.chip.cellState a ≤ 6 ∧
      (s.chip.cmd a).tb = some t0 ∧ t0 + 20480000 ≤ ((s.chip.cellAdvance a dt).ct a).time ∧ s.chip.heldMode a = none) ∧
    (∃ (a : CellAddr) (dt : Nat) (t0 : Nat) (s : State), 4 ≤ s.chip.cellState a ∧ s.chip.cellState a ≤ 6 ∧
      (s.chip.cmd a).tb = some t0 ∧ t0 + 20480000 ≤ ((s.chip.cellAdvance a dt).ct a).time ∧ s.chip.heldMode a ≠ none
      ∧ t0 + 20480000 = (s.chip.ct a).frameStart + s.chip.cellPeriod a) ∧
    (∃ (a : CellAddr) (b : LaneIx) (cairn : List Byte) (s : State), s.chip.rd (Reg.CLane.PORT_UP a b) = 1 ∧
      s.chip.cellState a ≠ 0 ∧ bits ((cairn.map BitVec.toNat).getD 1 0) 7 1 ≠ b.val) :=
  ⟨⟨0, 0, tst [(Reg.CId.CELL_STATE 0, 4)] (fun c => (c.setCt 0 { c.ct 0 with time := 2560000 }).setCmd 0
     { c.cmd 0 with held := [(((c.ct 0).frameNum + 1) % 2 ^ 32, cmdBlk 1)] }), by decide⟩,
   ⟨0, 0, tst [((Reg.CId.CELL_STATE 0), 4), (Reg.CId.CELL_STATE 0, 4)] (fun c => ((c.setCt 0
     { c.ct 0 with time := 2560000 }).setCmd 0
     { c.cmd 0 with held := [(((c.ct 0).frameNum + 1) % 2 ^ 32, cmdBlk 1)] }) |> fun c =>
     { c with parts := [(0, ⟨true, ⟨true, 0, 0, 0, none⟩, false⟩)] }), by decide⟩,
   ⟨0, 0, tst [(Reg.CId.CELL_STATE 0, 4)] (fun c => (c.setCt 0 { c.ct 0 with time := 2560000 }).setCmd 0
     { c.cmd 0 with held := [(((c.ct 0).frameNum + 1) % 2 ^ 32, cmdBlk 0)] }), by decide⟩,
   ⟨0, 0, tst [((Reg.CId.FENCE_RECORD 0), 0), ((Reg.Prot.LOCAL_HOLD 0), 0), (Reg.CId.CELL_STATE 0, 4)] (fun c =>
     (c.setCt 0 { c.ct 0 with time := 2560000 }).setCmd 0
     { c.cmd 0 with held := [(((c.ct 0).frameNum + 1) % 2 ^ 32, cmdBlk 2)] }), by decide⟩,
   ⟨0, 0, tst [(Reg.CId.CELL_STATE 0, 4)] (fun c => (c.setCt 0 { c.ct 0 with time := 2560000 }).setCmd 0
     { c.cmd 0 with held := [(((c.ct 0).frameNum + 1) % 2 ^ 32, cmdBlk 0)] }), by decide⟩,
   ⟨0, 0, 0, tst [(Reg.CId.CELL_STATE 0, 6)] (fun c => (c.setCt 0 { c.ct 0 with time := 20480000 }).setCmd 0
     { c.cmd 0 with tb := some 0 }), by decide⟩,
   ⟨0, 0, 0, tst [(Reg.CId.CELL_STATE 0, 6)] (fun c => (c.setCt 0
     { c.ct 0 with time := 20480000, frameStart := 17920000 }).setCmd 0
     { c.cmd 0 with tb := some 0, held := [(((c.ct 0).frameNum + 1) % 2 ^ 32, cmdBlk 1)] }), by decide⟩,
   ⟨0, 0, [0, 0x80], tst [((Reg.CLane.PORT_UP 0 0), 1), (Reg.CId.CELL_STATE 0, 4)], by decide⟩⟩

/-- Witnesses of the clauses of CellFrames. -/
theorem witness_cell_frames_2 :
    (∃ (a : CellAddr) (b : LaneIx) (cairn : List Byte) (slot : List Byte) (x : CmdBlk) (s : State), s.chip.rd
      (Reg.CLane.PORT_UP a b) = 1 ∧ 4 ≤ s.chip.cellState a ∧ s.chip.cellState a ≤ 6 ∧ bits ((cairn.map
      BitVec.toNat).getD 1 0) 7 1 = b.val ∧ Cairn.read (cairn.map BitVec.toNat) = none ∧ CmdBlk.read (slot.map
      BitVec.toNat) = some x ∧ x.empty = false ∧ x.target % 16384 = s.chip.rd (Reg.CId.CELL_ADDR a) ∧ x.epoch =
      s.chip.rd (Reg.CId.EPOCH a) ∧ x.seq = ((s.chip.ct a).frameNum + 1) % 2 ^ 32 % 65536 ∧ findKey (((s.chip.ct
      a).frameNum + 1) % 2 ^ 32) (s.chip.cmd a).held = none ∧ x.wellFormed (if (s.chip.ct a).frame20 then 25000 else
      12500) = true) ∧
    (∃ (a : CellAddr) (k : Fin 2) (m : Nat) (rest : List Nat) (s : State), s.chip.rd (Reg.CFlt.HEAD_VALID a) = 1 ∧
      s.chip.rd (Reg.CFlt.HEAD_T a) = k.val ∧ (s.chip.cmd a).faultQ = m :: rest) ∧
    (∃ (a : CellAddr) (k : Fin 2) (s : State), s.chip.rd (Reg.CFlt.HEAD_T a) ≠ k.val) ∧
    (∃ (a : CellAddr) (seq : Byte) (l : List BulkRec) (s : State), bulkAfter seq.toNat (s.chip.cmd a).bulkQ = some l) ∧
    (∃ (a : CellAddr) (body : Nat) (at0 : Nat) (n : Nat) (r : BulkRec) (l : List BulkRec) (s : State), (s.chip.cmd
      a).grant = some (at0, n) ∧ (s.chip.cmd a).bulkQ = r :: l ∧ r.payload.length / 8 + 1 ≤ n ∧ at0 + n ≤ body) :=
  ⟨⟨0, 0, [], ((cmdBlk 1).bytes.map (BitVec.ofNat 8)), ((CmdBlk.read (cmdBlk 1).bytes).getD (cmdBlk 1)), tst
     [((Reg.CLane.PORT_UP 0 0), 1), (Reg.CId.CELL_STATE 0, 4)] (fun c => c.setCt 0
     { c.ct 0 with frameNum := 2 ^ 32 - 1 }), by decide⟩,
   ⟨0, 0, 5, [], tst [((Reg.CFlt.HEAD_VALID 0), 1)] (fun c => c.setCmd 0 { c.cmd 0 with faultQ := [5] }), by decide⟩,
   ⟨0, 1, tst [], by decide⟩,
   ⟨0, 255, [], tst [] (fun c => c.setCmd 0 { c.cmd 0 with bulkQ := [⟨1, 255, []⟩] }), by decide⟩,
   ⟨0, 1, 0, 1, ⟨1, 0, []⟩, [], tst [] (fun c => c.setCmd 0
     { c.cmd 0 with grant := some (0, 1), bulkQ := [⟨1, 0, []⟩] }), by decide⟩⟩

/-- Witnesses of the clauses of ManagementEntries. -/
theorem witness_management_entries_1 :
    (∃ (a : CellAddr) (e : Fin 65536) (s : State), 2 ≤ s.chip.cellState a ∧ s.chip.epochFits a e = false) ∧
    (∃ (a : CellAddr) (e : Fin 65536) (reg : Byte) (s : State), 2 ≤ s.chip.cellState a ∧ s.chip.epochFits a e = true
      ∧ ¬(mgmtAt reg.toNat ≠ [] ∧ ¬(s.chip.cellIsS a = true ∧ sensorLacks reg.toNat = true))) ∧
    (∃ (a : CellAddr) (e : Fin 65536) (reg : Byte) (s : State), 2 ≤ s.chip.cellState a ∧ s.chip.epochFits a e = true
      ∧ (mgmtAt reg.toNat ≠ [] ∧ ¬(s.chip.cellIsS a = true ∧ sensorLacks reg.toNat = true)) ∧ writableIn
      (s.chip.cellState a) reg.toNat = false) ∧
    (∃ (a : CellAddr) (e : Fin 65536) (reg : Byte) (d : Word) (s : State), 2 ≤ s.chip.cellState a ∧ s.chip.epochFits
      a e = true ∧ (mgmtAt reg.toNat ≠ [] ∧ ¬(s.chip.cellIsS a = true ∧ sensorLacks reg.toNat = true)) ∧ writableIn
      (s.chip.cellState a) reg.toNat = true ∧ inRanges reg.toNat d.toNat = false) ∧
    (∃ (a : CellAddr) (e : Fin 65536) (reg : Byte) (d : Word) (s : State), 2 ≤ s.chip.cellState a ∧ s.chip.epochFits
      a e = true ∧ (mgmtAt reg.toNat ≠ [] ∧ ¬(s.chip.cellIsS a = true ∧ sensorLacks reg.toNat = true)) ∧ writableIn
      (s.chip.cellState a) reg.toNat = true ∧ inRanges reg.toNat d.toNat = true ∧ (reg.toNat ∉ [0x05, 0x06, 0x08,
      0x14, 0x15, 0x19, 0x32, 0x42, 0x36, 0x46, 0x56, 0x59, 0x63, 0x64, 0x65, 0xB0, 0xB3, 0xD1, 0xD3, 0xD9, 0xE7,
      0xF4, 0xF8])) ∧
    (∃ (a : CellAddr) (e : Fin 65536) (reg : Byte) (s : State), 2 ≤ s.chip.cellState a ∧ s.chip.epochFits a e = true
      ∧ (mgmtAt reg.toNat ≠ [] ∧ ¬(s.chip.cellIsS a = true ∧ sensorLacks reg.toNat = true)) ∧ (reg.toNat ∉ [0x05,
      0x06, 0x08, 0x14, 0x15, 0x19, 0x32, 0x42, 0x36, 0x46, 0x56, 0x59, 0x63, 0x64, 0x65, 0xB0, 0xB3, 0xD1, 0xD3,
      0xD9, 0xE7, 0xF4, 0xF8]) ∧ snapOf reg.toNat = []) ∧
    (∃ (a : CellAddr) (reg : Byte) (s : State), 2 ≤ s.chip.cellState a ∧ (reg.toNat < 0x30 ∨ 0x4F < reg.toNat)) ∧
    (∃ (a : CellAddr) (reg : Byte) (d : Word) (s : State), 2 ≤ s.chip.cellState a ∧ 0x30 ≤ reg.toNat ∧ reg.toNat ≤
      0x4F ∧ mgmtAt reg.toNat ≠ [] ∧ inRanges reg.toNat d.toNat = true ∧ (reg.toNat ∉ [0x05, 0x06, 0x08, 0x14, 0x15,
      0x19, 0x32, 0x42, 0x36, 0x46, 0x56, 0x59, 0x63, 0x64, 0x65, 0xB0, 0xB3, 0xD1, 0xD3, 0xD9, 0xE7, 0xF4, 0xF8])) :=
  ⟨⟨0, 1, tst [(Reg.CId.CELL_STATE 0, 5)], by decide⟩,
   ⟨0, 0, 0xFF, tst [(Reg.CId.CELL_STATE 0, 5)], by decide⟩,
   ⟨0, 0, 0x14, tst [(Reg.CId.CELL_STATE 0, 2)], by decide⟩,
   ⟨0, 0, 0x1A, 8001, tst [(Reg.CId.CELL_STATE 0, 5)], by decide⟩,
   ⟨0, 0, 0x37, 0, tst [(Reg.CId.CELL_STATE 0, 5)], by decide⟩,
   ⟨0, 0, 0x04, tst [(Reg.CId.CELL_STATE 0, 5)], by decide⟩,
   ⟨0, 0x50, tst [(Reg.CId.CELL_STATE 0, 5)], by decide⟩,
   ⟨0, 0x37, 0, tst [(Reg.CId.CELL_STATE 0, 5)], by decide⟩⟩

/-- Witness of ManagementEntries. -/
theorem witness_management_entries_2 :
    ∃ (a : CellAddr) (s : State), 2 ≤ s.chip.cellState a :=
  ⟨0, tst [(Reg.CId.CELL_STATE 0, 5)], by decide⟩

/-- Witnesses of the clauses of RankAndKeys. -/
theorem witness_rank_and_keys :
    (∃ (r : RegionIx) (s : State), (s.chip.rreg r).phase = 1) ∧
    (∃ (r : RegionIx) (s : State), (s.chip.rreg r).phase ≠ 1) ∧
    (∃ (r : RegionIx) (s : State), (s.chip.rreg r).phase = 1 ∧ s.chip.recov.outputsBlocked = false) ∧
    (∃ (w : Int) (wmax : Nat), w.natAbs ≤ wmax) :=
  ⟨⟨0, tst [] (fun c => c.setRreg 0 { c.rreg 0 with phase := 1 }), by decide⟩,
   ⟨0, tst [], by decide⟩,
   ⟨0, tst [] (fun c => c.setRreg 0 { c.rreg 0 with phase := 1 }), by decide⟩,
   ⟨0, 0, by decide⟩⟩

/-- Witnesses of the clauses of CommandsHandOver. -/
theorem witness_commands_hand_over :
    (∃ (r : RegionIx) (s : State), (s.chip.rreg r).phase = 2) ∧
    (∃ (r : RegionIx) (s : State), (s.chip.rreg r).phase = 3) :=
  ⟨⟨0, tst [] (fun c => c.setRreg 0 { c.rreg 0 with phase := 2 }), by decide⟩,
   ⟨0, tst [] (fun c => c.setRreg 0 { c.rreg 0 with phase := 3 }), by decide⟩⟩

/-- Witnesses of the clauses of PolicyTicks. -/
theorem witness_policy_ticks :
    (∃ (s : State), s.chip.frame % s.chip.tickFrames = 0 ∧ s.chip.policy.running = none) ∧
    (∃ (s : State), (s.chip.frame % s.chip.tickFrames ≠ 0 ∨ s.chip.policy.running ≠ none)) ∧
    (∃ (k : Tick) (s : State), s.chip.policy.running = some k) ∧
    (∃ (k : Tick) (s : State), s.chip.policy.running = some k ∧ s.chip.recov.outputsBlocked = false) :=
  ⟨⟨tst [], by decide⟩,
   ⟨tst [] (fun c => { c with policy := { c.policy with running := some ⟨0, 0, 0, [], [], 0, 0, 0⟩ } }), by decide⟩,
   ⟨⟨0, 0, 0, [], [], 0, 0, 0⟩, tst [] (fun c =>
     { c with policy := { c.policy with running := some ⟨0, 0, 0, [], [], 0, 0, 0⟩ } }), by decide⟩,
   ⟨⟨0, 0, 0, [], [], 0, 0, 0⟩, tst [] (fun c =>
     { c with policy := { c.policy with running := some ⟨0, 0, 0, [], [], 0, 0, 0⟩ } }), by decide⟩⟩

/-- Witnesses of the clauses of PolicyGuards. -/
theorem witness_policy_guards :
    (∃ (a : CellAddr) (s : State), s.chip.card.policy.socDisagreeTime * 1000000000 ≤ (s.chip.pol a).disagree ∧
      (s.chip.pol a).admitted = true ∧ (s.chip.pol a).packFenced = false ∧ (s.chip.pol a).isBarred s.chip.card.policy
      s.chip.runNs 4 = false ∧ (s.chip.fencesIn (regionOf a)).1 < s.chip.card.policy.fenceMax) ∧
    (∃ (a : CellAddr) (s : State), (s.chip.pol a).disagree < s.chip.card.policy.socDisagreeTime * 1000000000) ∧
    (∃ (a : CellAddr) (s : State), (s.chip.pol a).admitted = true ∧ (s.chip.pol a).healthFrom +
      s.chip.card.policy.healthMaxAge * 1000000000 ≤ s.chip.runNs) ∧
    (∃ (p : PortIx) (uid : Nat) (s : State), (let a := s.chip.rd (Reg.Lease.LEASE_CELL p); s.chip.has p .ledger =
      true ∧ (s.chip.xch a).admitted = some uid ∧ (s.chip.pol a).admitted = true ∧ uid % 2 ^ 32 = s.chip.rd
      (Reg.Lease.LEASE_UID p) ∧ s.chip.rd (Reg.Lease.LEASE_MODE p) = 0)) ∧
    (∃ (p : PortIx) (uid : Nat) (s : State), (let a := s.chip.rd (Reg.Lease.LEASE_CELL p); s.chip.has p .ledger =
      true ∧ (s.chip.xch a).admitted = some uid ∧ (s.chip.pol a).admitted = true ∧ uid % 2 ^ 32 = s.chip.rd
      (Reg.Lease.LEASE_UID p) ∧ s.chip.rd (Reg.Lease.LEASE_MODE p) = 1 ∧ (s.chip.pol a).quota ≠ 0xFFFFFFFF ∧
      s.chip.rd (Reg.Lease.LEASE_QUOTA p) ≠ 0xFFFFFFFF)) ∧
    (∃ (p : PortIx) (uid : Nat) (s : State), (let a := s.chip.rd (Reg.Lease.LEASE_CELL p); s.chip.has p .ledger =
      true ∧ (s.chip.xch a).admitted = some uid ∧ (s.chip.pol a).admitted = true ∧ uid % 2 ^ 32 ≠ s.chip.rd
      (Reg.Lease.LEASE_UID p))) ∧
    (∃ (p : PortIx) (s : State), s.chip.has p .ledger = false) :=
  ⟨⟨0, tst [] (fun c => c.setPol 0
     { c.pol 0 with admitted := true, disagree := c.card.policy.socDisagreeTime * 1000000000 }), by decide⟩,
   ⟨0, tst [], by decide⟩,
   ⟨0, tst [] (fun c =>
     { c.setPol 0 { c.pol 0 with admitted := true } with time := { c.time with units := c.card.policy.healthMaxAge * 1000000000 * 2 ^ 40 } }),
     by decide⟩,
   ⟨0, 0, tst [((Reg.Port.PORT_STATE 0), 2), ((Reg.Port.RIGHTS 0), 31), ((Reg.Lease.LEASE_MODE 0), 0)] (fun c =>
     (c.setPol 0 { c.pol 0 with admitted := true, quota := 5 }).setXch 0 { c.xch 0 with admitted := some 0 }), by
     decide⟩,
   ⟨0, 0, tst [((Reg.Port.PORT_STATE 0), 2), ((Reg.Port.RIGHTS 0), 31), ((Reg.Lease.LEASE_MODE 0), 1)] (fun c =>
     (c.setPol 0 { c.pol 0 with admitted := true, quota := 5 }).setXch 0 { c.xch 0 with admitted := some 0 }), by
     decide⟩,
   ⟨0, 7, tst [((Reg.Port.PORT_STATE 0), 2), ((Reg.Port.RIGHTS 0), 31)] (fun c => (c.setPol 0
     { c.pol 0 with admitted := true, quota := 5 }).setXch 0 { c.xch 0 with admitted := some 7 }), by decide⟩,
   ⟨0, tst [], by decide⟩⟩

/-- Witnesses of the clauses of LoopSteps. -/
theorem witness_loop_steps :
    (∃ (j : Fin 128) (d : SlotDef) (s : State), s.chip.card.loop.slots = [(j.val, d)] ∧ 0 < d.div ∧ (s.chip.frame +
      d.div - d.phase) % d.div = 0) ∧
    (∃ (s : State), s.chip.card.loop.slots = [] ∧ s.chip.orders.commit = none) ∧
    (∃ (j : Fin 128) (d : SlotDef) (s : State), s.chip.card.loop.slots = [(j.val, d)]) :=
  ⟨⟨0, sd, tst [] (slot0 SlotSt.idle), by decide⟩,
   ⟨tst [] (id), by decide⟩,
   ⟨0, sd, tst [] (slot0 SlotSt.idle), by decide⟩⟩

/-- Witnesses of the clauses of LoopEvents. -/
theorem witness_loop_events_1 :
    (∃ (j : Fin 128) (d : SlotDef) (s : State), s.chip.slotDef j = some d ∧ (s.chip.slot j).mode = 1 ∧ d.lostLimit <
      (s.chip.slot j).fbAge ∧ s.chip.recov.outputsBlocked = false) ∧
    (∃ (j : Fin 128) (d : SlotDef) (s : State), s.chip.slotDef j = some d ∧ (s.chip.slot j).lost = true ∧
      (s.chip.slot j).mode = 2 ∧ d.recover ≤ (s.chip.slot j).freshRun) ∧
    (∃ (j : Fin 128) (d : SlotDef) (s : State), s.chip.slotDef j = some d ∧ d.missLimit ≤ (s.chip.slot j).misses ∧ 0
      < (s.chip.slot j).misses ∧ s.chip.recov.outputsBlocked = false ∧ (s.chip.slot j).missRaised = false) ∧
    (∃ (j : Fin 128) (d : SlotDef) (s : State), s.chip.slotDef j = some d ∧ d.missLimit ≤ (s.chip.slot j).misses ∧ 0
      < (s.chip.slot j).misses ∧ s.chip.recov.outputsBlocked = false ∧ (s.chip.slot j).missRaised = true) ∧
    (∃ (j : Fin 128) (k : Fin 20) (d : SlotDef) (x : LoopTerm) (a : Nat) (ch : Nat) (s : State), s.chip.termAt j k =
      some (d, x) ∧ x.sensorOf false = some (a, ch) ∧ 0 < d.frozen ∧ d.frozen ≤ ((s.chip.slot j).term k).prim.same ∧
      ((s.chip.slot j).term k).prim.frozen = false) ∧
    (∃ (j : Fin 128) (k : Fin 20) (s : State), ((s.chip.slot j).term k).prim.frozen = true ∧ 16 ≤ ((s.chip.slot
      j).term k).prim.differ) ∧
    (∃ (j : Fin 128) (k : Fin 20) (s : State), ((s.chip.slot j).term k).prim.frozen = true ∧ ((s.chip.slot j).term
      k).prim.differ < 16) ∧
    (∃ (j : Fin 128) (k : Fin 20) (d : SlotDef) (s : State), s.chip.slotDef j = some d ∧ ((s.chip.slot j).term
      k).xchk = false ∧ d.xchkFrames ≤ ((s.chip.slot j).term k).apart ∧ 0 < ((s.chip.slot j).term k).apart ∧
      s.chip.recov.outputsBlocked = false) :=
  ⟨⟨0, sd, tst [] (slot0 { SlotSt.idle with mode := 1, fbAge := 2 }), by decide⟩,
   ⟨0, sd, tst [] (slot0 { SlotSt.idle with mode := 2, lost := true, freshRun := 1 }), by decide⟩,
   ⟨0, sd, tst [] (slot0 { SlotSt.idle with misses := 1 }), by decide⟩,
   ⟨0, sd, tst [] (slot0 { SlotSt.idle with misses := 1, missRaised := true }), by decide⟩,
   ⟨0, 0, sd, ⟨0, .sensor 0 1, none, .one⟩, 0, 1, tst [] (slot0
     { SlotSt.idle with terms := [(0, { TermSt.idle with prim := { SrcSt.idle with same := 1 } })] }), by decide⟩,
   ⟨0, 0, tst [] (slot0
     { SlotSt.idle with terms := [(0, { TermSt.idle with prim := { SrcSt.idle with frozen := true, differ := 16 } })] }),
     by decide⟩,
   ⟨0, 0, tst [] (slot0
     { SlotSt.idle with terms := [(0, { TermSt.idle with prim := { SrcSt.idle with frozen := true, differ := 15 } })] }),
     by decide⟩,
   ⟨0, 0, sd, tst [] (slot0 { SlotSt.idle with terms := [(0, { TermSt.idle with apart := 1 })] }), by decide⟩⟩

/-- Witnesses of the clauses of LoopEvents. -/
theorem witness_loop_events_2 :
    (∃ (j : Fin 128) (k : Fin 20) (d : SlotDef) (s : State), s.chip.slotDef j = some d ∧ ((s.chip.slot j).term
      k).xchk = true ∧ d.xchkFrames ≤ ((s.chip.slot j).term k).agree) ∧
    (∃ (p : PortIx) (d : SlotDef) (s : State), (let j := s.chip.rd (Reg.LoopCtl.SLOT_SEL p); s.chip.has p .order =
      true ∧ s.chip.slotDef j = some d ∧ d.manAllowed = true ∧ (s.chip.slot j).mode = 1 ∧ (s.chip.slot j).req = none
      ∧ s.chip.rd (Reg.LoopCtl.MODE_REQ p) = 2)) ∧
    (∃ (p : PortIx) (s : State), s.chip.has p .order = true ∧ s.chip.slotDef (s.chip.rd (Reg.LoopCtl.SLOT_SEL p)) =
      none) ∧
    (∃ (p : PortIx) (s : State), s.chip.has p .order = false) :=
  ⟨⟨0, 0, sd, tst [] (slot0 { SlotSt.idle with terms := [(0, { TermSt.idle with xchk := true, agree := 1 })] }), by
     decide⟩,
   ⟨0, sd, tst [((Reg.Port.PORT_STATE 0), 2), ((Reg.Port.RIGHTS 0), 31), ((Reg.LoopCtl.MODE_REQ 0), 2)] (slot0
     { SlotSt.idle with mode := 1 }), by decide⟩,
   ⟨0, tst [((Reg.Port.PORT_STATE 0), 2), ((Reg.Port.RIGHTS 0), 31)], by decide⟩,
   ⟨0, tst [], by decide⟩⟩

/-- Witnesses of the clauses of TasksStart. -/
theorem witness_tasks_start :
    (∃ (d : Fin 1024) (x : TaskDesc) (s : State), s.chip.taskDesc d = some x ∧ x.event = true ∧ (∀ k ∈
      s.chip.card.tasks.reach [d.val] [d.val] 128, s.chip.inst k = none) ∧ s.chip.sched.insts.length +
      (s.chip.card.tasks.reach [d.val] [d.val] 128).length ≤ 128) ∧
    (∃ (d : Fin 1024) (x : TaskDesc) (s : State), s.chip.taskDesc d = some x ∧ x.event = true ∧ (s.chip.inst
      d).isSome = true) ∧
    (∃ (dt : Nat) (d : Fin 1024) (i : TaskInst) (x : TaskDesc) (s : State), s.chip.inst d = some i ∧ s.chip.taskDesc
      d = some x ∧ i.phase = .waiting ∧ i.counter = 0 ∧ i.orphan = false ∧ (s.chip.advance dt).released x i = true) ∧
    (∃ (dt : Nat) (e : Fin 12) (j : TaskInst) (s : State), (∀ i ∈ s.chip.sched.insts, ¬(i.phase = .running ∧ i.engine
      = e)) ∧ j ∈ s.chip.sched.insts ∧ (s.chip.advance dt).eligible e j = true) ∧
    (∃ (dt : Nat) (d : Fin 1024) (i : TaskInst) (x : TaskDesc) (s : State), s.chip.inst d = some i ∧ s.chip.taskDesc
      d = some x ∧ i.phase = .running ∧ i.overran = false ∧ x.budget < (s.chip.advance dt).runNs - i.started) :=
  ⟨⟨0, td, tst [] (task0 td []), by decide⟩,
   ⟨0, td, tst [] (task0 td [ti]), by decide⟩,
   ⟨0, 0, ti, td, tst [] (task0 td [ti]), by decide⟩,
   ⟨0, 0, { ti with phase := .ready }, tst [] (task0 td [{ ti with phase := .ready }]), by decide⟩,
   ⟨0, 0, { ti with phase := .running }, td, tst [] (fun c =>
     { (task0 td [{ ti with phase := .running }] c) with time := { c.time with units := 2 ^ 40 } }), by decide⟩⟩

/-- Witnesses of the clauses of TasksEnd. -/
theorem witness_tasks_end_1 :
    (∃ (d : Fin 1024) (i : TaskInst) (x : TaskDesc) (s : State), s.chip.inst d = some i ∧ s.chip.taskDesc d = some x
      ∧ i.phase = .running ∧ s.chip.card.tasks.flowKind x.flow = 0 ∧ (s.chip.can 16384).queue = [] ∧ (s.chip.can
      16385).queue = []) ∧
    (∃ (d : Fin 1024) (i : TaskInst) (x : TaskDesc) (s : State), s.chip.inst d = some i ∧ s.chip.taskDesc d = some x) ∧
    (∃ (dt : Nat) (d : Fin 1024) (i : TaskInst) (x : TaskDesc) (s : State), s.chip.inst d = some i ∧ s.chip.taskDesc
      d = some x ∧ x.event = false ∧ x.deadlineOfs ≤ (s.chip.advance dt).nowNs - s.chip.time.frameStart) ∧
    (∃ (dt : Nat) (d : Fin 1024) (i : TaskInst) (x : TaskDesc) (s : State), s.chip.inst d = some i ∧ s.chip.taskDesc
      d = some x ∧ x.event = true ∧ x.timeout ≤ (s.chip.advance dt).runNs - i.activated) ∧
    (∃ (d : Fin 1024) (i : TaskInst) (x : TaskDesc) (s : State), s.chip.inst d = some i ∧ s.chip.taskDesc d = some x
      ∧ i.orphan = true) ∧
    (∃ (p : PortIx) (x : TaskDesc) (s : State), s.chip.has p .order = true ∧ s.chip.taskDesc (s.chip.rd
      (Reg.Trace.TASK_ORDER_SEL p)) = some x ∧ x.event = true ∧ x.hostCallable = true ∧ (s.chip.activate (s.chip.rd
      (Reg.Trace.TASK_ORDER_SEL p)) (some (s.chip.rd (Reg.Trace.TASK_ORDER_ARG p))) none).1 = 0) ∧
    (∃ (p : PortIx) (x : TaskDesc) (i : TaskInst) (s : State), s.chip.has p .order = true ∧ s.chip.taskDesc
      (s.chip.rd (Reg.Trace.TASK_ORDER_SEL p)) = some x ∧ x.event = true ∧ x.hostCallable = true ∧ s.chip.inst
      (s.chip.rd (Reg.Trace.TASK_ORDER_SEL p)) = some i) ∧
    (∃ (s : State), s.chip.sched.postLeft = some 0) :=
  ⟨⟨0, { ti with phase := .running }, td, tst [] (task0 td [{ ti with phase := .running }]), by decide⟩,
   ⟨0, ti, td, tst [] (task0 td [ti]), by decide⟩,
   ⟨0, 0, ti, { td with event := false }, tst [] (task0 { td with event := false } [ti]), by decide⟩,
   ⟨0, 0, ti, td, tst [] (task0 td [ti]), by decide⟩,
   ⟨0, { ti with orphan := true }, td, tst [] (task0 td [{ ti with orphan := true }]), by decide⟩,
   ⟨0, td, tst [((Reg.Port.PORT_STATE 0), 2), ((Reg.Port.RIGHTS 0), 31)] (task0 td []), by decide⟩,
   ⟨0, td, ti, tst [((Reg.Port.PORT_STATE 0), 2), ((Reg.Port.RIGHTS 0), 31)] (task0 td [ti]), by decide⟩,
   ⟨tst [] (fun c => { c with sched := { c.sched with postLeft := some 0 } }), by decide⟩⟩

/-- Witnesses of the clauses of TasksEnd. -/
theorem witness_tasks_end_2 :
    (∃ (p : PortIx) (s : State), (s.chip.has p .protect = true ∨ s.chip.has p .maint = true)) ∧
    (∃ (dt : Nat) (d : Fin 1024) (i : TaskInst) (st : Nat) (s : State), s.chip.inst d = some i ∧ i.date = some (none,
      st) ∧ (s.chip.advance dt).stamp = st) ∧
    (∃ (p : PortIx) (s : State), s.chip.has p .observe = true) :=
  ⟨⟨0, tst [((Reg.Port.PORT_STATE 0), 2), ((Reg.Port.RIGHTS 0), 31)], by decide⟩,
   ⟨0, 0, { ti with date := some (none, 0) }, 0, tst [] (task0 td [{ ti with date := some (none, 0) }]), by decide⟩,
   ⟨0, tst [((Reg.Port.PORT_STATE 0), 2), ((Reg.Port.RIGHTS 0), 31)], by decide⟩⟩

/-- Witnesses of the clauses of CellStates. -/
theorem witness_cell_states_1 :
    (∃ (a : CellAddr) (s : State), (s.chip.gate a).powered = false) ∧
    (∃ (a : CellAddr) (m : Fin 4) (s : State), m ≠ 0 ∧ mapGet false s.fuses.cellsClosed a = false) ∧
    (∃ (a : CellAddr) (s : State) (e : Fin 65536) (v : Word), (let st := s.chip.cellState a; st < 16 ∧ (st = 2 ∨ st =
      7) ∧ e.val = v.toNat % 65536 ∧ e.val ≠ s.chip.rd (Reg.CId.EPOCH a))) ∧
    (∃ (a : CellAddr) (s : State) (e : Fin 65536) (v : Word), (let st := s.chip.cellState a; st < 16 ∧ (st ≠ 2 ∧ st ≠
      7 ∨ e.val ≠ v.toNat % 65536 ∨ e.val = s.chip.rd (Reg.CId.EPOCH a)))) ∧
    (∃ (a : CellAddr) (s : State), (let st := s.chip.cellState a; st < 16 ∧ st = 3 ∧ s.chip.rd (Reg.CId.FENCE_RECORD
      a) = 0)) ∧
    (∃ (a : CellAddr) (s : State), (let st := s.chip.cellState a; st < 16 ∧ st = 3 ∧ s.chip.rd (Reg.CId.FENCE_RECORD
      a) = 1)) ∧
    (∃ (a : CellAddr) (s : State), (let st := s.chip.cellState a; st < 16 ∧ st ≠ 3)) ∧
    (∃ (a : CellAddr) (s : State), (let st := s.chip.cellState a; st < 16 ∧ 3 ≤ st ∧ st ≤ 7)) :=
  ⟨⟨0, tst [], by decide⟩,
   ⟨0, 1, tst [], by decide⟩,
   ⟨0, tst [(Reg.CId.CELL_STATE 0, 7)], 65535, 65535, by decide⟩,
   ⟨0, tst [(Reg.CId.CELL_STATE 0, 4)], 0, 0, by decide⟩,
   ⟨0, tst [(Reg.CId.CELL_STATE 0, 3)], by decide⟩,
   ⟨0, tst [(Reg.CId.CELL_STATE 0, 3), (Reg.CId.FENCE_RECORD 0, 1)], by decide⟩,
   ⟨0, tst [(Reg.CId.CELL_STATE 0, 4)], by decide⟩,
   ⟨0, tst [(Reg.CId.CELL_STATE 0, 7)], by decide⟩⟩

/-- Witnesses of the clauses of CellStates. -/
theorem witness_cell_states_2 :
    (∃ (a : CellAddr) (s : State), (let st := s.chip.cellState a; st < 16 ∧ (st < 3 ∨ 7 < st))) ∧
    (∃ (a : CellAddr) (s : State), (let st := s.chip.cellState a; st < 16 ∧ st = 8 ∧ (s.chip.rd (Reg.CId.FENCE_HARD
      a) = 0 ∨ s.chip.rd (Reg.CId.OFF_SINCE_FENCE a) = 1))) ∧
    (∃ (a : CellAddr) (s : State), (let st := s.chip.cellState a; st < 16 ∧ (st ≠ 8 ∨ s.chip.rd (Reg.CId.FENCE_HARD
      a) = 1 ∧ s.chip.rd (Reg.CId.OFF_SINCE_FENCE a) = 0))) ∧
    (∃ (a : CellAddr) (s : State), (let st := s.chip.cellState a; st < 16 ∧ 3 ≤ st ∧ st ≤ 6)) ∧
    (∃ (a : CellAddr) (s : State), (let st := s.chip.cellState a; st < 16 ∧ (st < 3 ∨ 6 < st))) ∧
    (∃ (a : CellAddr) (dt : Nat) (s : State), s.chip.cellState a = 3 ∧ (s.chip.cmd a).lastEntry + 25600000000 ≤
      ((s.chip.cellAdvance a dt).ct a).time) ∧
    (∃ (a : CellAddr) (s : State), 3 ≤ s.chip.cellState a ∧ s.chip.cellState a ≠ 7) ∧
    (∃ (a : CellAddr) (s : State), (s.chip.cellState a < 3 ∨ s.chip.cellState a = 7)) :=
  ⟨⟨0, tst [(Reg.CId.CELL_STATE 0, 8)], by decide⟩,
   ⟨0, tst [(Reg.CId.CELL_STATE 0, 8)], by decide⟩,
   ⟨0, tst [(Reg.CId.CELL_STATE 0, 8), (Reg.CId.FENCE_HARD 0, 1)], by decide⟩,
   ⟨0, tst [(Reg.CId.CELL_STATE 0, 6)], by decide⟩,
   ⟨0, tst [(Reg.CId.CELL_STATE 0, 7)], by decide⟩,
   ⟨0, 0, tst [((Reg.CId.CELL_STATE 0), 3)] (fun c => c.setCt 0 { c.ct 0 with time := 25600000000 }), by decide⟩,
   ⟨0, tst [(Reg.CId.CELL_STATE 0, 3)], by decide⟩,
   ⟨0, tst [], by decide⟩⟩

/-- Witness of CellStates. -/
theorem witness_cell_states_3 :
    ∃ (a : CellAddr) (s : State), 2 ≤ (s.chip.ct a).badFrames ∧ 3 ≤ s.chip.cellState a ∧ s.chip.cellState a ≤ 6 ∧
      s.chip.rd (Reg.CId.FENCE_RECORD a) = 0 ∧ s.chip.rd (Reg.Prot.LOCAL_HOLD a) = 0 ∧ s.chip.cellIsS a = false :=
  ⟨0, tst [((Reg.CId.FENCE_RECORD 0), 0), ((Reg.Prot.LOCAL_HOLD 0), 0), (Reg.CId.CELL_STATE 0, 6)] (fun c => c.setCt
    0 { c.ct 0 with badFrames := 2, pll := ⟨0, 0, 0, true⟩ }), by decide⟩

/-- Witnesses of the clauses of CellProtects. -/
theorem witness_cell_protects :
    (∃ (a : CellAddr) (g : Fin 4) (s : State), s.chip.cellIsS a = false ∧ (s.chip.gate a).powered = true ∧ bits
      (s.chip.rd (Reg.Gate.G_OUT a)) g 1 = 1 ∧ 3 ≤ s.chip.cellState a ∧ s.chip.cellState a < 16 ∧ s.chip.rd
      (Reg.CId.FENCE_RECORD a) = 0 ∧ s.chip.rd (Reg.Gate.TARGET_NOW a) < 3) ∧
    (∃ (a : CellAddr) (s : State), s.chip.cellIsS a = false ∧ (s.chip.gate a).powered = true ∧ 3 ≤ s.chip.cellState a
      ∧ s.chip.cellState a < 16 ∧ s.chip.rd (Reg.CId.FENCE_RECORD a) = 0 ∧ (s.chip.gate a).fired = false) ∧
    (∃ (a : CellAddr) (t0 : Nat) (s : State), (s.chip.gate a).fireAt = some t0) ∧
    (∃ (a : CellAddr) (dt : Nat) (t0 : Nat) (s : State), (s.chip.gate a).confirmFrom = some t0 ∧ t0 + s.chip.rd
      (Reg.Prot.BYP_CONFIRM_T a) * 256000000 ≤ ((s.chip.cellAdvance a dt).ct a).time) ∧
    (∃ (a : CellAddr) (s : State), s.chip.cellIsS a = true) :=
  ⟨⟨0, 0, tst [((Reg.CId.FENCE_RECORD 0), 0), (Reg.CId.CELL_STATE 0, 5), (Reg.Gate.G_OUT 0, 1), (Reg.Gate.TARGET_NOW
     0, 1)] (fun c => c.setGate 0 { c.gate 0 with powered := true }), by decide⟩,
   ⟨0, tst [((Reg.CId.FENCE_RECORD 0), 0), (Reg.CId.CELL_STATE 0, 5)] (fun c => c.setGate 0
     { c.gate 0 with powered := true }), by decide⟩,
   ⟨0, 7, tst [] (fun c => c.setGate 0 { c.gate 0 with fireAt := some 7 }), by decide⟩,
   ⟨0, 0, 0, tst [] (fun c => (c.setGate 0 { c.gate 0 with confirmFrom := some 0 }).setCt 0
     { c.ct 0 with time := c.rd (Reg.Prot.BYP_CONFIRM_T 0) * 256000000 }), by decide⟩,
   ⟨0, tst [] (fun c => { c with parts := [(0, ⟨true, ⟨true, 0, 0, 0, none⟩, false⟩)] }), by decide⟩⟩

/-- Witnesses of the clauses of CellGates. -/
theorem witness_cell_gates :
    (∃ (a : CellAddr) (tgt : Nat) (t0 : Nat) (s : State), (s.chip.gate a).deferred = some (tgt, t0) ∧ tgt < 4) ∧
    (∃ (a : CellAddr) (l : Nat) (s : State), (s.chip.gate a).lastChange = some l ∧ (s.chip.gate a).turnOn.any id =
      true ∧ (∀ k : Fin 4, (s.chip.gate a).turnOn.getD k false = true → s.chip.legFree a k (l + s.chip.rd
      (Reg.Gate.DEAD_TIME a)) = true)) ∧
    (∃ (a : CellAddr) (t0 : Nat) (tgt : Nat) (rest : List (Nat × Nat)) (s : State), (s.chip.gate a).schedule = (t0,
      tgt) :: rest ∧ s.chip.rd (Reg.CId.FENCE_RECORD a) = 0 ∧ s.chip.rd (Reg.Prot.LOCAL_HOLD a) = 0 ∧ (s.chip.ct
      a).alignLost = false ∧ s.chip.cellState a = 5 ∧ s.chip.cellIsS a = false ∧ tgt < 4 ∧ (s.chip.gate a).lastChange
      = none) :=
  ⟨⟨0, 2, 5, tst [] (fun c => c.setGate 0 { c.gate 0 with deferred := some (2, 5) }), by decide⟩,
   ⟨0, 0, tst [] (fun c => c.setGate 0 { c.gate 0 with lastChange := some 0, turnOn := [true, false, false, true] }),
     by decide⟩,
   ⟨0, 3, 1, [], tst [((Reg.CId.FENCE_RECORD 0), 0), ((Reg.Prot.LOCAL_HOLD 0), 0), ((Reg.CId.CELL_STATE 0), 5),
     (Reg.CId.CELL_STATE 0, 5)] (fun c => c.setGate 0 { c.gate 0 with schedule := [(3, 1)] }), by decide⟩⟩

/-- Witnesses of the clauses of Conversions. -/
theorem witness_conversions :
    (∃ (a : CellAddr) (n : Nat) (e : Nat) (s : State), (s.chip.meas1 a).loaded[n]? = some e ∧ s.chip.cellState a ≠ 0
      ∧ bits e 4 1 = 0) ∧
    (∃ (a : CellAddr) (r : ConvReq) (s : State), (s.chip.meas1 a).busy = none ∧ s.chip.cellState a ≠ 0 ∧ r ∈
      (s.chip.meas1 a).waiting) ∧
    (∃ (a : CellAddr) (dt : Nat) (n : Nat) (r : ConvReq) (s : State), (s.chip.meas1 a).waiting.find? (fun x => decide
      (x.idx = n) && decide (x.due + 2500 ≤ (s.chip.cellAdvance a dt).cellTick a)) = some r) ∧
    (∃ (a : CellAddr) (v : Fin 256) (s : State), (8 ≤ v.val ∨ (s.chip.planDir a v).2 = 0)) ∧
    (∃ (a : CellAddr) (v : Fin 256) (s : State), v.val < 8 ∧ (s.chip.planDir a v).2 ≠ 0 ∧ (s.chip.rd
      (Reg.Adc.PLAN_NOW a) ≠ v.val ∨ s.chip.rd (Reg.Adc.BOOT_PLAN a) = 1)) ∧
    (∃ (a : CellAddr) (r : ConvReq) (s : State), (s.chip.meas1 a).busy = some r ∧ s.chip.rd (Reg.Adc.BUF_HEAD a) <
      1024) :=
  ⟨⟨0, 0, 3, tst [(Reg.CId.CELL_STATE 0, 5)] (fun c => c.setMeas 0 { c.meas1 0 with loaded := [3] }), by decide⟩,
   ⟨0, ⟨0, 3, 0, 0, false⟩, tst [(Reg.CId.CELL_STATE 0, 5)] (fun c => c.setMeas 0
     { c.meas1 0 with waiting := [⟨0, 3, 0, 0, false⟩] }), by decide⟩,
   ⟨0, 0, 0, ⟨0, 3, 0, 0, false⟩, tst [(Reg.CId.CELL_STATE 0, 5)] (fun c => (c.setMeas 0
     { c.meas1 0 with waiting := [⟨0, 3, 0, 0, false⟩] }).setCt 0 { c.ct 0 with time := 512000 }), by decide⟩,
   ⟨0, 0, tst [], by decide⟩,
   ⟨0, 7, tst [(Reg.Adc.PLAN_DIR 0 7, 256)], by decide⟩,
   ⟨0, ⟨0, 3, 0, 0, false⟩, tst [(Reg.Adc.BUF_HEAD 0, 1023)] (fun c => c.setMeas 0
     { c.meas1 0 with busy := some ⟨0, 3, 0, 0, false⟩ }), by decide⟩⟩

/-- Witnesses of the clauses of CalibrationAndBatteryCurrent. -/
theorem witness_calibration_and_battery_current_1 :
    (∃ (a : CellAddr) (s : State), s.chip.cellState a = 8 ∧ (s.chip.meas1 a).cal = none) ∧
    (∃ (a : CellAddr) (s : State), s.chip.cellState a ≠ 8) ∧
    (∃ (a : CellAddr) (p : CalPoint) (s : State), (s.chip.meas1 a).cal = some p ∧ p.left = 0) ∧
    (∃ (a : CellAddr) (dt : Nat) (p : CalPoint) (s : State), (s.chip.meas1 a).cal = some p ∧ p.since + 1280000000000
      ≤ ((s.chip.cellAdvance a dt).ct a).time) ∧
    (∃ (p : PortIx) (s : State), s.chip.has p .maint = true ∧ s.chip.cal.running = none ∧ s.chip.twoHandOk 2 = true) ∧
    (∃ (p : PortIx) (s : State), (s.chip.has p .maint = false ∨ s.chip.cal.running.isSome = true)) ∧
    (∃ (p : PortIx) (r : RegionIx) (z : Int) (f : Int) (sz : Nat) (sf : Nat) (s : State),
      (let a := s.chip.calCell p r; let key := (a * 16 + s.chip.rd (Reg.Cal.CAL_AIN p r)) * 2; s.chip.has p .maint =
      true ∧ s.chip.cal.running = none ∧ s.chip.idFree a = true ∧ findKey key s.chip.cal.points = some (z, sz, false)
      ∧ findKey (key + 1) s.chip.cal.points = some (f, sf, false) ∧ z.natAbs ≤ 1024 * 16 ∧ 16384 * 16 ≤ (f -
      z).natAbs ∧ sz ≤ 64 ∧ sf ≤ 64)) ∧
    (∃ (p : PortIx) (r : RegionIx) (z : Int) (f : Int) (sz : Nat) (sf : Nat) (s : State),
      (let a := s.chip.calCell p r; let key := (a * 16 + s.chip.rd (Reg.Cal.CAL_AIN p r)) * 2; s.chip.has p .maint =
      true ∧ s.chip.cal.running = none ∧ s.chip.idFree a = true ∧ findKey key s.chip.cal.points = some (z, sz, false)
      ∧ findKey (key + 1) s.chip.cal.points = some (f, sf, false) ∧ (1024 * 16 < z.natAbs ∨ (f - z).natAbs < 16384 *
      16 ∨ 64 < sz ∨ 64 < sf))) :=
  ⟨⟨0, tst [((Reg.CId.CELL_STATE 0), 8)], by decide⟩,
   ⟨0, tst [], by decide⟩,
   ⟨0, ⟨0, 1, 0, 5, 1, 9, 0, 0⟩, tst [] (fun c => c.setMeas 0
     { c.meas1 0 with cal := some ⟨0, 1, 0, 5, 1, 9, 0, 0⟩ }), by decide⟩,
   ⟨0, 0, ⟨0, 1, 0, 5, 1, 9, 0, 0⟩, tst [] (fun c => (c.setMeas 0
     { c.meas1 0 with cal := some ⟨0, 1, 0, 5, 1, 9, 0, 0⟩ }).setCt 0 { c.ct 0 with time := 1280000000000 }), by
     decide⟩,
   ⟨0, tst [((Reg.Port.PORT_STATE 0), 2), ((Reg.Port.RIGHTS 0), 31)], by decide⟩,
   ⟨0, tst [], by decide⟩,
   ⟨0, 0, 16384, 278528, 64, 64, tst [((Reg.Port.PORT_STATE 0), 2), ((Reg.Port.RIGHTS 0), 31)] (fun c =>
     { c with cal := ⟨none, [(0, (16384, 64, false)), (1, (278528, 64, false))]⟩ }), by decide⟩,
   ⟨0, 0, 16385, 278529, 64, 64, tst [((Reg.Port.PORT_STATE 0), 2), ((Reg.Port.RIGHTS 0), 31)] (fun c =>
     { c with cal := ⟨none, [(0, (16385, 64, false)), (1, (278529, 64, false))]⟩ }), by decide⟩⟩

/-- Witnesses of the clauses of CalibrationAndBatteryCurrent. -/
theorem witness_calibration_and_battery_current_2 :
    (∃ (a : CellAddr) (s : State), 4 ≤ s.chip.cellState a ∧ s.chip.cellState a ≤ 6 ∧ s.chip.cellIsS a = false ∧
      s.chip.rd (Reg.Idb.PACK_STATE a) = 6 ∧ (s.chip.cmd a).dcdcEn = false) ∧
    (∃ (a : CellAddr) (s : State), 4 ≤ s.chip.cellState a ∧ s.chip.cellState a ≤ 6 ∧ s.chip.cellIsS a = false) ∧
    (∃ (a : CellAddr) (s : State), s.chip.rd (Reg.BcSlot.BC_MODE a) = 1 ∧ 1 ≤ (s.chip.bc a).agedRuns ∧ s.chip.rd
      (Reg.BcSlot.BC_LOST_LIMIT a) ≤ (s.chip.bc a).agedRuns ∧ (s.chip.pack a).openAsked = 0) :=
  ⟨⟨0, tst [((Reg.Idb.PACK_STATE 0), 6), (Reg.CId.CELL_STATE 0, 4)], by decide⟩,
   ⟨0, tst [(Reg.CId.CELL_STATE 0, 6)], by decide⟩,
   ⟨0, tst [((Reg.BcSlot.BC_MODE 0), 1)] (fun c => c.setBc 0
     { c.bc 0 with agedRuns := max 1 (c.rd (Reg.BcSlot.BC_LOST_LIMIT 0)) }), by decide⟩⟩

/-- Witnesses of the clauses of Correlators. -/
theorem witness_correlators_1 :
    (∃ (a : CellAddr) (s : State), 4 ≤ s.chip.cellState a ∧ s.chip.cellState a ≤ 6) ∧
    (∃ (a : CellAddr) (k : Fin 4) (s : State), ((s.chip.corr a k).phase = 1 ∨ (s.chip.corr a k).phase = 2) ∧
      s.chip.chanUsable a (s.chip.rd (Reg.Corr.REF_CH a k)) = true ∧ 4 ≤ s.chip.cellState a ∧ s.chip.cellState a ≤ 6) ∧
    (∃ (a : CellAddr) (k : Fin 4) (s : State), (s.chip.corr a k).phase = 3) ∧
    (∃ (a : CellAddr) (dt : Nat) (r : CapRun) (rest : List CapRun) (s : State), (s.chip.capture a).runs = r :: rest ∧
      (60 ≤ r.after.length ∨ r.at0 + 256000000 ≤ ((s.chip.cellAdvance a dt).ct a).time)) ∧
    (∃ (s : State), s.chip.rd Reg.Sweep.SWEEP_STATE = 0 ∧ s.chip.allBlocked = false) ∧
    (∃ (p : PortIx) (s : State), (s.chip.has p .order = true ∨ s.chip.has p .maint = true) ∧ s.chip.rd
      Reg.Sweep.SWEEP_STATE = 0 ∧ s.chip.allBlocked = false) ∧
    (∃ (p : PortIx) (s : State), (s.chip.has p .order = true ∨ s.chip.has p .maint = true) ∧ s.chip.rd
      Reg.Sweep.SWEEP_STATE = 0 ∧ s.chip.allBlocked = true) ∧
    (∃ (p : PortIx) (s : State), (s.chip.has p .order = true ∨ s.chip.has p .maint = true) ∧ s.chip.rd
      Reg.Sweep.SWEEP_STATE = 1) :=
  ⟨⟨0, tst [(Reg.CId.CELL_STATE 0, 5)], by decide⟩,
   ⟨0, 0, tst [(Reg.CId.CELL_STATE 0, 5)] (fun c => (c.setCorr 0 0 { c.corr 0 0 with phase := 2 }).setCt 0
     { c.ct 0 with valid := [true, true, true, true], waitRot := [false, false, false, false] }), by decide⟩,
   ⟨0, 0, tst [] (fun c => c.setCorr 0 0 { c.corr 0 0 with phase := 3 }), by decide⟩,
   ⟨0, 0, ⟨0, 0, 0, 0, [], []⟩, [], tst [] (fun c => (c.setCapture 0
     { c.capture 0 with runs := [⟨0, 0, 0, 0, [], []⟩] }).setCt 0 { c.ct 0 with time := 256000000 }), by decide⟩,
   ⟨tst [(Reg.Sweep.SWEEP_STATE, 0), (Reg.Ord.BLOCKED, 0)], by decide⟩,
   ⟨0, tst [((Reg.Port.PORT_STATE 0), 2), ((Reg.Port.RIGHTS 0), 31), (Reg.Sweep.SWEEP_STATE, 0), (Reg.Ord.BLOCKED,
     0)], by decide⟩,
   ⟨0, tst [((Reg.Port.PORT_STATE 0), 2), ((Reg.Port.RIGHTS 0), 31), (Reg.Sweep.SWEEP_STATE, 0)], by decide⟩,
   ⟨0, tst [((Reg.Port.PORT_STATE 0), 2), ((Reg.Port.RIGHTS 0), 31), (Reg.Sweep.SWEEP_STATE, 1)], by decide⟩⟩

/-- Witnesses of the clauses of Correlators. -/
theorem witness_correlators_2 :
    (∃ (p : PortIx) (s : State), s.chip.has p .order = false ∧ s.chip.has p .maint = false) ∧
    (∃ (b : List Byte) (a : Nat) (r : BulkRec) (s : State), s.chip.bulkIn (b.map BitVec.toNat) 1 = some (a, r)) :=
  ⟨⟨0, tst [], by decide⟩,
   ⟨((bulkHeader 0 ⟨1, 9, List.replicate 48 0⟩ ++ List.replicate 48 0).map (BitVec.ofNat 8)), 0, ⟨1, 9,
     List.replicate 48 0⟩, tst [] (fun c => c.setAt 0 { c.posn 0 with admState := 6 }), by decide⟩⟩

/-- Witnesses of the clauses of PackPresence. -/
theorem witness_pack_presence :
    (∃ (a : CellAddr) (s : State), s.chip.cellIsS a = false ∧ s.chip.packState a = 0) ∧
    (∃ (a : CellAddr) (dt : Nat) (t0 : Nat) (s : State), s.chip.packState a = 1 ∧ (s.chip.pack a).presentSince = some
      t0 ∧ t0 + s.chip.rd (Reg.Idb.PRESENT_DEBOUNCE a) * 256000000 ≤ ((s.chip.cellAdvance a dt).ct a).time) ∧
    (∃ (a : CellAddr) (s : State), s.chip.cellIsS a = false ∧ s.chip.packState a ≠ 0) ∧
    (∃ (a : CellAddr) (s : State), s.chip.cellIsS a = false ∧ (s.chip.packState a = 1 ∨ s.chip.packState a = 2)) ∧
    (∃ (a : CellAddr) (dt : Nat) (t0 : Nat) (s : State), s.chip.packState a = 5 ∧ (s.chip.pack a).closing = some t0 ∧
      t0 + s.chip.rd (Reg.Idb.PORT_CLOSE_T a) * 2560000000 ≤ ((s.chip.cellAdvance a dt).ct a).time) :=
  ⟨⟨0, tst [], by decide⟩,
   ⟨0, 0, 0, tst [(Reg.Idb.PACK_STATE 0, 1)] (fun c => (c.setPack 0 { c.pack 0 with presentSince := some 0 }).setCt 0
     { c.ct 0 with time := c.rd (Reg.Idb.PRESENT_DEBOUNCE 0) * 256000000 }), by decide⟩,
   ⟨0, tst [(Reg.Idb.PACK_STATE 0, 6)], by decide⟩,
   ⟨0, tst [(Reg.Idb.PACK_STATE 0, 2)], by decide⟩,
   ⟨0, 0, 0, tst [(Reg.Idb.PACK_STATE 0, 5)] (fun c => (c.setPack 0 { c.pack 0 with closing := some 0 }).setCt 0
     { c.ct 0 with time := c.rd (Reg.Idb.PORT_CLOSE_T 0) * 2560000000 }), by decide⟩⟩

/-- Witnesses of the clauses of PackOrders. -/
theorem witness_pack_orders_1 :
    (∃ (a : CellAddr) (s : State), s.chip.cellIsS a = false ∧ (s.chip.packState a = 1 ∨ s.chip.packState a = 2)) ∧
    (∃ (a : CellAddr) (s : State), s.chip.cellIsS a = false ∧ s.chip.packState a ≠ 1 ∧ s.chip.packState a ≠ 2) ∧
    (∃ (a : CellAddr) (s : State), s.chip.cellIsS a = false ∧ s.chip.packState a ≠ 0) ∧
    (∃ (a : CellAddr) (s : State), s.chip.cellIsS a = false ∧ s.chip.packState a = 0) ∧
    (∃ (a : CellAddr) (s : State), s.chip.cellIsS a = false ∧ s.chip.packState a = 8 ∧ s.chip.idFree a = true) ∧
    (∃ (a : CellAddr) (s : State), s.chip.cellIsS a = false ∧ s.chip.mayClose a = true) ∧
    (∃ (a : CellAddr) (s : State), s.chip.cellIsS a = false ∧ s.chip.mayClose a = false) ∧
    (∃ (a : CellAddr) (s : State), s.chip.cellIsS a = false ∧ 4 ≤ s.chip.packState a ∧ s.chip.packState a ≤ 7 ∧
      s.chip.rd (Reg.BcSlot.BC_MODE a) ≠ 1) :=
  ⟨⟨0, tst [(Reg.Idb.PACK_STATE 0, 2)], by decide⟩,
   ⟨0, tst [], by decide⟩,
   ⟨0, tst [(Reg.Idb.PACK_STATE 0, 5)], by decide⟩,
   ⟨0, tst [], by decide⟩,
   ⟨0, tst [(Reg.Idb.PACK_STATE 0, 8)], by decide⟩,
   ⟨0, tst [(Reg.Idb.PACK_STATE 0, 4), (Reg.CId.CELL_STATE 0, 4), (Reg.Adc.CAL_LOADED 0, 1)] (fun c => c.setPack 0
     { c.pack 0 with accepted := true, debounced := true, decodedAt := some 0, targets := [(0, ⟨0x3F800000, 0, 1⟩), (10, ⟨0x3F800000, 0, 1⟩)] }),
     by decide⟩,
   ⟨0, tst [], by decide⟩,
   ⟨0, tst [(Reg.Idb.PACK_STATE 0, 7)], by decide⟩⟩

/-- Witnesses of the clauses of PackOrders. -/
theorem witness_pack_orders_2 :
    (∃ (a : CellAddr) (s : State), s.chip.cellIsS a = false ∧ 3 ≤ s.chip.packState a ∧ s.chip.rd (Reg.BcSlot.BC_MODE
      a) ≠ 1) ∧
    (∃ (a : CellAddr) (s : State), s.chip.cellIsS a = false ∧ s.chip.packState a = 6 ∧ s.chip.rd (Reg.BcSlot.BC_MODE
      a) = 1) ∧
    (∃ (a : CellAddr) (s : State), s.chip.cellIsS a = false ∧ s.chip.idFree a = true) ∧
    (∃ (a : CellAddr) (s : State), s.chip.cellIsS a = false ∧ s.chip.idFree a = true ∧ (s.chip.pack a).debounced =
      true) ∧
    (∃ (a : CellAddr) (s : State), s.chip.cellIsS a = false ∧ s.chip.idFree a = false) ∧
    (∃ (a : CellAddr) (s : State), s.chip.cellIsS a = true) ∧
    (∃ (a : CellAddr) (s : State), (s.chip.can a).queue = []) ∧
    (∃ (a : CellAddr) (f : CanFrame) (rest : List CanFrame) (s : State), (s.chip.can a).queue = f :: rest ∧
      (s.chip.pack a).nSignals = 0) :=
  ⟨⟨0, tst [(Reg.Idb.PACK_STATE 0, 3)], by decide⟩,
   ⟨0, tst [((Reg.BcSlot.BC_MODE 0), 1), (Reg.Idb.PACK_STATE 0, 6)], by decide⟩,
   ⟨0, tst [], by decide⟩,
   ⟨0, tst [] (fun c => c.setPack 0 { c.pack 0 with debounced := true }), by decide⟩,
   ⟨0, tst [] (fun c => c.setPack 0 { c.pack 0 with busHeld := true }), by decide⟩,
   ⟨0, tst [] (fun c => { c with parts := [(0, ⟨true, ⟨true, 0, 0, 0, none⟩, false⟩)] }), by decide⟩,
   ⟨0, tst [], by decide⟩,
   ⟨0, ⟨0, false, false, false, false, false, [], 0⟩, [], tst [] (fun c => c.setCan 0
     { c.can 0 with queue := [⟨0, false, false, false, false, false, [], 0⟩] }), by decide⟩⟩

/-- Witnesses of the clauses of PackOrders. -/
theorem witness_pack_orders_3 :
    (∃ (a : CellAddr) (dt : Nat) (k : Fin 14) (x : TargetSt) (s : State), findKey k.val (s.chip.pack a).targets =
      some x ∧ x.at0 + x.timeout < ((s.chip.cellAdvance a dt).ct a).time) ∧
    (∃ (a : CellAddr) (dt : Nat) (k : Fin 14) (x : TargetSt) (s : State), findKey k.val (s.chip.pack a).targets =
      some x ∧ ((s.chip.cellAdvance a dt).ct a).time ≤ x.at0 + x.timeout) ∧
    (∃ (a : CellAddr) (dt : Nat) (t0 : Nat) (s : State), (s.chip.pack a).fenceSince = some t0 ∧ t0 + bits
      ((s.chip.pack a).profWord 0 1) 8 8 * 25600000000 ≤ ((s.chip.cellAdvance a dt).ct a).time) ∧
    (∃ (a : CellAddr) (k : Fin 2) (s : State), (s.chip.pack a).profWord (1 + k) 0 % 2 ^ 30 ≠ 0 ∧ s.chip.rd
      (Reg.Can.CAN_STATE a) ≠ 0 ∧ ((s.chip.can a).buf k).isSome = true) ∧
    (∃ (a : CellAddr) (s : State), (s.chip.pack a).loaded = true) ∧
    (∃ (a : CellAddr) (s : State), (s.chip.pack a).loaded = false) ∧
    (∃ (b : List Byte) (a : Nat) (r : BulkRec) (s : State), s.chip.bulkIn (b.map BitVec.toNat) 3 = some (a, r) ∧
      (s.chip.posn a).bulkAck = some r.seq) ∧
    (∃ (b : List Byte) (a : Nat) (r : BulkRec) (s : State), s.chip.bulkIn (b.map BitVec.toNat) 3 = some (a, r) ∧
      (s.chip.posn a).bulkAck ≠ some r.seq ∧ (s.chip.xch a).bmsFrom = none ∧ (s.chip.xch a).closing = false) :=
  ⟨⟨0, 0, 13, ⟨1, 0, 5⟩, tst [] (fun c => (c.setPack 0 { c.pack 0 with targets := [(13, ⟨1, 0, 5⟩)] }).setCt 0
     { c.ct 0 with time := 6 }), by decide⟩,
   ⟨0, 0, 13, ⟨1, 0, 5⟩, tst [] (fun c => (c.setPack 0 { c.pack 0 with targets := [(13, ⟨1, 0, 5⟩)] }).setCt 0
     { c.ct 0 with time := 5 }), by decide⟩,
   ⟨0, 0, 0, tst [] (fun c => c.setPack 0 { c.pack 0 with fenceSince := some 0 }), by decide⟩,
   ⟨0, 0, tst [((Reg.Can.CAN_STATE 0), 1), (Reg.Can.CAN_STATE 0, 1)] (fun c => (c.setPack 0
     { c.pack 0 with profile := [(4, 5)] }).setCan 0
     { c.can 0 with buf0 := some ⟨⟨0, false, false, false, false, false, [], 0⟩, false, false, none⟩ }), by decide⟩,
   ⟨0, tst [] (fun c => c.setPack 0 { c.pack 0 with profile := [(0, 1), (1, 1)] }), by decide⟩,
   ⟨0, tst [], by decide⟩,
   ⟨((bulkHeader 0 ⟨3, 9, List.replicate 48 0⟩ ++ List.replicate 48 0).map (BitVec.ofNat 8)), 0, ⟨3, 9,
     List.replicate 48 0⟩, tst [] (fun c => c.setAt 0 { c.posn 0 with admState := 6, bulkAck := some 9 }), by decide⟩,
   ⟨((bulkHeader 0 ⟨3, 9, List.replicate 48 0⟩ ++ List.replicate 48 0).map (BitVec.ofNat 8)), 0, ⟨3, 9,
     List.replicate 48 0⟩, tst [] (fun c => c.setAt 0 { c.posn 0 with admState := 6 }), by decide⟩⟩

/-- Witnesses of the clauses of IdentityBus. -/
theorem witness_identity_bus_1 :
    (∃ (a : CellAddr) (tries : Nat) (s : State), (s.chip.pack a).job = some (.read true false tries true) ∧
      (s.chip.posn a).admState < 5 ∧ s.chip.packState a ≠ 2) ∧
    (∃ (a : CellAddr) (b : List Byte) (stage : Bool) (both : Bool) (tries : Nat) (s : State), (s.chip.pack a).job =
      some (.read stage both tries false) ∧ crcOk (b.map BitVec.toNat) 0 (if stage then 64 else 128) = false) ∧
    (∃ (a : CellAddr) (stage : Bool) (both : Bool) (again : Bool) (tries : Nat) (s : State), (s.chip.pack a).job =
      some (.read stage both tries again) ∧ tries < 3) ∧
    (∃ (a : CellAddr) (k : Nat) (img : List Nat) (retried : Bool) (s : State), (s.chip.pack a).job = some (.summary k
      img retried)) ∧
    (∃ (a : CellAddr) (k : Nat) (img : List Nat) (retried : Bool) (s : State), (s.chip.pack a).job = some (.summary k
      img retried) ∧ retried = false) ∧
    (∃ (a : CellAddr) (k : Nat) (img : List Nat) (retried : Bool) (s : State), (s.chip.pack a).job = some (.summary k
      img retried) ∧ retried = true) ∧
    (∃ (a : CellAddr) (k : Nat) (retried : Bool) (s : State), (s.chip.pack a).job = some (.cal k retried) ∧ k < 2) ∧
    (∃ (a : CellAddr) (k : Nat) (retried : Bool) (s : State), (s.chip.pack a).job = some (.cal k retried) ∧ k < 2 ∧
      retried = false) :=
  ⟨⟨0, 0, tst [] (fun c => c.setPack 0 { c.pack 0 with job := some (.read true false 0 true) }), by decide⟩,
   ⟨0, [], false, false, 0, tst [] (fun c => c.setPack 0 { c.pack 0 with job := some (.read false false 0 false) }),
     by decide⟩,
   ⟨0, false, false, false, 2, tst [] (fun c => c.setPack 0
     { c.pack 0 with job := some (.read false false 2 false) }), by decide⟩,
   ⟨0, 0, [], false, tst [] (fun c => c.setPack 0 { c.pack 0 with job := some (.summary 0 [] false) }), by decide⟩,
   ⟨0, 0, [], false, tst [] (fun c => c.setPack 0 { c.pack 0 with job := some (.summary 0 [] false) }), by decide⟩,
   ⟨0, 0, [], true, tst [] (fun c => c.setPack 0 { c.pack 0 with job := some (.summary 0 [] true) }), by decide⟩,
   ⟨0, 1, false, tst [] (fun c => c.setPack 0 { c.pack 0 with job := some (.cal 1 false) }), by decide⟩,
   ⟨0, 1, false, tst [] (fun c => c.setPack 0 { c.pack 0 with job := some (.cal 1 false) }), by decide⟩⟩

/-- Witnesses of the clauses of IdentityBus. -/
theorem witness_identity_bus_2 :
    (∃ (a : CellAddr) (k : Nat) (retried : Bool) (s : State), (s.chip.pack a).job = some (.cal k retried) ∧ k < 2 ∧
      retried = true) ∧
    (∃ (a : CellAddr) (s : State), (s.chip.pack a).busHeld = true) ∧
    (∃ (a : CellAddr) (s : State), s.chip.cellIsS a = false) ∧
    (∃ (a : CellAddr) (s : State), (let i := s.chip.rd (Reg.Idb.REC_IDX a); s.chip.cellIsS a = false ∧
      (s.chip.cellState a = 3 ∨ s.chip.cellState a = 8) ∧ s.chip.rd (Reg.Idb.REC_SEL a) = 1 ∧ 16 ≤ i ∧ i < 56)) ∧
    (∃ (a : CellAddr) (s : State), (let i := s.chip.rd (Reg.Idb.REC_IDX a); s.chip.cellIsS a = false ∧ (s.chip.rd
      (Reg.Idb.REC_SEL a) = 0 ∨ i < 16 ∨ 56 ≤ i))) ∧
    (∃ (a : CellAddr) (s : State), s.chip.cellIsS a = false ∧ s.chip.packState a ≤ 3) ∧
    (∃ (a : CellAddr) (s : State), s.chip.cellIsS a = false ∧ 3 < s.chip.packState a) :=
  ⟨⟨0, 1, true, tst [] (fun c => c.setPack 0 { c.pack 0 with job := some (.cal 1 true) }), by decide⟩,
   ⟨0, tst [] (fun c => c.setPack 0 { c.pack 0 with busHeld := true }), by decide⟩,
   ⟨0, tst [], by decide⟩,
   ⟨0, tst [((Reg.CId.CELL_STATE 0), 3), ((Reg.Idb.REC_SEL 0), 1), (Reg.CId.CELL_STATE 0, 8), (Reg.Idb.REC_SEL 0, 1),
     (Reg.Idb.REC_IDX 0, 55)], by decide⟩,
   ⟨0, tst [((Reg.Idb.REC_SEL 0), 0)], by decide⟩,
   ⟨0, tst [], by decide⟩,
   ⟨0, tst [(Reg.Idb.PACK_STATE 0, 4)], by decide⟩⟩

/-- Witnesses of the clauses of Exchanges. -/
theorem witness_exchanges_1 :
    (∃ (p : PortIx) (s : State), (let a := s.chip.rd (Reg.Xchg.XCHG_CELL p); s.chip.has p .maint = true ∧ a % 64 <
      s.chip.population (a / 64) ∧ s.chip.isSensor a = false ∧ s.chip.packState a ≠ 1 ∧ s.chip.packState a ≠ 2 ∧
      s.chip.packState a ≠ 5 ∧ (∀ e ∈ s.chip.xchs, xchgRuns e.2.state = false) ∧ s.chip.twoHandOk 0 = true)) ∧
    (∃ (p : PortIx) (s : State), (let a := s.chip.rd (Reg.Xchg.XCHG_CELL p); s.chip.has p .maint = true ∧ a % 64 <
      s.chip.population (a / 64) ∧ s.chip.isSensor a = false ∧ s.chip.packState a ≠ 1 ∧ s.chip.packState a ≠ 2 ∧
      s.chip.packState a ≠ 5 ∧ (∃ e ∈ s.chip.xchs, xchgRuns e.2.state = true ∧ e.1 / 64 = a / 64))) ∧
    (∃ (p : PortIx) (s : State), (let a := s.chip.rd (Reg.Xchg.XCHG_CELL p); s.chip.has p .maint = true ∧ a % 64 <
      s.chip.population (a / 64) ∧ s.chip.isSensor a = false ∧ s.chip.packState a ≠ 1 ∧ s.chip.packState a ≠ 2 ∧
      s.chip.packState a ≠ 5 ∧ (∀ e ∈ s.chip.xchs, xchgRuns e.2.state = false) ∧ s.chip.twoHandOk 0 = false)) ∧
    (∃ (p : PortIx) (s : State), s.chip.has p .maint = false) ∧
    (∃ (a : CellAddr) (s : State), (s.chip.xch a).state = 1 ∧ 10 ≤ (s.chip.xch a).low) ∧
    (∃ (a : CellAddr) (s : State), (s.chip.xch a).state = 1 ∧ (s.chip.xch a).low < 10) ∧
    (∃ (p : PortIx) (s : State), (let a := s.chip.rd (Reg.Xchg.XCHG_CELL p); s.chip.has p .maint = true ∧ 1 ≤
      (s.chip.xch a).state ∧ (s.chip.xch a).state ≤ 4)) ∧
    (∃ (p : PortIx) (s : State), (let a := s.chip.rd (Reg.Xchg.XCHG_CELL p); s.chip.has p .maint = true ∧
      ((s.chip.xch a).state = 0 ∨ 4 < (s.chip.xch a).state))) :=
  ⟨⟨0, tst [((Reg.Port.PORT_STATE 0), 2), ((Reg.Port.RIGHTS 0), 31), (Reg.Rope.POPULATION 0, 1)], by decide⟩,
   ⟨0, tst [((Reg.Port.PORT_STATE 0), 2), ((Reg.Port.RIGHTS 0), 31), (Reg.Rope.POPULATION 0, 1)] (fun c => c.setXch 0
     { c.xch 0 with state := 6 }), by decide⟩,
   ⟨0, tst [((Reg.Port.PORT_STATE 0), 2), ((Reg.Port.RIGHTS 0), 31), (Reg.Rope.POPULATION 0, 1),
     (Reg.Saf.TWO_HAND_ORDERS, 1)], by decide⟩,
   ⟨0, tst [], by decide⟩,
   ⟨0, tst [] (fun c => c.setXch 0 { c.xch 0 with state := 1, low := 10 }), by decide⟩,
   ⟨0, tst [] (fun c => c.setXch 0 { c.xch 0 with state := 1, low := 9 }), by decide⟩,
   ⟨0, tst [((Reg.Port.PORT_STATE 0), 2), ((Reg.Port.RIGHTS 0), 31)] (fun c => c.setXch 0
     { c.xch 0 with state := 4 }), by decide⟩,
   ⟨0, tst [((Reg.Port.PORT_STATE 0), 2), ((Reg.Port.RIGHTS 0), 31)], by decide⟩⟩

/-- Witnesses of the clauses of Exchanges. -/
theorem witness_exchanges_2 :
    (∃ (a : CellAddr) (dt : Nat) (s : State), ((s.chip.xch a).state = 3 ∨ (s.chip.xch a).state = 4) ∧ (s.chip.xch
      a).at0 + s.chip.card.pack.xchgTimeout * 1000000000 ≤ (s.chip.advance dt).runNs) ∧
    (∃ (a : CellAddr) (dt : Nat) (t0 : Nat) (s : State), (s.chip.xch a).bmsFrom = some t0 ∧ t0 +
      s.chip.card.pack.bmsWait * 1000000 ≤ (s.chip.advance dt).runNs) :=
  ⟨⟨0, 0, tst [] (fun c =>
     { c.setXch 0 { c.xch 0 with state := 4 } with time := { c.time with units := c.card.pack.xchgTimeout * 1000000000 * 2 ^ 40 } }),
     by decide⟩,
   ⟨0, 0, 0, tst [] (fun c =>
     { c.setXch 0 { c.xch 0 with bmsFrom := some 0 } with time := { c.time with units := c.card.pack.bmsWait * 1000000 * 2 ^ 40 } }),
     by decide⟩⟩

/-- Witnesses of the clauses of LedgerRows. -/
theorem witness_ledger_rows_1 :
    (∃ (a : CellAddr) (s : State), s.chip.cellIsS a = false ∧ (s.chip.ct a).timeValid = true ∧ (s.chip.ledger
      a).commit = none) ∧
    (∃ (a : CellAddr) (m : Commit) (s : State), s.chip.cellIsS a = false ∧ (s.chip.ct a).timeValid = true ∧
      (s.chip.ledger a).commit = some m ∧ s.chip.packState a ≠ 7) ∧
    (∃ (a : CellAddr) (s : State), (s.chip.cellIsS a = true ∨ (s.chip.ct a).timeValid = false)) ∧
    (∃ (a : CellAddr) (dt : Nat) (u : Nat × Nat) (s : State), s.chip.cellIsS a = false ∧ (s.chip.ct a).timeValid =
      true ∧ (s.chip.ledger a).commit = none ∧ (s.chip.ledger a).openUid = some u ∧ s.chip.rd (Reg.Ring.COMMIT_PERIOD
      a) ≠ 0 ∧ (s.chip.cellAdvance a dt).cellSeconds a % s.chip.rd (Reg.Ring.COMMIT_PERIOD a) = 0) ∧
    (∃ (a : CellAddr) (m : Commit) (s : State), (s.chip.ledger a).commit = some m ∧ (s.chip.ledger a).merged = [] ∧
      m.event ≠ 8 ∧ m.index < 240) ∧
    (∃ (a : CellAddr) (m : Commit) (s : State), (s.chip.ledger a).commit = some m ∧ (s.chip.ledger a).merged = [] ∧
      m.retried = false) ∧
    (∃ (a : CellAddr) (m : Commit) (s : State), (s.chip.ledger a).commit = some m ∧ (s.chip.ledger a).merged = [] ∧
      m.retried = true) ∧
    (∃ (a : CellAddr) (s : State), (s.chip.ledger a).commit = none ∧ 4 ∉ (s.chip.ledger a).merged) :=
  ⟨⟨0, tst [] (fun c => c.setCt 0 { c.ct 0 with timeValid := true }), by decide⟩,
   ⟨0, ⟨1, [], 0, 239, 0, false, false⟩, tst [] (fun c => (c.setCt 0 { c.ct 0 with timeValid := true }).setLedger 0
     { c.ledger 0 with commit := some ⟨1, [], 0, 239, 0, false, false⟩ }), by decide⟩,
   ⟨0, tst [], by decide⟩,
   ⟨0, 0, (3, 4), tst [((Reg.Ring.COMMIT_PERIOD 0), 0), (Reg.Ring.COMMIT_PERIOD 0, 10)] (fun c => (c.setCt 0
     { c.ct 0 with timeValid := true }).setLedger 0 { c.ledger 0 with openUid := some (3, 4) }), by decide⟩,
   ⟨0, ⟨1, [], 0, 239, 0, false, false⟩, tst [] (fun c => c.setLedger 0
     { c.ledger 0 with commit := some ⟨1, [], 0, 239, 0, false, false⟩ }), by decide⟩,
   ⟨0, ⟨1, [], 0, 239, 0, false, false⟩, tst [] (fun c => c.setLedger 0
     { c.ledger 0 with commit := some ⟨1, [], 0, 239, 0, false, false⟩ }), by decide⟩,
   ⟨0, ⟨1, [], 0, 239, 0, false, true⟩, tst [] (fun c => c.setLedger 0
     { c.ledger 0 with commit := some ⟨1, [], 0, 239, 0, false, true⟩ }), by decide⟩,
   ⟨0, tst [], by decide⟩⟩

/-- Witnesses of the clauses of LedgerRows. -/
theorem witness_ledger_rows_2 :
    (∃ (a : CellAddr) (s : State), s.chip.cellIsS a = false) ∧
    (∃ (a : CellAddr) (s : State), s.chip.cellIsS a = false ∧ (s.chip.ledger a).head = none) ∧
    (∃ (a : CellAddr) (s : State) (row : List Nat) (uid : Nat), s.chip.cellIsS a = false ∧ (s.chip.ledger a).lookup
      (s.chip.rd (Reg.Ring.ROW_SEL a)) = (1, row, uid)) ∧
    (∃ (a : CellAddr) (s : State), s.chip.cellIsS a = true) ∧
    (∃ (p : PortIx) (s : State), (let a := s.chip.rd (Reg.Ledg.LEDGER_CELL p); s.chip.has p .ledger = true ∧
      s.chip.rd (Reg.Ledg.LEDGER_RESULT p) ≠ 1 ∧ a % 64 < s.chip.population (a / 64) ∧ s.chip.isSensor a = false ∧
      (s.chip.posn a).admState = 6)) ∧
    (∃ (p : PortIx) (s : State), (let a := s.chip.rd (Reg.Ledg.LEDGER_CELL p); s.chip.has p .ledger = true ∧
      s.chip.rd (Reg.Ledg.LEDGER_RESULT p) ≠ 1 ∧ (s.chip.population (a / 64) ≤ a % 64 ∨ s.chip.isSensor a = true ∨
      (s.chip.posn a).admState ≠ 6))) ∧
    (∃ (p : PortIx) (s : State), s.chip.has p .ledger = true ∧ s.chip.rd (Reg.Ledg.LEDGER_RESULT p) = 1) ∧
    (∃ (p : PortIx) (s : State), s.chip.has p .ledger = false) :=
  ⟨⟨0, tst [], by decide⟩,
   ⟨0, tst [], by decide⟩,
   ⟨0, tst [] (fun c => c.setLedger 0
     { c.ledger 0 with headA := some ⟨0, 0⟩, ring := [(0, (List.replicate 4 0 ++ List.replicate 28 1, 2))] }),
     (List.replicate 4 0 ++ List.replicate 28 1), 2, by decide⟩,
   ⟨0, tst [] (fun c => { c with parts := [(0, ⟨true, ⟨true, 0, 0, 0, none⟩, false⟩)] }), by decide⟩,
   ⟨0, tst [((Reg.Port.PORT_STATE 0), 2), ((Reg.Port.RIGHTS 0), 31), (Reg.Rope.POPULATION 0, 1)] (fun c => c.setAt 0
     { c.posn 0 with admState := 6 }), by decide⟩,
   ⟨0, tst [((Reg.Port.PORT_STATE 0), 2), ((Reg.Port.RIGHTS 0), 31)], by decide⟩,
   ⟨0, tst [((Reg.Port.PORT_STATE 0), 2), ((Reg.Port.RIGHTS 0), 31), ((Reg.Ledg.LEDGER_RESULT 0), 1)], by decide⟩,
   ⟨0, tst [], by decide⟩⟩

/-- Witness of LedgerRows. -/
theorem witness_ledger_rows_3 :
    ∃ (b : List Byte) (a : Nat) (r : BulkRec) (s : State), s.chip.bulkIn (b.map BitVec.toNat) 2 = some (a, r) :=
  ⟨((bulkHeader 0 ⟨2, 9, List.replicate 48 0⟩ ++ List.replicate 48 0).map (BitVec.ofNat 8)), 0, ⟨2, 9, List.replicate
    48 0⟩, tst [] (fun c => c.setAt 0 { c.posn 0 with admState := 6 }), by decide⟩

/-- Witnesses of the clauses of CanFramesFlow. -/
theorem witness_can_frames_flow :
    (∃ (dt : Nat) (b : BusIx) (f : BusFrame) (s : State), (let n := busNum b; let c := s.chip.busAdvance n dt;
      let fr : CanFrame := ⟨f.id, f.ext, f.fdf, f.brs, f.esi, f.remote, f.data.take 64, c.busNow n % 2 ^ 32⟩;
      c.busLive n = true ∧ f.remote = false ∧ (f.fdf = true → c.rd (Reg.Can.DATA_RATE n) ≠ 0) ∧ c.canAccepts n fr =
      true ∧ (s.chip.can n).queue.length < 16)) ∧
    (∃ (dt : Nat) (x : BusIx) (b : Fin 3) (t0 : TxBuf) (s : State), (s.chip.can (busNum x)).buf b = some t0 ∧
      (s.chip.busAdvance (busNum x) dt).busLive (busNum x) = true ∧ s.chip.on (Reg.Can.LISTEN_ONLY (busNum x)) =
      false) ∧
    (∃ (p : PortIx) (k : Fin 2) (s : State), (s.chip.has p .order = true ∨ s.chip.has p .maint = true) ∧ (s.chip.can
      (16384 + k)).buf2 = none ∧ s.chip.rd (Reg.Can.CAN_STATE (16384 + k)) = 1) ∧
    (∃ (a : CellAddr) (s : State), (s.chip.can a).buf2 = none ∧ s.chip.rd (Reg.Can.CAN_STATE a) = 1) ∧
    (∃ (p : PortIx) (k : Fin 2) (s : State), (s.chip.has p .order = true ∨ s.chip.has p .maint = true) ∧ (s.chip.can
      (16384 + k)).buf2.isSome = true ∧ s.chip.rd (Reg.Can.TX2_RESULT (16384 + k)) ≠ 2) ∧
    (∃ (a : CellAddr) (s : State), (s.chip.can a).buf2.isSome = true ∧ s.chip.rd (Reg.Can.TX2_RESULT a) ≠ 2) :=
  ⟨⟨0, (.station 1), ⟨5, false, false, false, false, false, []⟩, tst [(Reg.Can.CAN_STATE 16385, 1)] (fun c =>
     { c with card := { c.card with can := { c.card.can with channels := [(1, { CardCanCh.blank with filters := [(5, 2047, false)] })] } } }),
     by decide⟩,
   ⟨0, (.station 1), 2, ⟨⟨0, false, false, false, false, false, [], 0⟩, false, false, none⟩, tst [(Reg.Can.CAN_STATE
     16385, 2)] (fun c => c.setCan 16385
     { c.can 16385 with buf2 := some ⟨⟨0, false, false, false, false, false, [], 0⟩, false, false, none⟩ }), by
     decide⟩,
   ⟨0, 0, tst [((Reg.Port.PORT_STATE 0), 2), ((Reg.Port.RIGHTS 0), 31), ((Reg.Can.CAN_STATE (16384 + 0)), 1)], by
     decide⟩,
   ⟨0, tst [((Reg.Can.CAN_STATE 0), 1)], by decide⟩,
   ⟨0, 0, tst [((Reg.Port.PORT_STATE 0), 2), ((Reg.Port.RIGHTS 0), 31)] (fun c => c.setCan 16384
     { c.can 16384 with buf2 := some ⟨⟨0, false, false, false, false, false, [], 0⟩, false, false, none⟩ }), by
     decide⟩,
   ⟨0, tst [] (fun c => c.setCan 0
     { c.can 0 with buf2 := some ⟨⟨0, false, false, false, false, false, [], 0⟩, false, false, none⟩ }), by decide⟩⟩

/-- Witnesses of the clauses of CanErrorsAndRestarts. -/
theorem witness_can_errors_and_restarts_1 :
    (∃ (dt : Nat) (x : BusIx) (s : State), (s.chip.busAdvance (busNum x) dt).busLive (busNum x) = true) ∧
    (∃ (dt : Nat) (x : BusIx) (kind : Fin 8) (s : State), (s.chip.busAdvance (busNum x) dt).busLive (busNum x) = true
      ∧ kind ≠ 3) ∧
    (∃ (x : BusIx) (b : Fin 3) (t0 : TxBuf) (pos : Nat) (k : Nat) (s : State), (s.chip.can (busNum x)).buf b = some
      t0 ∧ t0.clash = some (pos, k) ∧ 16 ≤ k) ∧
    (∃ (dt : Nat) (x : BusIx) (t0 : Nat) (s : State), (s.chip.can (busNum x)).aloneFrom = some t0 ∧
      (s.chip.busAdvance (busNum x) dt).busLive (busNum x) = true ∧ s.chip.on (Reg.Can.BUS_ALONE (busNum x)) = false
      ∧ t0 + 500000000 ≤ (s.chip.busAdvance (busNum x) dt).busRun (busNum x)) ∧
    (∃ (x : BusIx) (s : State), s.chip.on (Reg.Can.BUS_ALONE (busNum x)) = true) ∧
    (∃ (dt : Nat) (k : Fin 2) (t0 : Nat) (q : List Nat) (s : State), (s.chip.can (16384 + k)).queueAt = t0 :: q ∧ t0
      + s.chip.card.can.rxStall * 1000000 < (s.chip.advance dt).runNs) ∧
    (∃ (a : CellAddr) (v : Word) (s : State), s.chip.cellIsS a = false ∧ s.chip.rd (Reg.Can.CAN_STATE a) = 0 ∧ 1 ≤
      bits v.toNat 0 3 ∧ bits v.toNat 0 3 ≤ 4 ∧ bits v.toNat 3 3 ≤ 4 ∧ s.chip.rd (Reg.Idb.PACK_STATE a) = 0) ∧
    (∃ (a : CellAddr) (s : State), s.chip.rd (Reg.Can.CAN_STATE a) = 3 ∧ s.chip.on (Reg.Can.RECOVERING a) = false) :=
  ⟨⟨0, (.station 1), tst [(Reg.Can.CAN_STATE 16385, 1)], by decide⟩,
   ⟨0, (.station 1), 0, tst [(Reg.Can.CAN_STATE 16385, 1)], by decide⟩,
   ⟨(.station 1), 0, ⟨⟨0, false, false, false, false, false, [], 0⟩, false, false, some (3, 16)⟩, 3, 16, tst [] (fun
     c => c.setCan 16385
     { c.can 16385 with buf0 := some ⟨⟨0, false, false, false, false, false, [], 0⟩, false, false, some (3, 16)⟩ }),
     by decide⟩,
   ⟨0, (.station 1), 0, tst [(Reg.Can.CAN_STATE 16385, 1)] (fun c =>
     { c.setCan 16385 { c.can 16385 with aloneFrom := some 0 } with time := { c.time with units := 500000000 * 2 ^ 40 } }),
     by decide⟩,
   ⟨(.station 1), tst [(Reg.Can.BUS_ALONE 16385, 1)], by decide⟩,
   ⟨0, 0, 0, [], tst [] (fun c =>
     { c.setCan 16384 { c.can 16384 with queueAt := [0] } with time := { c.time with units := (c.card.can.rxStall * 1000000 + 1) * 2 ^ 40 } }),
     by decide⟩,
   ⟨0, 1, tst [((Reg.Can.CAN_STATE 0), 0), ((Reg.Idb.PACK_STATE 0), 0)], by decide⟩,
   ⟨0, tst [((Reg.Can.CAN_STATE 0), 3)], by decide⟩⟩

/-- Witnesses of the clauses of CanErrorsAndRestarts. -/
theorem witness_can_errors_and_restarts_2 :
    (∃ (p : PortIx) (k : Fin 2) (s : State), (s.chip.has p .order = true ∨ s.chip.has p .maint = true) ∧ s.chip.rd
      (Reg.Can.CAN_STATE (16384 + k)) = 3 ∧ s.chip.on (Reg.Can.RECOVERING (16384 + k)) = false) ∧
    (∃ (p : PortIx) (s : State), s.chip.has p .maint = true ∧ s.chip.rd (Reg.CanRst.CELL_CAN_SEL p) % 64 <
      s.chip.population (s.chip.rd (Reg.CanRst.CELL_CAN_SEL p) / 64) ∧ s.chip.isSensor (s.chip.rd
      (Reg.CanRst.CELL_CAN_SEL p)) = false ∧ s.chip.rd (Reg.Can.CAN_STATE (s.chip.rd (Reg.CanRst.CELL_CAN_SEL p))) =
      3 ∧ s.chip.on (Reg.Can.RECOVERING (s.chip.rd (Reg.CanRst.CELL_CAN_SEL p))) = false) ∧
    (∃ (dt : Nat) (k : Fin 2) (t0 : Nat) (s : State), s.chip.rd (Reg.Can.CAN_STATE (16384 + k)) = 3 ∧ s.chip.on
      (Reg.Can.RECOVERING (16384 + k)) = false ∧ (s.chip.can (16384 + k)).busOffAt = some t0 ∧ t0 +
      s.chip.card.can.restartDelay * 1000000000 ≤ (s.chip.advance dt).runNs ∧ (s.chip.can (16384 + k)).restarts = []
      ∧ 1 ≤ s.chip.card.can.restartMax) ∧
    (∃ (dt : Nat) (a : CellAddr) (t0 : Nat) (s : State), s.chip.rd (Reg.Can.CAN_STATE a) = 3 ∧ s.chip.on
      (Reg.Can.RECOVERING a) = false ∧ (s.chip.can a).busOffAt = some t0 ∧ t0 + s.chip.card.can.restartDelay *
      1000000000 ≤ (s.chip.advance dt).busRun a ∧ (s.chip.can a).restarts = [] ∧ 1 ≤ s.chip.card.can.restartMax) ∧
    (∃ (x : BusIx) (s : State), s.chip.on (Reg.Can.RECOVERING (busNum x)) = true) :=
  ⟨⟨0, 0, tst [((Reg.Port.PORT_STATE 0), 2), ((Reg.Port.RIGHTS 0), 31), ((Reg.Can.CAN_STATE (16384 + 0)), 3)], by
     decide⟩,
   ⟨0, tst [(Reg.Rope.POPULATION 0, 1), (Reg.Can.CAN_STATE 0, 3), (Reg.Port.PORT_STATE 0, 2), (Reg.Port.RIGHTS 0,
     31)], by decide⟩,
   ⟨0, 0, 0, tst [((Reg.Can.CAN_STATE (16384 + 0)), 3)] (fun c =>
     { c.setCan 16384 { c.can 16384 with busOffAt := some 0 } with time := { c.time with units := c.card.can.restartDelay * 1000000000 * 2 ^ 40 } }),
     by decide⟩,
   ⟨0, 0, 0, tst [((Reg.Can.CAN_STATE 0), 3)] (fun c => (c.setCan 0 { c.can 0 with busOffAt := some 0 }).setCt 0
     { c.ct 0 with time := 256 * c.card.can.restartDelay * 1000000000 }), by decide⟩,
   ⟨(.station 1), tst [(Reg.Can.RECOVERING 16385, 1)], by decide⟩⟩

/-- Witnesses of the clauses of RopesRecover. -/
theorem witness_ropes_recover :
    (∃ (g : RopeIx) (s : State), 0 < s.chip.population g ∧ s.chip.mode g = 0 ∧ (s.chip.rope g).goingDown ≠ 2 ∧
      s.chip.ridgeUp (homeOf g) = true ∧ s.chip.ridgeUp (partnerOf (homeOf g)) = true ∧ s.chip.on (linkReg (homeOf g
      / 2)) = true ∧ s.chip.breakPositions g = []) ∧
    (∃ (g : RopeIx) (s : State), 0 < s.chip.population g ∧ s.chip.mode g = 0 ∧ (s.chip.rope g).goingDown ≠ 2 ∧
      s.chip.ridgeUp (homeOf g) = true ∧ s.chip.ridgeUp (partnerOf (homeOf g)) = true ∧ s.chip.on (linkReg (homeOf g
      / 2)) = true ∧ s.chip.breakPositions g ≠ []) ∧
    (∃ (dt : Nat) (t0 : Nat) (g : RopeIx) (s : State), (s.chip.rope g).cleanSince = some t0 ∧ (s.chip.mode g = 1 ∨
      s.chip.mode g = 2) ∧ s.chip.breakPositions g = [] ∧ s.chip.card.lanes.healHold * 1000000 ≤ (s.chip.advance
      dt).runNs - t0 ∧ s.chip.ridgeUp (homeOf g) = true ∧ s.chip.ridgeUp (partnerOf (homeOf g)) = true ∧ s.chip.on
      (linkReg (homeOf g / 2)) = true) ∧
    (∃ (dt : Nat) (g : RopeIx) (s : State), s.chip.mode g ≠ 3 ∧ s.chip.recov.outputsBlocked = false ∧ 4 <
      ((s.chip.rope g).changes.filter (fun x => decide ((s.chip.advance dt).runNs - x < 10000000000))).length) ∧
    (∃ (p : PortIx) (s : State), (let g := s.chip.rd (Reg.Recov.ROPE_SEL p); g < 256 ∧ s.chip.has p .maint = true ∧ 0
      < s.chip.population g ∧ s.chip.mode g ≠ 3 ∧ (s.chip.rope g).goingDown = 0 ∧ s.chip.blocked (g / 32) = true)) ∧
    (∃ (p : PortIx) (s : State), (let g := s.chip.rd (Reg.Recov.ROPE_SEL p); g < 256 ∧ s.chip.has p .maint = true ∧ 0
      < s.chip.population g ∧ s.chip.mode g = 3 ∧ (s.chip.rope g).comingUp = false ∧ s.chip.underTest g = false ∧
      s.chip.ropeEntryHeld g = false)) ∧
    (∃ (p : PortIx) (s : State), (let g := s.chip.rd (Reg.Recov.ROPE_SEL p); g < 256 ∧ s.chip.has p .maint = false)) :=
  ⟨⟨0, tst [((Reg.Rope.MODE 0), 0), (Reg.Rope.POPULATION 0, 1), (Reg.Die.RIDGE0_STATE, 2), (Reg.Die.RIDGE1_STATE, 2),
     (Reg.Die.LINK01_UP, 1), (Reg.RLane.LANE_UP 0 0, 1), (Reg.RLane.LANE_UP 0 1, 1)], by decide⟩,
   ⟨0, tst [((Reg.Rope.MODE 0), 0), (Reg.Rope.POPULATION 0, 1), (Reg.Die.RIDGE0_STATE, 2), (Reg.Die.RIDGE1_STATE, 2),
     (Reg.Die.LINK01_UP, 1), (Reg.RLane.LANE_UP 0 0, 1)], by decide⟩,
   ⟨0, 0, 0, tst [((Reg.Rope.MODE 0), 1), (Reg.Rope.POPULATION 0, 1), (Reg.Die.RIDGE0_STATE, 2),
     (Reg.Die.RIDGE1_STATE, 2), (Reg.Die.LINK01_UP, 1), (Reg.RLane.LANE_UP 0 0, 1), (Reg.RLane.LANE_UP 0 1, 1),
     (Reg.Rope.MODE 0, 1)] (fun c =>
     { c.setRope 0 { c.rope 0 with cleanSince := some 0 } with time := { c.time with units := (c.card.lanes.healHold * 1000000) * 2 ^ 40 } }),
     by decide⟩,
   ⟨0, 0, tst [(Reg.Rope.POPULATION 0, 1), (Reg.Rope.MODE 0, 0)] (fun c =>
     { (c.setRope 0 { c.rope 0 with changes := [0, 0, 0, 0, 0] }) with recov := { c.recov with outputsBlocked := false } }),
     by decide⟩,
   ⟨0, tst [((Reg.Port.PORT_STATE 0), 2), ((Reg.Port.RIGHTS 0), 31), (Reg.Rope.POPULATION 0, 1), (Reg.Ord.BLOCKED,
     255), (Reg.Rope.MODE 0, 0)], by decide⟩,
   ⟨0, tst [(Reg.Rope.POPULATION 0, 1), (Reg.Rope.MODE 0, 3), (Reg.Port.PORT_STATE 0, 2), (Reg.Port.RIGHTS 0, 31)],
     by decide⟩,
   ⟨0, tst [], by decide⟩⟩

/-- Witnesses of the clauses of RidgesAndPlanesFailOver. -/
theorem witness_ridges_and_planes_fail_over_1 :
    (∃ (d : RidgeIx) (s : State), s.chip.ridgeUp d = true ∧ s.chip.recov.outputsBlocked = false) ∧
    (∃ (p : PortIx) (s : State), (let d := s.chip.rd (Reg.Recov.RIDGE_SEL p); s.chip.has p .maint = true ∧
      s.chip.ridge d = 4 ∧ s.chip.ridge (partnerOf d) ≠ 4 ∧ mapGet 0 s.chip.recov.dieTemps d < 105 * 16 ∧ findKey d
      s.chip.recov.restarting = none)) ∧
    (∃ (p : PortIx) (s : State), s.chip.has p .maint = false) ∧
    (∃ (d : RidgeIx) (p : PortIx) (s : State), findKey d.val s.chip.recov.restarting = some p.val) ∧
    (∃ (k : Fin 2) (s : State), s.chip.on (linkReg k) = true ∧ s.chip.recov.outputsBlocked = false) ∧
    (∃ (k : Fin 2) (s : State), bits (s.chip.rd Reg.Flt.LINKS_FENCED) k 1 = 0) ∧
    (∃ (k : Fin 2) (s : State), s.chip.on (planeReg k) = true ∧ s.chip.rd Reg.Die.ACTIVE_PLANE = k.val) ∧
    (∃ (k : Fin 2) (s : State), s.chip.on (planeReg k) = true ∧ s.chip.rd Reg.Die.ACTIVE_PLANE = 1 - k.val ∧
      s.chip.recov.outputsBlocked = false) :=
  ⟨⟨0, tst [(Reg.Rope.POPULATION 0, 1), (Reg.Die.RIDGE0_STATE, 2), (Reg.Die.RIDGE1_STATE, 2), (Reg.Die.LINK01_UP, 1)]
     (fun c => { c with recov := { c.recov with outputsBlocked := false } }), by decide⟩,
   ⟨0, tst [((Reg.Port.PORT_STATE 0), 2), ((Reg.Port.RIGHTS 0), 31), (Reg.Die.RIDGE0_STATE, 4)], by decide⟩,
   ⟨0, tst [], by decide⟩,
   ⟨0, 0, tst [] (fun c => { c with recov := { c.recov with restarting := [(0, 0)] } }), by decide⟩,
   ⟨0, tst [(Reg.Die.LINK01_UP, 1)] (fun c => { c with recov := { c.recov with outputsBlocked := false } }), by
     decide⟩,
   ⟨0, tst [], by decide⟩,
   ⟨0, tst [((planeReg 0), 1)], by decide⟩,
   ⟨0, tst [((planeReg 0), 1), (Reg.Die.ACTIVE_PLANE, 1)], by decide⟩⟩

/-- Witnesses of the clauses of RidgesAndPlanesFailOver. -/
theorem witness_ridges_and_planes_fail_over_2 :
    (∃ (k : Fin 2) (s : State), s.chip.recov.outputsBlocked = true ∧ s.chip.rd Reg.Die.ACTIVE_PLANE = k.val ∧
      s.chip.on (planeReg (1 - k.val)) = true) ∧
    (∃ (k : Fin 2) (s : State), s.chip.rd Reg.Die.RESYNC = 1 ∧ s.chip.rd Reg.Die.ACTIVE_PLANE = k.val ∧ s.chip.on
      (planeReg (1 - k.val)) = false ∧ bits (s.chip.rd Reg.Flt.PLANES_FENCED) (1 - k.val) 1 = 0) :=
  ⟨⟨0, tst [(Reg.Die.PLANE1_OK, 1)] (fun c => { c with recov := { c.recov with outputsBlocked := true } }), by
     decide⟩,
   ⟨0, tst [(Reg.Die.RESYNC, 1)], by decide⟩⟩

/-- Witnesses of the clauses of AdmissionMoves. -/
theorem witness_admission_moves_1 :
    (∃ (a : CellAddr) (s : State), a % 64 < s.chip.population (a / 64) ∧ s.chip.mode (a / 64) ≠ 3 ∧ s.chip.admitting
      (a / 64) = false ∧ s.chip.awaits a = true ∧ (∀ b ∈ s.chip.ropeCells (a / 64), b < a.val → s.chip.awaits b =
      false)) ∧
    (∃ (a : CellAddr) (s : State), a % 64 < s.chip.population (a / 64) ∧ s.chip.mode (a / 64) = 2 ∧ (s.chip.posn
      a).quiet ≠ 0 ∧ ((s.chip.posn a).admState = 1 ∨ (s.chip.posn a).admState = 9)) ∧
    (∃ (a : CellAddr) (s : State), (s.chip.posn a).admState = 3 ∧ 2 ≤ signedDiff 32 s.chip.frame (s.chip.posn
      a).epochFrame ∧ (s.chip.posn a).epochWrites < 3) ∧
    (∃ (a : CellAddr) (s : State), (s.chip.posn a).admState = 3 ∧ 2 ≤ signedDiff 32 s.chip.frame (s.chip.posn
      a).epochFrame ∧ 3 ≤ (s.chip.posn a).epochWrites ∧ (s.chip.posn a).fails + 1 < s.chip.card.admission.retryMax) ∧
    (∃ (a : CellAddr) (dt : Nat) (s : State), (s.chip.posn a).admState = 7 ∧ (s.chip.posn a).since + s.chip.backoff a
      ≤ (s.chip.advance dt).runNs) ∧
    (∃ (a : CellAddr) (s : State), (s.chip.posn a).admState = 8) ∧
    (∃ (a : CellAddr) (s : State), (s.chip.posn a).admState = 6 ∧ 8 ≤ (s.chip.posn a).quiet) ∧
    (∃ (recorded : Nat) (cell : Nat), recorded < 65536 ∧ cell < 65536) :=
  ⟨⟨0, tst [(Reg.Rope.POPULATION 0, 1), (Reg.Rope.MODE 0, 0)] (fun c => c.setAt 0
     { c.posn 0 with admState := 1, state := 2 }), by decide⟩,
   ⟨0, tst [((Reg.Rope.MODE (0 / 64)), 2), (Reg.Rope.POPULATION 0, 1), (Reg.Rope.MODE 0, 2)] (fun c => c.setAt 0
     { c.posn 0 with admState := 1, quiet := 1 }), by decide⟩,
   ⟨0, tst [(Reg.Rope.POPULATION 0, 1)] (fun c => c.setAt 0
     { c.posn 0 with admState := 3, epochFrame := 2 ^ 32 - 2 }), by decide⟩,
   ⟨0, tst [(Reg.Rope.POPULATION 0, 1)] (fun c => c.setAt 0
     { c.posn 0 with admState := 3, epochFrame := 2 ^ 32 - 2, epochWrites := 3 }), by decide⟩,
   ⟨0, 0, tst [(Reg.Rope.POPULATION 0, 1)] (fun c =>
     { c.setAt 0 { c.posn 0 with admState := 7 } with time := { c.time with units := (c.card.admission.backoffMin * 1000000) * 2 ^ 40 } }),
     by decide⟩,
   ⟨0, tst [(Reg.Rope.POPULATION 0, 1)] (fun c => c.setAt 0 { c.posn 0 with admState := 8 }), by decide⟩,
   ⟨0, tst [(Reg.Rope.POPULATION 0, 1)] (fun c => c.setAt 0 { c.posn 0 with admState := 6, quiet := 8 }), by decide⟩,
   ⟨0, 0, by decide⟩⟩

/-- Witnesses of the clauses of AdmissionMoves. -/
theorem witness_admission_moves_2 :
    (∃ (p : PortIx) (s : State), (let a := s.chip.rd (Reg.Adm.ADM_CELL p); s.chip.has p .maint = true ∧ a % 64 <
      s.chip.population (a / 64) ∧ s.chip.mode (a / 64) ≠ 3 ∧ (s.chip.posn a).admState = 8)) ∧
    (∃ (p : PortIx) (s : State), (let a := s.chip.rd (Reg.Adm.ADM_CELL p); s.chip.has p .maint = true ∧ a % 64 <
      s.chip.population (a / 64) ∧ s.chip.mode (a / 64) ≠ 3 ∧ (s.chip.posn a).admState = 6 ∧ s.chip.blocked (regionOf
      a) = true)) ∧
    (∃ (p : PortIx) (s : State), (let a := s.chip.rd (Reg.Adm.ADM_CELL p); s.chip.has p .maint = true ∧ a % 64 <
      s.chip.population (a / 64) ∧ s.chip.mode (a / 64) ≠ 3 ∧ 2 ≤ (s.chip.posn a).admState ∧ (s.chip.posn a).admState
      ≤ 5)) ∧
    (∃ (p : PortIx) (s : State), s.chip.has p .maint = false) :=
  ⟨⟨0, tst [((Reg.Port.PORT_STATE 0), 2), ((Reg.Port.RIGHTS 0), 31), (Reg.Rope.POPULATION 0, 1), (Reg.Rope.MODE 0,
     0)] (fun c => c.setAt 0 { c.posn 0 with admState := 8 }), by decide⟩,
   ⟨0, tst [((Reg.Port.PORT_STATE 0), 2), ((Reg.Port.RIGHTS 0), 31), (Reg.Rope.POPULATION 0, 1), (Reg.Ord.BLOCKED,
     255), (Reg.Rope.MODE 0, 0)] (fun c => c.setAt 0 { c.posn 0 with admState := 6 }), by decide⟩,
   ⟨0, tst [((Reg.Port.PORT_STATE 0), 2), ((Reg.Port.RIGHTS 0), 31), (Reg.Rope.POPULATION 0, 1), (Reg.Rope.MODE 0,
     0)] (fun c => c.setAt 0 { c.posn 0 with admState := 2 }), by decide⟩,
   ⟨0, tst [], by decide⟩⟩

/-- Witnesses of the clauses of FaultsCollected. -/
theorem witness_faults_collected :
    (∃ (c : Chip) (held : List HeldFault) (m : Arrival) (e : HeldFault), c.rd (Reg.Class.AUTO_ACK m.kind) = 0 ∧
      c.baseSev m ≠ 0 ∧ held.find? (fun x => x.isKey m) = some e) ∧
    (∃ (c : Chip) (held : List HeldFault) (m : Arrival), c.rd (Reg.Class.AUTO_ACK m.kind) = 0 ∧ c.baseSev m ≠ 0 ∧
      held.find? (fun x => x.isKey m) = none) ∧
    (∃ (c : Chip) (m : Arrival), c.rd (Reg.Class.AUTO_ACK m.kind) = 1 ∨ c.baseSev m = 0) ∧
    (∃ (c : Chip) (m : Arrival), m.injected = true ∧ c.rd Reg.Flt.LIVE_INJECTION = 0) ∧
    (∃ x y z : Nat × Arrival, firstOrder x y = true ∧ firstOrder y z = true) :=
  ⟨⟨State.reset.chip, [⟨2, 3, 1, false, 2, 1, false⟩], ⟨2, 1, 3, 0, false, false, false, 2, 0⟩, ⟨2, 3, 1, false, 2,
     1, false⟩, by decide⟩,
   ⟨State.reset.chip, [], ⟨2, 1, 3, 0, false, false, false, 2, 0⟩, by decide⟩,
   ⟨State.reset.chip, ⟨2, 1, 3, 0, false, false, false, 0, 0⟩, by decide⟩,
   ⟨State.reset.chip, ⟨2, 1, 3, 0, true, false, false, 2, 0⟩, by decide⟩,
   ⟨(2, ⟨2, 1, 3, 0, false, false, false, 2, 0⟩), (1, ⟨2, 2, 3, 0, false, false, false, 2, 0⟩), (0, ⟨2, 3, 3, 0,
     false, false, false, 2, 0⟩), by decide⟩⟩

/-- Witnesses of the clauses of FaultsReact. -/
theorem witness_faults_react :
    (∃ j : Judged, j.m.kind ≠ 0xFF ∧ 6 ≤ j.sev) ∧
    (∃ j : Judged, j.m.kind ≠ 0xFF ∧ 7 ≤ j.sev) ∧
    (∃ j : Judged, j.sev < 4 ∨ j.m.kind = 0xFF) :=
  ⟨⟨⟨⟨2, 1, 3, 0, false, false, false, 2, 0⟩, 6, 6, false, false, false⟩, by decide⟩,
   ⟨⟨⟨2, 1, 3, 0, false, false, false, 2, 0⟩, 7, 7, false, false, false⟩, by decide⟩,
   ⟨⟨⟨2, 1, 3, 0, false, false, false, 2, 0⟩, 1, 1, false, false, false⟩, by decide⟩⟩

/-- Witnesses of the clauses of FaultOrders. -/
theorem witness_fault_orders_1 :
    (∃ (s : State), s.chip.recov.outputsBlocked = false) ∧
    (∃ (p : PortIx) (s : State), (s.chip.has p .protect = true ∨ s.chip.has p .maint = true)) ∧
    (∃ (p : PortIx) (s : State), s.chip.has p .protect = true) ∧
    (∃ (p : PortIx) (s : State), s.chip.has p .maint = true ∧ s.chip.twoHandOk 1 = true ∧ s.chip.rd
      (Reg.Flt.UNFENCE_LEVEL p) ≠ 2 ∧ ¬(s.chip.rd (Reg.Flt.UNFENCE_LEVEL p) = 4 ∧ s.chip.rd (Reg.Flt.UNFENCE_INDEX p)
      < 4)) ∧
    (∃ (p : PortIx) (s : State), s.chip.has p .protect = false ∧ s.chip.has p .maint = false) ∧
    (∃ (p : PortIx) (s : State),
      (let m := msgArrival (s.chip.rd (Reg.Flt.INJ_MSG_LO p) + s.chip.rd (Reg.Flt.INJ_MSG_HI p) * 2 ^ 32) s.chip.frame false;
      (s.chip.has p .protect = true ∨ s.chip.has p .maint = true) ∧ (∀ e ∈ s.chip.faults.injecting, e.1 ≠ p.val) ∧ 2
      ≤ m.level ∧ m.level ≤ 6 ∧ s.chip.recov.outputsBlocked = false)) ∧
    (∃ (p : PortIx) (s : State),
      (let m := msgArrival (s.chip.rd (Reg.Flt.INJ_MSG_LO p) + s.chip.rd (Reg.Flt.INJ_MSG_HI p) * 2 ^ 32) s.chip.frame false;
      (s.chip.has p .protect = true ∨ s.chip.has p .maint = true) ∧ (∀ e ∈ s.chip.faults.injecting, e.1 ≠ p.val) ∧
      m.level = 1 ∧ level1Kind m.kind = true ∧ m.source < 16384 ∧ m.source % 64 < s.chip.population (m.source / 64))) ∧
    (∃ (p : PortIx) (s : State),
      (let m := msgArrival (s.chip.rd (Reg.Flt.INJ_MSG_LO p) + s.chip.rd (Reg.Flt.INJ_MSG_HI p) * 2 ^ 32) s.chip.frame false;
      (s.chip.has p .protect = true ∨ s.chip.has p .maint = true) ∧ (∀ e ∈ s.chip.faults.injecting, e.1 ≠ p.val) ∧
      (m.level = 0 ∨ 6 < m.level))) :=
  ⟨⟨tst [] (fun c => { c with recov := { c.recov with outputsBlocked := false } }), by decide⟩,
   ⟨0, tst [((Reg.Port.PORT_STATE 0), 2), ((Reg.Port.RIGHTS 0), 31)], by decide⟩,
   ⟨0, tst [((Reg.Port.PORT_STATE 0), 2), ((Reg.Port.RIGHTS 0), 31)], by decide⟩,
   ⟨0, tst [((Reg.Port.PORT_STATE 0), 2), ((Reg.Port.RIGHTS 0), 31), ((Reg.Flt.UNFENCE_LEVEL 0), 4),
     (Reg.Flt.UNFENCE_LEVEL 0, 1)], by decide⟩,
   ⟨0, tst [], by decide⟩,
   ⟨0, tst [((Reg.Port.PORT_STATE 0), 2), ((Reg.Port.RIGHTS 0), 31), (Reg.Flt.INJ_MSG_HI 0, 2 ^ 29)] (fun c =>
     { c with recov := { c.recov with outputsBlocked := false } }), by decide⟩,
   ⟨0, tst [((Reg.Port.PORT_STATE 0), 2), ((Reg.Port.RIGHTS 0), 31), (Reg.Rope.POPULATION 0, 1), (Reg.Flt.INJ_MSG_HI
     0, 2 ^ 28 + 16)], by decide⟩,
   ⟨0, tst [((Reg.Port.PORT_STATE 0), 2), ((Reg.Port.RIGHTS 0), 31)], by decide⟩⟩

/-- Witnesses of the clauses of FaultOrders. -/
theorem witness_fault_orders_2 :
    (∃ (a : CellAddr) (s : State), level1Kind (s.chip.rd (Reg.CFlt.INJ_KIND a)) = true ∧ (s.chip.cmd a).faultQ.length
      < 8) ∧
    (∃ (dt : Nat) (t0 : Nat) (s : State), s.chip.faults.pulseEnd = some t0 ∧ t0 ≤ (s.chip.advance dt).runNs) :=
  ⟨⟨0, tst [(Reg.CFlt.INJ_KIND 0, 1)], by decide⟩,
   ⟨0, 0, tst [] (fun c => { c with faults := { c.faults with pulseEnd := some 0 } }), by decide⟩⟩

/-- Witnesses of the clauses of RecorderTriggers. -/
theorem witness_recorder_triggers :
    (∃ (s : State), s.chip.rd Reg.Rec.REC_STATE = 2 ∧ s.chip.card.recorder.chans = []) ∧
    (∃ (s : State), s.chip.rd Reg.Rec.REC_STATE = 3) ∧
    (∃ (s : State), (s.chip.rd Reg.Rec.REC_STATE = 1 ∨ s.chip.rd Reg.Rec.REC_STATE = 4)) ∧
    (∃ (s : State), s.chip.rd Reg.Rec.REC_STATE = 0) ∧
    (∃ (k : Fin 32) (s : State), (let x := mapGet LtSt.idle s.chip.recorder.lts k; s.chip.rd (Reg.Lt.LT_HOLD k) ≤
      x.run ∧ 0 < x.run ∧ x.fired = false)) ∧
    (∃ (k : Fin 32) (s : State), (let x := mapGet LtSt.idle s.chip.recorder.lts k; s.chip.rd (Reg.Lt.LT_HOLD k) ≤
      x.run ∧ 0 < x.run ∧ x.fired = true)) ∧
    (∃ (p : PortIx) (s : State), s.chip.has p .protect = true) ∧
    (∃ (p : PortIx) (s : State), s.chip.has p .protect = false) :=
  ⟨⟨tst [(Reg.Rec.REC_STATE, 2)], by decide⟩,
   ⟨tst [(Reg.Rec.REC_STATE, 3)], by decide⟩,
   ⟨tst [(Reg.Rec.REC_STATE, 1)], by decide⟩,
   ⟨tst [(Reg.Rec.REC_STATE, 0)], by decide⟩,
   ⟨0, tst [(Reg.Lt.LT_HOLD 0, 1)] (fun c => { c with recorder := { c.recorder with lts := [(0, ⟨1, false⟩)] } }), by
     decide⟩,
   ⟨0, tst [(Reg.Lt.LT_HOLD 0, 1)] (fun c => { c with recorder := { c.recorder with lts := [(0, ⟨1, true⟩)] } }), by
     decide⟩,
   ⟨0, tst [((Reg.Port.PORT_STATE 0), 2), ((Reg.Port.RIGHTS 0), 31)], by decide⟩,
   ⟨0, tst [], by decide⟩⟩

/-- Witnesses of the clauses of RecorderBuffers. -/
theorem witness_recorder_buffers_1 :
    (∃ (dt : Nat) (s : State), s.chip.rd Reg.Rec.REC_STATE = 1 ∧ s.chip.recorder.takenAt + s.chip.rd Reg.Rec.PRE_TIME
      * 1000000 ≤ (s.chip.advance dt).runNs) ∧
    (∃ (dt : Nat) (s : State), s.chip.rd Reg.Rec.REC_STATE = 3 ∧ s.chip.recorder.postEnd ≤ (s.chip.advance dt).runNs) ∧
    (∃ (dt : Nat) (b : Fin 16) (s : State), (s.chip.recBuf b).state = 2 ∧ (s.chip.recBuf b).closedAt + 20000000 ≤
      (s.chip.advance dt).runNs ∧ s.chip.rd Reg.Rec.REC_STATE ≠ 4) ∧
    (∃ (p : PortIx) (s : State), s.chip.has p .protect = false) ∧
    (∃ (p : PortIx) (s : State), (let b := s.chip.rd (Reg.Rec.REL_BUF p); s.chip.has p .protect = true ∧
      (s.chip.recBuf b).state ≠ 3)) ∧
    (∃ (p : PortIx) (s : State), (let b := s.chip.rd (Reg.Rec.REL_BUF p); s.chip.has p .protect = true ∧
      (s.chip.recBuf b).state = 3 ∧ s.chip.rd Reg.Rec.REC_STATE ≠ 4)) ∧
    (∃ (dt : Nat) (s : State), s.chip.rd Reg.Rec.REC_STATE = 2 ∧ s.chip.recorder.winAt + 1000000 ≤ (s.chip.advance
      dt).runNs ∧ s.chip.recorder.nr = 0 ∧ s.chip.recorder.rd = 0 ∧ s.chip.rd Reg.Rec.RATE_LEVEL = 0) ∧
    (∃ (dt : Nat) (s : State), (s.chip.advance dt).runNs < s.chip.recorder.winAt + 1000000) :=
  ⟨⟨0, tst [(Reg.Rec.REC_STATE, 1), (Reg.Rec.PRE_TIME, 0)] (fun c =>
     { c with recorder := { c.recorder with takenAt := 0 } }), by decide⟩,
   ⟨0, tst [(Reg.Rec.REC_STATE, 3)], by decide⟩,
   ⟨0, 0, tst [] (fun c =>
     { c.setRecBuf 0 { c.recBuf 0 with state := 2 } with time := { c.time with units := 20000000 * 2 ^ 40 } }), by
     decide⟩,
   ⟨0, tst [], by decide⟩,
   ⟨0, tst [((Reg.Port.PORT_STATE 0), 2), ((Reg.Port.RIGHTS 0), 31)], by decide⟩,
   ⟨0, tst [((Reg.Port.PORT_STATE 0), 2), ((Reg.Port.RIGHTS 0), 31)] (fun c => c.setRecBuf 0
     { c.recBuf 0 with state := 3 }), by decide⟩,
   ⟨0, tst [(Reg.Rec.REC_STATE, 2), (Reg.Rec.RATE_LEVEL, 0)] (fun c =>
     { c with time := { c.time with units := 1000000 * 2 ^ 40 } }), by decide⟩,
   ⟨0, tst [], by decide⟩⟩

/-- Witnesses of the clauses of RecorderBuffers. -/
theorem witness_recorder_buffers_2 :
    (∃ (p : PortIx) (row : RecRow) (s : State), (let x := s.chip.recBuf (s.chip.rd (Reg.Rec.RD_BUF p)); (s.chip.has p
      .protect = true ∨ s.chip.has p .maint = true) ∧ x.state = 3 ∧ x.rows[s.chip.rd (Reg.Rec.RD_IDX p)]? = some
      row)) ∧
    (∃ (p : PortIx) (s : State), s.chip.has p .observe = true) ∧
    (∃ (p : PortIx) (s : State), s.chip.has p .observe = false) ∧
    (∃ (b : List Byte) (a : Nat) (r : BulkRec) (s : State), s.chip.bulkIn (b.map BitVec.toNat) 4 = some (a, r)) :=
  ⟨⟨0, ⟨0, 0, 0, false, false, false, 0, 0, 0⟩, tst [((Reg.Port.PORT_STATE 0), 2), ((Reg.Port.RIGHTS 0), 31)] (fun c
     => c.setRecBuf 0 { c.recBuf 0 with state := 3, ring := [⟨0, 0, 0, false, false, false, 0, 0, 0⟩] }), by decide⟩,
   ⟨0, tst [((Reg.Port.PORT_STATE 0), 2), ((Reg.Port.RIGHTS 0), 31)], by decide⟩,
   ⟨0, tst [], by decide⟩,
   ⟨[0, 0, 4, 0, 7, 0, BitVec.ofNat 8 (crc16 [0, 0, 4, 0, 7, 0]), BitVec.ofNat 8 (crc16 [0, 0, 4, 0, 7, 0] / 256)],
     0, ⟨4, 7, []⟩, tst [] (fun c => c.setAt 0 { c.posn 0 with admState := 6 }), by decide⟩⟩

/-- Witnesses of the clauses of SafetyInputs. -/
theorem witness_safety_inputs :
    (∃ (s : State), s.chip.rd Reg.Saf.SAFETY_OK = 0) ∧
    (∃ (x : Fin 8) (chs : List (Bool × Bool)) (s : State), s.chip.rd Reg.Saf.SAFETY_OK = 1 ∧ (∀ y : Fin 8, y ≠ x.val
      → s.chip.rd (Reg.SafIn.FUNCTION y) = 0) ∧ s.chip.isStop x = true ∧ s.chip.rd (Reg.SafIn.IN_STATE x) = 1 ∧
      ((chs.getD x (false, false)).1 = false ∨ (chs.getD x (false, false)).2 = false)) ∧
    (∃ (x : Fin 8) (chs : List (Bool × Bool)) (s : State), s.chip.rd Reg.Saf.SAFETY_OK = 1 ∧ (∀ y : Fin 8, y ≠ x.val
      → s.chip.rd (Reg.SafIn.FUNCTION y) = 0) ∧ s.chip.isStop x = true ∧ s.chip.rd (Reg.SafIn.IN_STATE x) = 0 ∧
      chs.getD x (false, false) = (true, true) ∧ (s.chip.safIn x).bothLow = true ∧ s.chip.rd (Reg.SafIn.PULSED x) = 0
      ∧ s.chip.rd (Reg.SafIn.AUTO_RESET x) = 0) ∧
    (∃ (x : Fin 8) (seen : List (Option Bool × Option Bool)) (s : State), s.chip.rd Reg.Saf.SAFETY_OK = 1 ∧ (∀ y :
      Fin 8, y ≠ x.val → s.chip.rd (Reg.SafIn.FUNCTION y) = 0) ∧ s.chip.isStop x = true ∧ s.chip.rd (Reg.SafIn.PULSED
      x) = 1 ∧ seen.getD x (none, none) = (some true, none)) ∧
    (∃ (x : Fin 8) (seen : List (Option Bool × Option Bool)) (s : State), s.chip.rd Reg.Saf.SAFETY_OK = 1 ∧ (∀ y :
      Fin 8, y ≠ x.val → s.chip.rd (Reg.SafIn.FUNCTION y) = 0) ∧ s.chip.isStop x = true ∧ s.chip.rd (Reg.SafIn.PULSED
      x) = 1 ∧ seen.getD x (none, none) = (some false, none) ∧ s.chip.rd (Reg.SafIn.IN_STATE x) ≠ 2 ∧ s.chip.rd
      (Reg.SafIn.DEGRADE_ALLOWED x) = 0) ∧
    (∃ (dt : Nat) (x : Fin 8) (t0 : Nat) (s : State), s.chip.rd Reg.Saf.SAFETY_OK = 1 ∧ (s.chip.safIn x).apartFrom =
      some t0 ∧ s.chip.rd (Reg.SafIn.DISC_TIME x) * 1000000 < (s.chip.advance dt).runNs - t0 ∧ s.chip.rd
      (Reg.SafIn.IN_STATE x) ≠ 2 ∧ s.chip.isStop x = true) ∧
    (∃ (dt : Nat) (x : Fin 8) (s : State), s.chip.rd (Reg.SafIn.IN_STATE x) = 2 ∧ (s.chip.safIn x).fenced = false ∧
      s.chip.bothHigh x = true ∧ s.chip.rd (Reg.SafIn.PULSED x) = 0 ∧ 10 * s.chip.rd Reg.Saf.TP_PERIOD * 1000000 ≤
      (s.chip.advance dt).runNs - (s.chip.safIn x).cleanFrom) ∧
    (∃ (dt : Nat) (x : Fin 8) (s : State), s.chip.rd (Reg.SafIn.IN_STATE x) = 2 ∧ (s.chip.safIn x).fenced = false ∧
      s.chip.bothHigh x = true ∧ s.chip.rd (Reg.SafIn.PULSED x) = 0 ∧ (s.chip.advance dt).runNs - (s.chip.safIn
      x).cleanFrom < 10 * s.chip.rd Reg.Saf.TP_PERIOD * 1000000) :=
  ⟨⟨tst [(Reg.Saf.SAFETY_OK, 0)], by decide⟩,
   ⟨0, [], tst [(Reg.Saf.SAFETY_OK, 1), (Reg.SafIn.FUNCTION 0, 1), (Reg.SafIn.FUNCTION 1, 0), (Reg.SafIn.FUNCTION 2,
     0), (Reg.SafIn.FUNCTION 3, 0), (Reg.SafIn.FUNCTION 4, 0), (Reg.SafIn.FUNCTION 5, 0), (Reg.SafIn.FUNCTION 6, 0),
     (Reg.SafIn.FUNCTION 7, 0), (Reg.SafIn.IN_STATE 0, 1)], by decide⟩,
   ⟨0, [(true, true)], tst [(Reg.Saf.SAFETY_OK, 1), (Reg.SafIn.FUNCTION 0, 1), (Reg.SafIn.FUNCTION 1, 0),
     (Reg.SafIn.FUNCTION 2, 0), (Reg.SafIn.FUNCTION 3, 0), (Reg.SafIn.FUNCTION 4, 0), (Reg.SafIn.FUNCTION 5, 0),
     (Reg.SafIn.FUNCTION 6, 0), (Reg.SafIn.FUNCTION 7, 0), (Reg.SafIn.IN_STATE 0, 0)], by decide⟩,
   ⟨0, [(some true, none)], tst [(Reg.Saf.SAFETY_OK, 1), (Reg.SafIn.FUNCTION 0, 1), (Reg.SafIn.FUNCTION 1, 0),
     (Reg.SafIn.FUNCTION 2, 0), (Reg.SafIn.FUNCTION 3, 0), (Reg.SafIn.FUNCTION 4, 0), (Reg.SafIn.FUNCTION 5, 0),
     (Reg.SafIn.FUNCTION 6, 0), (Reg.SafIn.FUNCTION 7, 0), (Reg.SafIn.PULSED 0, 1)], by decide⟩,
   ⟨0, [(some false, none)], tst [(Reg.Saf.SAFETY_OK, 1), (Reg.SafIn.FUNCTION 0, 1), (Reg.SafIn.FUNCTION 1, 0),
     (Reg.SafIn.FUNCTION 2, 0), (Reg.SafIn.FUNCTION 3, 0), (Reg.SafIn.FUNCTION 4, 0), (Reg.SafIn.FUNCTION 5, 0),
     (Reg.SafIn.FUNCTION 6, 0), (Reg.SafIn.FUNCTION 7, 0), (Reg.SafIn.PULSED 0, 1), (Reg.SafIn.IN_STATE 0, 1)], by
     decide⟩,
   ⟨0, 0, 0, tst [(Reg.Saf.SAFETY_OK, 1), (Reg.SafIn.FUNCTION 0, 1), (Reg.SafIn.FUNCTION 1, 0), (Reg.SafIn.FUNCTION
     2, 0), (Reg.SafIn.FUNCTION 3, 0), (Reg.SafIn.FUNCTION 4, 0), (Reg.SafIn.FUNCTION 5, 0), (Reg.SafIn.FUNCTION 6,
     0), (Reg.SafIn.FUNCTION 7, 0), (Reg.SafIn.IN_STATE 0, 1)] (fun c =>
     { { c with safety := { c.safety with ins := [(0, { SafInSt.start with apartFrom := some 0 })] } } with time := { c.time with units := (c.rd (Reg.SafIn.DISC_TIME 0) * 1000000 + 1) * 2 ^ 40 } }),
     by decide⟩,
   ⟨0, 0, tst [((Reg.SafIn.IN_STATE 0), 2), ((Reg.SafIn.PULSED 0), 0), (Reg.SafIn.CH_A 0, 1), (Reg.SafIn.CH_B 0, 1)]
     (fun c => { c with time := { c.time with units := (10 * c.rd Reg.Saf.TP_PERIOD * 1000000) * 2 ^ 40 } }), by
     decide⟩,
   ⟨0, 0, tst [((Reg.SafIn.IN_STATE 0), 2), ((Reg.SafIn.PULSED 0), 0), (Reg.SafIn.CH_A 0, 1), (Reg.SafIn.CH_B 0, 1),
     (Reg.Saf.TP_PERIOD, 100)], by decide⟩⟩

/-- Witnesses of the clauses of SafetyOutputs. -/
theorem witness_safety_outputs_1 :
    (∃ (dt : Nat) (y : Fin 2) (t0 : Nat) (s : State), (s.chip.safOut y).offDue = some t0 ∧ t0 ≤ (s.chip.advance
      dt).runNs) ∧
    (∃ (dt : Nat) (y : Fin 2) (t0 : Nat) (s : State), (s.chip.safOut y).offDue = some t0 ∧ (s.chip.advance dt).runNs
      < t0) ∧
    (∃ (y : Fin 2) (s : State), s.chip.outOn y = true) ∧
    (∃ (s : State), s.chip.rd Reg.Saf.SAFETY_OK = 1) ∧
    (∃ (s : State), s.chip.rd Reg.Saf.SAFETY_OK = 0) ∧
    (∃ (dt : Nat) (y : Fin 2) (t0 : Nat) (s : State), (s.chip.safOut y).changed = some t0 ∧ s.chip.rd Reg.Saf.FB_TIME
      * 1000000 ≤ (s.chip.advance dt).runNs - t0) ∧
    (∃ (p : PortIx) (s : State), s.chip.has p .protect = false) ∧
    (∃ (p : PortIx) (s : State), s.chip.has p .protect = true ∧ s.chip.rd Reg.Saf.SAFETY_OK = 0) :=
  ⟨⟨0, 0, 0, tst [] (fun c => { c with safety := { c.safety with outs := [(0, ⟨some 0, none, false⟩)] } }), by
     decide⟩,
   ⟨0, 0, 1, tst [] (fun c => { c with safety := { c.safety with outs := [(0, ⟨some 1, none, false⟩)] } }), by
     decide⟩,
   ⟨0, tst [(Reg.Saf.SO_ON, 1)], by decide⟩,
   ⟨tst [(Reg.Saf.SAFETY_OK, 1)], by decide⟩,
   ⟨tst [(Reg.Saf.SAFETY_OK, 0)], by decide⟩,
   ⟨0, 0, 0, tst [] (fun c =>
     { { c with safety := { c.safety with outs := [(0, ⟨none, some 0, false⟩)] } } with time := { c.time with units := (c.rd Reg.Saf.FB_TIME * 1000000) * 2 ^ 40 } }),
     by decide⟩,
   ⟨0, tst [], by decide⟩,
   ⟨0, tst [((Reg.Port.PORT_STATE 0), 2), ((Reg.Port.RIGHTS 0), 31), (Reg.Saf.SAFETY_OK, 0)], by decide⟩⟩

/-- Witnesses of the clauses of SafetyOutputs. -/
theorem witness_safety_outputs_2 :
    (∃ (p : PortIx) (s : State), s.chip.has p .protect = true ∧ s.chip.rd Reg.Saf.SAFETY_OK = 1 ∧ (∀ x : Fin 8,
      s.chip.isStop x = true → s.chip.rd (Reg.SafIn.IN_STATE x) = 1 ∨ s.chip.rd (Reg.SafIn.IN_STATE x) = 3) ∧ (∀ y :
      Fin 2, (s.chip.safOut y).fbFailed = true → bits (s.chip.rd Reg.Saf.FB_OPEN) y 1 = 1)) ∧
    (∃ (p : PortIx) (s : State), s.chip.has p .protect = true ∧ s.chip.rd Reg.Saf.SAFETY_OK = 1 ∧ (∃ x < 8,
      s.chip.isStop x = true ∧ s.chip.rd (Reg.SafIn.IN_STATE x) = 0 ∧ s.chip.degraded x = false)) ∧
    (∃ (dt : Nat) (s : State), (let x := s.chip.rd Reg.Saf.DEGRADED_INPUT; s.chip.rd Reg.Saf.DEGRADED = 1 ∧ x < 8 ∧
      s.chip.rd Reg.Saf.DEGRADED_TIME * 1000000000 ≤ (s.chip.advance dt).runNs - s.chip.safety.degradedAt)) :=
  ⟨⟨0, tst [(Reg.Saf.SAFETY_OK, 1), (Reg.Saf.SO_ON, 3), (Reg.Port.PORT_STATE 0, 2), (Reg.Port.RIGHTS 0, 31)], by
     decide⟩,
   ⟨0, tst [(Reg.Saf.SAFETY_OK, 1), (Reg.SafIn.FUNCTION 0, 1), (Reg.Port.PORT_STATE 0, 2), (Reg.Port.RIGHTS 0, 31)],
     by decide⟩,
   ⟨0, tst [(Reg.Saf.DEGRADED, 1)] (fun c =>
     { c with time := { c.time with units := (c.rd Reg.Saf.DEGRADED_TIME * 1000000000) * 2 ^ 40 } }), by decide⟩⟩

/-- Witnesses of the clauses of PortsAttachAndLeave. -/
theorem witness_ports_attach_and_leave :
    (∃ (p : PortIx) (s : State), s.chip.rd (Reg.Port.PORT_STATE p) = 0) ∧
    (∃ (p : PortIx) (s : State), s.chip.rd (Reg.Port.PORT_STATE p) = 1 ∧ 5 ≤ s.chip.rd Reg.Card.START_STATE ∧
      s.chip.rd Reg.Card.START_STATE ≤ 7) ∧
    (∃ (p : PortIx) (s : State), s.chip.attached p = true) ∧
    (∃ (p : PortIx) (dt : Nat) (s : State), s.chip.attached p = true ∧ s.chip.rd (Reg.Port.WATCHDOG_MS p) * 1000000 ≤
      (s.chip.advance dt).runNs - (s.chip.port p).beat) :=
  ⟨⟨0, tst [((Reg.Port.PORT_STATE 0), 0)], by decide⟩,
   ⟨0, tst [((Reg.Port.PORT_STATE 0), 1), (Reg.Card.START_STATE, 5)], by decide⟩,
   ⟨0, tst [((Reg.Port.PORT_STATE 0), 2)], by decide⟩,
   ⟨0, 0, tst [((Reg.Port.PORT_STATE 0), 2)] (fun c =>
     { c with time := { c.time with units := (c.rd (Reg.Port.WATCHDOG_MS 0) * 1000000) * 2 ^ 40 } }), by decide⟩⟩

/-- Witnesses of the clauses of OrdersCommit. -/
theorem witness_orders_commit :
    (∃ (p : PortIx) (s : State), s.chip.attached p = true) ∧
    (∃ (p : PortIx) (s : State), s.chip.has p .order = true ∧ s.chip.on Reg.Ord.TOKEN_HELD = false ∧ s.chip.on
      (Reg.Port.TOKEN p) = false) ∧
    (∃ (p : PortIx) (q : PortIx) (s : State), s.chip.has p .order = true ∧ s.chip.on Reg.Ord.TOKEN_HELD = true ∧
      s.chip.rd Reg.Ord.TOKEN_PORT = q ∧ q ≠ p) ∧
    (∃ (p : PortIx) (s : State), s.chip.attached p = true ∧ s.chip.on (Reg.Port.TOKEN p) = true) ∧
    (∃ (p : PortIx) (s : State), s.chip.has p .order = true ∧ s.chip.on (Reg.Port.TOKEN p) = true) ∧
    (∃ (p : PortIx) (s : State), s.chip.has p .order = true ∧ s.chip.on (Reg.Port.TOKEN p) = false) ∧
    (∃ (dt : Nat) (s : State), s.chip.on Reg.Ord.HOLDING = true ∧ s.chip.rd Reg.Ord.ORDER_HOLD_MS * 1000000 ≤
      (s.chip.advance dt).runNs - s.chip.orders.holdFrom) :=
  ⟨⟨0, tst [((Reg.Port.PORT_STATE 0), 2)], by decide⟩,
   ⟨0, tst [((Reg.Port.PORT_STATE 0), 2), ((Reg.Port.RIGHTS 0), 31)], by decide⟩,
   ⟨0, 1, tst [((Reg.Port.PORT_STATE 0), 2), ((Reg.Port.RIGHTS 0), 31), (Reg.Ord.TOKEN_HELD, 1), (Reg.Ord.TOKEN_PORT,
     1)], by decide⟩,
   ⟨0, tst [((Reg.Port.PORT_STATE 0), 2), ((Reg.Port.TOKEN 0), 1)], by decide⟩,
   ⟨0, tst [((Reg.Port.PORT_STATE 0), 2), ((Reg.Port.RIGHTS 0), 31), ((Reg.Port.TOKEN 0), 1)], by decide⟩,
   ⟨0, tst [((Reg.Port.PORT_STATE 0), 2), ((Reg.Port.RIGHTS 0), 31)], by decide⟩,
   ⟨0, tst [(Reg.Ord.HOLDING, 1)] (fun c =>
     { c with time := { c.time with units := (c.rd Reg.Ord.ORDER_HOLD_MS * 1000000) * 2 ^ 40 } }), by decide⟩⟩

/-- Witnesses of the clauses of BlockDeblockTrip. -/
theorem witness_block_deblock_trip :
    (∃ (p : PortIx) (s : State), (s.chip.has p .order = true ∨ s.chip.has p .protect = true)) ∧
    (∃ (p : PortIx) (s : State), s.chip.has p .order = true ∧ s.chip.on (Reg.Port.TOKEN p) = true ∧
      s.chip.deblockCause ≠ 0) ∧
    (∃ (p : PortIx) (s : State), s.chip.has p .order = true ∧ s.chip.on (Reg.Port.TOKEN p) = true ∧
      s.chip.deblockCause = 0 ∧ s.chip.orders.justBlocked.2 ≠ s.chip.frame) ∧
    (∃ (p : PortIx) (s : State), s.chip.has p .protect = true) :=
  ⟨⟨0, tst [((Reg.Port.PORT_STATE 0), 2), ((Reg.Port.RIGHTS 0), 31)], by decide⟩,
   ⟨0, tst [((Reg.Port.PORT_STATE 0), 2), ((Reg.Port.RIGHTS 0), 31), ((Reg.Port.TOKEN 0), 1)], by decide⟩,
   ⟨0, tst [((Reg.Port.PORT_STATE 0), 2), ((Reg.Port.RIGHTS 0), 31), ((Reg.Port.TOKEN 0), 1), (Reg.Card.START_STATE,
     6), (Reg.SafIn.FUNCTION 0, 0), (Reg.SafIn.FUNCTION 1, 0), (Reg.SafIn.FUNCTION 2, 0), (Reg.SafIn.FUNCTION 3, 0),
     (Reg.SafIn.FUNCTION 4, 0), (Reg.SafIn.FUNCTION 5, 0), (Reg.SafIn.FUNCTION 6, 0), (Reg.SafIn.FUNCTION 7, 0),
     (Reg.RegionRed.BELOW_MIN 0, 0), (Reg.RegionRed.BELOW_MIN 1, 0), (Reg.RegionRed.BELOW_MIN 2, 0),
     (Reg.RegionRed.BELOW_MIN 3, 0), (Reg.RegionRed.BELOW_MIN 4, 0), (Reg.RegionRed.BELOW_MIN 5, 0),
     (Reg.RegionRed.BELOW_MIN 6, 0), (Reg.RegionRed.BELOW_MIN 7, 0), (Reg.Flt.TRIP, 0)] (fun c =>
     { c with orders := { c.orders with justBlocked := (0, 1) }, card := { c.card with time := { c.card.time with refBefore := false } } }),
     by decide⟩,
   ⟨0, tst [((Reg.Port.PORT_STATE 0), 2), ((Reg.Port.RIGHTS 0), 31)], by decide⟩⟩

/-- Witnesses of the clauses of Streams. -/
theorem witness_streams_1 :
    (∃ (p : PortIx) (s : State), s.chip.attached p = false) ∧
    (∃ (p : PortIx) (st : StreamIx) (s : State), s.chip.attached p = true ∧ s.chip.has p (streamRight st) = false) ∧
    (∃ (p : PortIx) (st : StreamIx) (s : State), s.chip.has p (streamRight st) = true ∧ s.chip.rd (Reg.Strm.ACTIVE p
      st) = 0 ∧ s.chip.ringBase p st % 4096 = 0 ∧ 12 ≤ s.chip.rd (Reg.Strm.RING_SIZE_LOG2 p st) ∧ s.chip.rd
      (Reg.Strm.RING_SIZE_LOG2 p st) ≤ 24 ∧ s.chip.headAddr p st % 8 = 0) ∧
    (∃ (p : PortIx) (st : StreamIx) (s : State), s.chip.has p (streamRight st) = true ∧ s.chip.rd (Reg.Strm.ACTIVE p
      st) = 0 ∧ (s.chip.ringBase p st % 4096 ≠ 0 ∨ s.chip.rd (Reg.Strm.RING_SIZE_LOG2 p st) < 12 ∨ 24 < s.chip.rd
      (Reg.Strm.RING_SIZE_LOG2 p st) ∨ s.chip.headAddr p st % 8 ≠ 0)) ∧
    (∃ (p : PortIx) (s : State), s.chip.attached p = true) ∧
    (∃ (p : PortIx) (st : StreamIx) (r : StreamRec) (rest : List StreamRec) (s : State),
      (let size := 2 ^ s.chip.rd (Reg.Strm.RING_SIZE_LOG2 p st); let w := s.chip.rd (Reg.Strm.WR_PTR p st);
      (s.chip.stream p st).buf = r :: rest ∧ st.val ≠ 2 ∧ s.chip.rd (Reg.Strm.ACTIVE p st) = 1 ∧ w + r.len ≤ size ∧
      r.len < s.chip.ringFree p st ∧ (s.chip.port p).inFlight = [] ∧ r.len ≤ 256)) ∧
    (∃ (p : PortIx) (st : StreamIx) (s : State), (s.chip.stream p st).buf = []) ∧
    (∃ (p : PortIx) (st : StreamIx) (len : Nat) (s : State), st.val ≠ 2 ∧ s.chip.rd (Reg.Strm.ACTIVE p st) = 1 ∧
      16384 < bufUnits (s.chip.stream p st).buf * 16 + len) :=
  ⟨⟨0, tst [], by decide⟩,
   ⟨0, 0, tst [((Reg.Port.PORT_STATE 0), 2)], by decide⟩,
   ⟨0, 0, tst [((Reg.Strm.ACTIVE 0 0), 0), (Reg.Port.PORT_STATE 0, 2), (Reg.Port.RIGHTS 0, 31),
     (Reg.Strm.RING_SIZE_LOG2 0 0, 12)], by decide⟩,
   ⟨0, 0, tst [((Reg.Strm.ACTIVE 0 0), 0), (Reg.Port.PORT_STATE 0, 2), (Reg.Port.RIGHTS 0, 31)], by decide⟩,
   ⟨0, tst [((Reg.Port.PORT_STATE 0), 2)], by decide⟩,
   ⟨0, 0, ⟨0, 16, 0, 0, 0, []⟩, [], tst [((Reg.Strm.ACTIVE 0 0), 1), (Reg.Strm.RING_SIZE_LOG2 0 0, 12)] (fun c =>
     c.setStream 0 0 { c.stream 0 0 with buf := [⟨0, 16, 0, 0, 0, []⟩] }), by decide⟩,
   ⟨0, 0, tst [], by decide⟩,
   ⟨0, 0, 16385, tst [((Reg.Strm.ACTIVE 0 0), 1)], by decide⟩⟩

/-- Witness of Streams. -/
theorem witness_streams_2 :
    ∃ (dt : Nat) (p : PortIx) (st : StreamIx) (s : State), 0 < (s.chip.stream p st).unsignalled ∧ (s.chip.stream p
      st).firstAt + s.chip.rd (Reg.Strm.INT_DELAY p st) * 1000 ≤ (s.chip.advance dt).runNs :=
  ⟨0, 0, 0, tst [(Reg.Strm.INT_DELAY 0 0, 0)] (fun c => c.setStream 0 0 { c.stream 0 0 with unsignalled := 1 }), by
    decide⟩

/-- Witnesses of the clauses of RegisterWrites. -/
theorem witness_register_writes :
    (∃ (p : PortIx) (s : State), s.chip.rd (Reg.Port.PORT_STATE p) ≠ 0) ∧
    (∃ (p : PortIx) (s : State), s.chip.rd (Reg.Port.PORT_STATE p) = 0) ∧
    (∃ (p : PortIx) (off : Nat) (s : State), (s.chip.rd (Reg.Port.PORT_STATE p) = 0 ∨ hostWord p off = [])) ∧
    (∃ (p : PortIx) (s : State), s.chip.has p .order = true) ∧
    (∃ (p : PortIx) (s : State), s.chip.attached p = true ∧ s.chip.has p .order = false ∧ s.chip.inState 8 = false) ∧
    (∃ (p : PortIx) (s : State) (f : Fld), s.chip.has p .maint = true ∧ s.chip.rd f < 2) :=
  ⟨⟨0, tst [((Reg.Port.PORT_STATE 0), 1)], by decide⟩,
   ⟨0, tst [((Reg.Port.PORT_STATE 0), 0)], by decide⟩,
   ⟨0, 0, tst [((Reg.Port.PORT_STATE 0), 0)], by decide⟩,
   ⟨0, tst [((Reg.Port.PORT_STATE 0), 2), ((Reg.Port.RIGHTS 0), 31)], by decide⟩,
   ⟨0, tst [((Reg.Port.PORT_STATE 0), 2)], by decide⟩,
   ⟨0, tst [((Reg.Port.PORT_STATE 0), 2), ((Reg.Port.RIGHTS 0), 31)], Reg.Time.REF_ACQUIRED, by decide⟩⟩

/-- Witnesses of the clauses of SnapshotReads. -/
theorem witness_snapshot_reads :
    (∃ (p : PortIx) (s : State), s.chip.has p .observe = true) ∧
    (∃ (p : PortIx) (s : State), s.chip.has p .observe = false) ∧
    (∃ (p : PortIx) (s : State) (x : ImpRes), s.chip.has p .observe = true ∧ findKey (8 * s.chip.rd
      (Reg.Sweep.IMP_PROBE_CELL p) + s.chip.rd (Reg.Sweep.IMP_PROBE_POINT p)) s.chip.sweep.results = some x) ∧
    (∃ (p : PortIx) (s : State), s.chip.has p .observe = true ∧ findKey (8 * s.chip.rd (Reg.Sweep.IMP_PROBE_CELL p) +
      s.chip.rd (Reg.Sweep.IMP_PROBE_POINT p)) s.chip.sweep.results = none) ∧
    (∃ (p : PortIx) (s : State), s.chip.rd (Reg.Port.PORT_STATE p) ≠ 0) ∧
    (∃ (p : PortIx) (s : State), s.chip.rd (Reg.Port.PORT_STATE p) = 0) :=
  ⟨⟨0, tst [((Reg.Port.PORT_STATE 0), 2), ((Reg.Port.RIGHTS 0), 31)], by decide⟩,
   ⟨0, tst [], by decide⟩,
   ⟨0, tst [((Reg.Port.PORT_STATE 0), 2), ((Reg.Port.RIGHTS 0), 31)] (fun c =>
     { c with sweep := { c.sweep with results := [(0, ⟨5, 0, 0, 0, 0⟩)] } }), (⟨5, 0, 0, 0, 0⟩ : ImpRes), by decide⟩,
   ⟨0, tst [((Reg.Port.PORT_STATE 0), 2), ((Reg.Port.RIGHTS 0), 31)], by decide⟩,
   ⟨0, tst [((Reg.Port.PORT_STATE 0), 1)], by decide⟩,
   ⟨0, tst [((Reg.Port.PORT_STATE 0), 0)], by decide⟩⟩

/-- Witnesses of the clauses of StartUp. -/
theorem witness_start_up_1 :
    (∃ (s : State), (s.chip.rd Reg.Card.START_STATE ≠ 0 ∨ s.chip.recov.supplyLow ≠ [])) ∧
    (∃ (tm : Fin 4) (s : State), s.chip.rd Reg.Card.START_STATE = 0 ∧ s.chip.recov.supplyLow = [] ∧ (tm.val = 0 ∨
      s.fuses.fieldClosed = true)) ∧
    (∃ (tm : Fin 4) (s : State), s.chip.rd Reg.Card.START_STATE = 0 ∧ s.chip.recov.supplyLow = [] ∧ tm.val ≠ 0 ∧
      s.fuses.fieldClosed = false) ∧
    (∃ (s : State), s.chip.rd Reg.Card.START_STATE = 1) ∧
    (∃ (s : State), s.chip.rd Reg.Card.START_STATE = 2) ∧
    (∃ (a : Bool) (b : Bool) (sigA : Bool) (sigB : Bool) (s : State), (let va := s.chip.viewCopy s.fuses 0 a sigA;
      let vb := s.chip.viewCopy s.fuses 1 b sigB; s.chip.rd Reg.Card.START_STATE = 2 ∧ va.candidate vb = true ∧
      va.passes = true ∧ (vb.seq ≤ va.seq ∨ vb.candidate va = false ∨ vb.passes = false))) ∧
    (∃ (a : Bool) (b : Bool) (sigA : Bool) (sigB : Bool) (s : State), (let va := s.chip.viewCopy s.fuses 0 a sigA;
      let vb := s.chip.viewCopy s.fuses 1 b sigB; s.chip.rd Reg.Card.START_STATE = 2 ∧ (a = true ∨ b = true) ∧
      (va.candidate vb = false ∨ va.passes = false) ∧ (vb.candidate va = false ∨ vb.passes = false))) ∧
    (∃ (s : State), (let h := s.chip.header (s.chip.rd Reg.Card.ACTIVE_COPY); s.chip.rd Reg.Card.START_STATE = 3 ∧
      (s.fuses.stepMajor, s.fuses.stepMinor) ∉ steppingList h 128)) :=
  ⟨⟨tst [(Reg.Card.START_STATE, 1)], by decide⟩,
   ⟨0, tst [(Reg.Card.START_STATE, 0)], by decide⟩,
   ⟨1, tst [(Reg.Card.START_STATE, 0)], by decide⟩,
   ⟨tst [(Reg.Card.START_STATE, 1)], by decide⟩,
   ⟨tst [(Reg.Card.START_STATE, 2)], by decide⟩,
   ⟨true, false, true, false, tst [(Reg.Card.START_STATE, 2)] (fun c => c.setPage 0 0 ([0x43, 0x57, 0x52, 0x31, 1, 0,
     0, 1, 0, 16, 0, 0, 2, 0, 0, 0, 0, 1, 0, 0, 0, 0, 0, 0, 0, 0, 0, 0, 1, 0, 0, 0] ++ List.replicate 96 0 ++ 0 ::
     List.replicate 7 255 ++ 0 :: List.replicate 7 255 ++ List.replicate 112 0)), by decide⟩,
   ⟨true, false, false, false, tst [(Reg.Card.START_STATE, 2)], by decide⟩,
   ⟨tst [(Reg.Card.START_STATE, 3)], by decide⟩⟩

/-- Witnesses of the clauses of StartUp. -/
theorem witness_start_up_2 :
    (∃ (image : Option (Fin 65536 × Word)) (card : Card) (s : State) (x : Nat × Nat),
      (let h := s.chip.header (s.chip.rd Reg.Card.ACTIVE_COPY); s.chip.rd Reg.Card.START_STATE = 3 ∧
      (s.fuses.stepMajor, s.fuses.stepMinor) ∈ steppingList h 128 ∧ cardFinding s.fuses h (image.map (fun e =>
      (e.1.val, e.2.toNat))) card = some x)) ∧
    (∃ (image : Option (Fin 65536 × Word)) (card : Card) (s : State),
      (let h := s.chip.header (s.chip.rd Reg.Card.ACTIVE_COPY); s.chip.rd Reg.Card.START_STATE = 3 ∧
      (s.fuses.stepMajor, s.fuses.stepMinor) ∈ steppingList h 128 ∧ cardFinding s.fuses h (image.map (fun e =>
      (e.1.val, e.2.toNat))) card = none)) ∧
    (∃ (card : Card) (s : State), s.chip.rd Reg.Card.START_STATE = 4 ∧ s.chip.start.card = some card) ∧
    (∃ (s : State), s.chip.rd Reg.Card.START_STATE ≠ 5) ∧
    (∃ (s : State), s.chip.rd Reg.Card.START_STATE = 5) ∧
    (∃ (p : PortIx) (s : State), (s.chip.rd Reg.Card.START_STATE ≠ 8 ∨ s.chip.rd (Reg.Port.PORT_STATE p) ≠ 1)) ∧
    (∃ (p : PortIx) (s : State), s.chip.rd Reg.Card.START_STATE = 8 ∧ s.chip.rd (Reg.Port.PORT_STATE p) = 1 ∧
      s.chip.start.job = none) ∧
    (∃ (p : PortIx) (s : State), s.chip.rd Reg.Card.START_STATE = 8 ∧ s.chip.rd (Reg.Port.PORT_STATE p) = 1 ∧
      s.chip.start.job.isSome = true) :=
  ⟨⟨none, Card.blank, tst [(Reg.Card.START_STATE, 3)] (fun c => c.setPage 0 0 ([0x43, 0x57, 0x52, 0x31, 1, 0, 0, 1,
     0, 16, 0, 0, 2, 0, 0, 0, 0, 0, 0, 0, 0, 0, 0, 0, 0, 0, 0, 0, 1, 0, 0, 0] ++ List.replicate 96 0 ++ 0 ::
     List.replicate 7 255 ++ 0 :: List.replicate 7 255 ++ List.replicate 112 0)), (0x1304, 0), by decide⟩,
   ⟨none, goodCard, tst [(Reg.Card.START_STATE, 3)] (fun c => c.setPage 0 0 ([0x43, 0x57, 0x52, 0x31, 1, 0, 0, 1, 0,
     16, 0, 0, 2, 0, 0, 0, 0, 1, 0, 0, 0, 0, 0, 0, 0, 0, 0, 0, 1, 0, 0, 0] ++ List.replicate 96 0 ++ 0 ::
     List.replicate 7 255 ++ 0 :: List.replicate 7 255 ++ List.replicate 112 0)), by decide⟩,
   ⟨Card.blank, tst [(Reg.Card.START_STATE, 4)] (fun c =>
     { c with start := { c.start with card := some Card.blank } }), by decide⟩,
   ⟨tst [], by decide⟩,
   ⟨tst [(Reg.Card.START_STATE, 5)], by decide⟩,
   ⟨0, tst [], by decide⟩,
   ⟨0, tst [(Reg.Card.START_STATE, 8), ((Reg.Port.PORT_STATE 0), 1)], by decide⟩,
   ⟨0, tst [(Reg.Card.START_STATE, 8), ((Reg.Port.PORT_STATE 0), 1)] (fun c =>
     { c with start := { c.start with job := some ⟨0, 1, 1, 0, []⟩ } }), by decide⟩⟩

/-- Witnesses of the clauses of Provisioning. -/
theorem witness_provisioning_1 :
    (∃ (p : PortIx) (s : State), s.chip.rd Reg.Card.START_STATE ≠ 8 ∧ s.chip.has p .maint = false) ∧
    (∃ (p : PortIx) (s : State), s.chip.rd Reg.Card.START_STATE = 6 ∧ s.chip.has p .maint = true ∧ s.chip.rd
      (Reg.Card.FLASH_COPY p) = s.chip.rd Reg.Card.ACTIVE_COPY) ∧
    (∃ (p : PortIx) (s : State), s.chip.rd Reg.Card.START_STATE = 6 ∧ s.chip.has p .maint = true ∧ s.chip.rd
      (Reg.Card.FLASH_COPY p) ≠ s.chip.rd Reg.Card.ACTIVE_COPY ∧ s.chip.start.job.isSome = true) ∧
    (∃ (p : PortIx) (s : State), s.chip.rd Reg.Card.START_STATE = 6 ∧ s.chip.has p .maint = true ∧ s.chip.rd
      (Reg.Card.FLASH_COPY p) ≠ s.chip.rd Reg.Card.ACTIVE_COPY ∧ s.chip.start.job = none) ∧
    (∃ (j : FlashJob) (s : State), s.chip.start.job = some j ∧ s.chip.start.restartDue = false) ∧
    (∃ (s : State), s.chip.start.job = none) ∧
    (∃ (p : PortIx) (s t : State), ∃ i ∈ [Instr.eraseGo p, .programGo p, .readGo p, .flashOpDone true], mapWf
      erasedPage s.chip.flash = true ∧ exec i s = .next t) ∧
    (∃ (p : PortIx) (s : State), s.chip.has p .maint = false) :=
  ⟨⟨0, tst [], by decide⟩,
   ⟨0, tst [(Reg.Card.START_STATE, 6), ((Reg.Port.PORT_STATE 0), 2), ((Reg.Port.RIGHTS 0), 31)], by decide⟩,
   ⟨0, tst [(Reg.Card.START_STATE, 6), ((Reg.Port.PORT_STATE 0), 2), ((Reg.Port.RIGHTS 0), 31), (Reg.Card.FLASH_COPY
     0, 1)] (fun c => { c with start := { c.start with job := some ⟨0, 1, 1, 0, []⟩ } }), by decide⟩,
   ⟨0, tst [(Reg.Card.START_STATE, 6), ((Reg.Port.PORT_STATE 0), 2), ((Reg.Port.RIGHTS 0), 31), (Reg.Card.FLASH_COPY
     0, 1)], by decide⟩,
   ⟨⟨0, 1, 1, 0, []⟩, tst [] (fun c => { c with start := { c.start with job := some ⟨0, 1, 1, 0, []⟩ } }), by decide⟩,
   ⟨tst [], by decide⟩,
   ⟨0, State.reset, _, .eraseGo 0, by simp, by decide, rfl⟩,
   ⟨0, tst [], by decide⟩⟩

/-- Witnesses of the clauses of Provisioning. -/
theorem witness_provisioning_2 :
    (∃ (p : PortIx) (s : State), s.chip.has p .maint = true ∧ (s.chip.rd Reg.Card.START_STATE ≠ 6 ∨ s.chip.rd
      Reg.Ord.BLOCKED ≠ 0xFF ∨ s.chip.rd Reg.Xchg.XCHG_ACTIVE ≠ 0)) ∧
    (∃ (p : PortIx) (s : State), s.chip.has p .maint = true ∧ s.chip.rd Reg.Card.START_STATE = 6 ∧ s.chip.rd
      Reg.Ord.BLOCKED = 0xFF ∧ s.chip.rd Reg.Xchg.XCHG_ACTIVE = 0 ∧ s.chip.cal.running = none) ∧
    (∃ (p : PortIx) (s : State), (let k := 1 - s.chip.rd Reg.Card.ACTIVE_COPY; let h := s.chip.header k; s.chip.rd
      Reg.Card.START_STATE = 7 ∧ s.chip.start.provPort = some p.val ∧ headerOk h = false)) ∧
    (∃ (sigOk : Bool) (p : PortIx) (s : State), (let k := 1 - s.chip.rd Reg.Card.ACTIVE_COPY;
      let h := s.chip.header k; s.chip.rd Reg.Card.START_STATE = 7 ∧ s.chip.start.provPort = some p.val ∧ headerOk h
      = true ∧ (leAt h 16 1 < s.fuses.rollback ∨ sigOk = false ∨ (s.fuses.keyBound = true ∧ keyHashOf h ≠
      s.fuses.keyHash) ∨ leAt h 12 4 ≤ s.chip.rd Reg.Card.CARD_SEQ))) ∧
    (∃ (sigOk : Bool) (image : Option (Fin 65536 × Word)) (card : Card) (p : PortIx) (s : State) (x : Nat × Nat),
      (let k := 1 - s.chip.rd Reg.Card.ACTIVE_COPY; let h := s.chip.header k; s.chip.rd Reg.Card.START_STATE = 7 ∧
      s.chip.start.provPort = some p.val ∧ headerOk h = true ∧ s.fuses.rollback ≤ leAt h 16 1 ∧ sigOk = true ∧
      (s.fuses.keyBound = false ∨ keyHashOf h = s.fuses.keyHash) ∧ s.chip.rd Reg.Card.CARD_SEQ < leAt h 12 4 ∧
      cardFinding s.fuses h (image.map (fun e => (e.1.val, e.2.toNat))) card = some x)) ∧
    (∃ (sigOk : Bool) (image : Option (Fin 65536 × Word)) (card : Card) (p : PortIx) (s : State),
      (let k := 1 - s.chip.rd Reg.Card.ACTIVE_COPY; let h := s.chip.header k; s.chip.rd Reg.Card.START_STATE = 7 ∧
      s.chip.start.provPort = some p.val ∧ headerOk h = true ∧ s.fuses.rollback ≤ leAt h 16 1 ∧ sigOk = true ∧
      (s.fuses.keyBound = false ∨ keyHashOf h = s.fuses.keyHash) ∧ s.chip.rd Reg.Card.CARD_SEQ < leAt h 12 4 ∧
      cardFinding s.fuses h (image.map (fun e => (e.1.val, e.2.toNat))) card = none)) :=
  ⟨⟨0, tst [((Reg.Port.PORT_STATE 0), 2), ((Reg.Port.RIGHTS 0), 31)], by decide⟩,
   ⟨0, tst [((Reg.Port.PORT_STATE 0), 2), ((Reg.Port.RIGHTS 0), 31), (Reg.Card.START_STATE, 6), (Reg.Ord.BLOCKED,
     0xFF), (Reg.Xchg.XCHG_ACTIVE, 0)], by decide⟩,
   ⟨0, tst [(Reg.Card.START_STATE, 7)] (fun c => { c with start := { c.start with provPort := some 0 } }), by decide⟩,
   ⟨false, 0, tst [(Reg.Card.START_STATE, 7)] (fun c =>
     { c.setPage 1 0 ([0x43, 0x57, 0x52, 0x31, 1, 0, 0, 1, 0, 16, 0, 0, 2, 0, 0, 0, 0, 1, 0, 0, 0, 0, 0, 0, 0, 0, 0, 0, 1, 0, 0, 0] ++ List.replicate 96 0 ++ 0 :: List.replicate 7 255 ++ 0 :: List.replicate 7 255 ++ List.replicate 112 0) with start := { c.start with provPort := some 0 } }),
     by decide⟩,
   ⟨true, none, Card.blank, 0, tst [(Reg.Card.START_STATE, 7)] (fun c =>
     { c.setPage 1 0 ([0x43, 0x57, 0x52, 0x31, 1, 0, 0, 1, 0, 16, 0, 0, 2, 0, 0, 0, 0, 0, 0, 0, 0, 0, 0, 0, 0, 0, 0, 0, 1, 0, 0, 0] ++ List.replicate 96 0 ++ 0 :: List.replicate 7 255 ++ 0 :: List.replicate 7 255 ++ List.replicate 112 0) with start := { c.start with provPort := some 0 } }),
     (0x1304, 0), by decide⟩,
   ⟨true, none, goodCard, 0, tst [(Reg.Card.START_STATE, 7)] (fun c =>
     { c.setPage 1 0 ([0x43, 0x57, 0x52, 0x31, 1, 0, 0, 1, 0, 16, 0, 0, 2, 0, 0, 0, 0, 1, 0, 0, 0, 0, 0, 0, 0, 0, 0, 0, 1, 0, 0, 0] ++ List.replicate 96 0 ++ 0 :: List.replicate 7 255 ++ 0 :: List.replicate 7 255 ++ List.replicate 112 0) with start := { c.start with provPort := some 0 } }),
     by decide⟩⟩

/-- Witnesses of the clauses of FieldClosure. -/
theorem witness_field_closure_1 :
    (∃ (p : PortIx) (s : State), s.chip.has p .maint = true) ∧
    (∃ (p : PortIx) (s : State), s.chip.has p .maint = false) ∧
    (∃ (p : PortIx) (dt : Nat) (s : State), s.chip.has p .maint = true ∧ (s.chip.advance dt).fieldArmed p = false) ∧
    (∃ (p : PortIx) (dt : Nat) (s : State), s.chip.has p .maint = true ∧ (s.chip.advance dt).fieldArmed p = true ∧
      s.chip.rd (Reg.Card.FIELD_CODE p) ≠ s.fuses.dieUid % 2 ^ 32) ∧
    (∃ (p : PortIx) (dt : Nat) (s : State), s.chip.has p .maint = true ∧ (s.chip.advance dt).fieldArmed p = true ∧
      s.chip.rd (Reg.Card.FIELD_CODE p) = s.fuses.dieUid % 2 ^ 32 ∧ (s.fuses.keyBound = false ∨ s.chip.rd
      Reg.Ord.BLOCKED ≠ 0xFF ∨ headerFlag (s.chip.header (s.chip.rd Reg.Card.ACTIVE_COPY)) 0 = false)) ∧
    (∃ (p : PortIx) (dt : Nat) (s : State), s.chip.has p .maint = true ∧ (s.chip.advance dt).fieldArmed p = true ∧
      s.chip.rd (Reg.Card.FIELD_CODE p) = s.fuses.dieUid % 2 ^ 32 ∧ s.fuses.keyBound = true ∧ s.chip.rd
      Reg.Ord.BLOCKED = 0xFF ∧ headerFlag (s.chip.header (s.chip.rd Reg.Card.ACTIVE_COPY)) 0 = true ∧ s.chip.rd
      Reg.Card.START_STATE = 6) ∧
    (∃ (dt : Nat) (q : Nat) (t0 : Nat) (s : State), s.chip.start.armed = some (q, t0) ∧ t0 + 10000000000 ≤
      (s.chip.advance dt).runNs) ∧
    (∃ (dt : Nat) (q : Nat) (t0 : Nat) (s : State), s.chip.start.armed = some (q, t0) ∧ (s.chip.advance dt).runNs <
      t0 + 10000000000) :=
  ⟨⟨0, tst [((Reg.Port.PORT_STATE 0), 2), ((Reg.Port.RIGHTS 0), 31)], by decide⟩,
   ⟨0, tst [], by decide⟩,
   ⟨0, 0, tst [((Reg.Port.PORT_STATE 0), 2), ((Reg.Port.RIGHTS 0), 31)], by decide⟩,
   ⟨0, 0, tst [((Reg.Port.PORT_STATE 0), 2), ((Reg.Port.RIGHTS 0), 31), (Reg.Card.FIELD_CODE 0, 1)] (fun c =>
     { c with start := { c.start with armed := some (0, 0) } }), by decide⟩,
   ⟨0, 0, tst [((Reg.Port.PORT_STATE 0), 2), ((Reg.Port.RIGHTS 0), 31)] (fun c =>
     { c with start := { c.start with armed := some (0, 0) } }), by decide⟩,
   ⟨0, 0,
     { (tst [((Reg.Port.PORT_STATE 0), 2), ((Reg.Port.RIGHTS 0), 31), (Reg.Ord.BLOCKED, 0xFF), (Reg.Card.START_STATE, 6)] (fun c => { c.setPage 0 0 ([0x43, 0x57, 0x52, 0x31, 1, 0, 0, 1, 0, 16, 0, 0, 2, 0, 0, 0, 0, 1, 0, 0, 0, 0, 1, 0, 0, 0, 0, 0, 1, 0, 0, 0] ++ List.replicate 96 0 ++ 0 :: List.replicate 7 255 ++ 0 :: List.replicate 7 255 ++ List.replicate 112 0) with start := { c.start with armed := some (0, 0) } })) with fuses := { Fuses.reset with keyBound := true } },
     by decide⟩,
   ⟨0, 0, 0, tst [] (fun c =>
     { { c with time := { c.time with units := 10000000000 * 2 ^ 40 } } with start := { c.start with armed := some (0, 0) } }),
     by decide⟩,
   ⟨0, 0, 0, tst [] (fun c => { c with start := { c.start with armed := some (0, 0) } }), by decide⟩⟩

/-- Witnesses of the clauses of FieldClosure. -/
theorem witness_field_closure_2 :
    (∃ (a : CellAddr) (s : State), s.chip.rd (Reg.CFlt.FIELD_CLOSE_GO a) ≠ 1) ∧
    (∃ (a : CellAddr) (s : State), s.chip.rd (Reg.CFlt.FIELD_CLOSE_GO a) = 1) :=
  ⟨⟨0, tst [], by decide⟩,
   ⟨0, tst [((Reg.CFlt.FIELD_CLOSE_GO 0), 1)], by decide⟩⟩

/-- Witnesses of the clauses of ResetsAndSupplies. -/
theorem witness_resets_and_supplies :
    (∃ (f : Fld), f.key < 8 * 33554432) ∧
    (∃ (f : Fld), 8 * 33554432 ≤ f.key) ∧
    (∃ (c : Chip), c.start.job = none) ∧
    (∃ (deg : Int), 105 * 16 < deg ∧ deg < 110 * 16) ∧
    (∃ (deg : Int), deg ≤ 105 * 16) ∧
    (∃ (die : Fin 5) (deg : Int) (s : State), 110 * 16 ≤ deg ∧ deg < 125 * 16 ∧ die.val ∉ s.chip.recov.warned) ∧
    (∃ (die : Fin 5) (deg : Int) (s : State), 125 * 16 ≤ deg ∧ die.val < 4 ∧ s.chip.ridgeUp die = true) ∧
    (∃ (die : Fin 5) (deg : Int), 125 * 16 ≤ deg ∧ die.val = 4) :=
  ⟨⟨Reg.Saf.SAFETY_OK, by decide⟩,
   ⟨(Reg.CId.CELL_STATE 0), by decide⟩,
   ⟨(tst []).chip, by decide⟩,
   ⟨1700, by decide⟩,
   ⟨0, by decide⟩,
   ⟨0, 1760, tst [], by decide⟩,
   ⟨0, 2000, tst [(Reg.Rope.POPULATION 0, 1), (Reg.Die.RIDGE0_STATE, 2), (Reg.Die.RIDGE1_STATE, 2),
     (Reg.Die.LINK01_UP, 1)], by decide⟩,
   ⟨4, 2000, by decide⟩⟩

/-- Witness of StepRunsFront. -/
theorem witness_step_runs_front :
    ∃ (i : Instr) (s : State) (rest : List Instr), s.pending = i :: rest :=
  ⟨.eraseGo 0, { State.reset with pending := [.eraseGo 0] }, [], by decide⟩

/-- Witnesses of the clauses of QueueMovesOn. -/
theorem witness_queue_moves_on :
    (∃ s t : State, step s = .next t) ∧
    (∃ s t : State, step s = .next t ∧ s.pending = []) :=
  ⟨⟨State.reset, _, rfl⟩,
   ⟨State.reset, _, rfl, rfl⟩⟩

/-- Witness of FusesStaySound. -/
theorem witness_fuses_stay_sound :
    ∃ s t : State, s.fuses.sound ∧ step s = .next t :=
  ⟨State.reset, _, ⟨rfl, fun _ => rfl, by decide⟩, rfl⟩

/-- Witnesses of the clauses of FusesOnlyGrow. -/
theorem witness_fuses_only_grow :
    (∃ s t : State, s.fuses.sound ∧ step s = .next t) ∧
    (∃ (l : List State) (s t : State), s.fuses.sound ∧ l.head? = some s ∧ l.getLast? = some t ∧ (∀ k u v, l[k]? =
      some u → l[k + 1]? = some v → step u = .next v)) :=
  ⟨⟨State.reset, _, ⟨rfl, fun _ => rfl, by decide⟩, rfl⟩,
   ⟨[State.reset], State.reset, State.reset, ⟨rfl, fun _ => rfl, by decide⟩, rfl, rfl, fun _ _ _ _ hv => absurd hv
     (by simp)⟩⟩

/-- Witness of OthersLeaveFuses. -/
theorem witness_others_leave_fuses :
    ∃ (i : Instr) (s t : State), blowsFuses i = false ∧ exec i s = .next t :=
  ⟨.eraseGo 0, State.reset, _, by decide, rfl⟩

/-- Witness of NoOtherStop. -/
theorem witness_no_other_stop :
    ∃ (i : Instr) (s : State) (f : Fault), exec i s = .fault f :=
  ⟨.wcResetRelease 1 true, tst [(Reg.Card.START_STATE, 0)] (fun c =>
    { c with recov := { c.recov with supplyLow := [] } }), _, rfl⟩

/-- Witnesses of the clauses of GatedChannelDropsActions. -/
theorem witness_gated_channel_drops_actions :
    (∃ (n : ChanIx) (f : Fld), ∀ g ∈ [Reg.Angle.VALID n, Reg.Angle.GATED n, Reg.Time.DROPPED_COUNT,
      Reg.Angle.GATED_DROP n, Reg.Flt.FAULT_COUNT], f.key ≠ g.key) ∧
    (∃ (n : Fin 2) (s : State), 2 ≤ (s.chip.gridLock n).missing ∧ s.chip.rd (Reg.Angle.COASTING n) ≠ 1 ∧ s.chip.rd
      (Reg.Angle.GATED n) ≠ 1 ∧ s.chip.rd (Reg.Angle.LOSS_ACTION n) = 1) :=
  ⟨⟨0, Reg.Saf.SAFETY_OK, by decide⟩,
   ⟨0, tst [((Reg.Angle.LOSS_ACTION 0), 1)] (fun c => c.setGridLock 0 ⟨0, 0, 2, true⟩), by decide⟩⟩

/-- Witnesses of the clauses of DutyAndOrders. -/
theorem witness_duty_and_orders :
    (∃ (w : WalkIn) (pol : Nat), (let x := (if pol = 2 then -1 else 1) * w.iArm * 10; x > (w.iHyst : Int) * 65536)) ∧
    (∃ (w : WalkIn) (pol : Nat), (let x := (if pol = 2 then -1 else 1) * w.iArm * 10; x < -((w.iHyst : Int) *
      65536))) ∧
    (∃ (w : WalkIn) (pol : Nat), (let x := (if pol = 2 then -1 else 1) * w.iArm * 10; -((w.iHyst : Int) * 65536) ≤ x
      ∧ x ≤ (w.iHyst : Int) * 65536)) ∧
    (∃ (x : Walk), x.cells.Pairwise (fun u v => u.key ≤ v.key) ∧ x.cells.length ≤ 64 ∧ (∀ u ∈ x.cells, u.stale =
      false ∧ u.used = false)) :=
  ⟨⟨⟨10, 0, 1, 0, 0, 0, 0, 0, 6554, 1, true, 1⟩, 1, by decide⟩,
   ⟨⟨10, 0, 1, 0, 0, 0, 0, 0, 6554, 1, true, 1⟩, 2, by decide⟩,
   ⟨⟨10, 0, 1, 0, 0, 0, 0, 0, 6553, 1, true, 1⟩, 1, by decide⟩,
   ⟨⟨[⟨0, -3, 5, false, 0, 0, [], none, false⟩, ⟨1, 4, 5, false, 1, 1, [], none, false⟩], 1, 0, 0, 0, 0, 0, 0,
     false⟩, by decide⟩⟩

/-! ### Terms that WellFormed refuses, one for each check -/

theorem test_ill_payload : (Instr.attach 0 true true 512).wellFormed = false := by decide
theorem test_ill_offset : (Instr.registerWrite 0 0x2 0).wellFormed = false := by decide
theorem test_ill_window : (Instr.registerWrite 0 0x100000 0).wellFormed = false := by decide
theorem test_ill_record_length : (Instr.streamRecordDrop 0 0 24).wellFormed = false := by decide
theorem test_ill_cairn : (Instr.controlFrameRx 0 0 0 [] [] [] 0).wellFormed = false := by decide
theorem test_ill_entries : (Instr.controlFrameRx 0 0 0 (List.replicate 32 0) (List.replicate 32 0) [[0]] 0).wellFormed = false := by decide
theorem test_ill_echo : (Instr.echoRx 0 0 [1, 2] 0).wellFormed = false := by decide
theorem test_ill_blocks : (Instr.bulkLedgerRowRx 0 [1, 2, 3]).wellFormed = false := by decide
theorem test_ill_frame : (Instr.canFrameRx 0 (.station 0) ⟨2048, false, false, false, false, false, []⟩).wellFormed = false := by decide
theorem test_ill_announce : (Instr.ptpAnnounce ⟨256, 0, 0, 0, 0, 0, 0, 0⟩).wellFormed = false := by decide
theorem test_ill_fuses : (Instr.cellPowerOnReset 0 0 ⟨false, 256, 0, 0, none⟩ false true true).wellFormed = false := by decide
theorem test_ill_module : (Instr.moduleIdRead 0 0 (some ⟨[], [], [], 0, 0⟩)).wellFormed = false := by decide
theorem test_ill_break : (Instr.breakRx (.ridge 0 0) ⟨false, 16384, 0, 0, false⟩).wellFormed = false := by decide
theorem test_ill_channels : (Instr.safetyEvaluation 0 [] true true).wellFormed = false := by decide
theorem test_ill_pulses : (Instr.testPulse 0 false []).wellFormed = false := by decide
theorem test_well_formed : (Instr.attach 0 true true 256).wellFormed = true := by decide

/-! ### The worked examples of the specification -/

/-- R96: the CRC-16 of the ASCII string 123456789. -/
theorem test_crc_example : crc16 [0x31, 0x32, 0x33, 0x34, 0x35, 0x36, 0x37, 0x38, 0x39] = 0x29B1 := by decide

/-- R65, the worked example at 0x4010_624E on channel 0 (50 Hz), LATE_WINDOW = 2,000 ns. -/
theorem test_late_example :
    [0x40108000, 0x40100000, 0x400A0000, 0x40000000, 0xC0200000, 0xC0000000].map (fun d => lateAngle d 0x4010624E 14073749 2000) =
      [.schedule, .executeLate, .executeLate, .discard, .discard, .schedule] := by decide

/-- Volts in hundredths, in 2^-24 V. -/
def cv (x : Int) : Int := x * 2 ^ 24 / 100

/-- Chapter 05, R125: E_DEV of the four cells of the key example, V_SET = 1,400.00 V. -/
theorem test_key_example : [139820, 139150, 140500, 141200].map (fun v => energyDev (cv v) 28000) = [-36, -169, 100, 241] := by decide

/-- Chapter 05, worked example: the inputs of region 0 for frame m. -/
def exIn : WalkIn :=
  ⟨12500, 150, 1750, 102663680, 102816486, 102969292, 0, 2 ^ 60, 620 * 65536, 200, false, 700⟩

/-- Chapter 05, worked example: the head cells of region 0 at the end of frame m − 1. -/
def exWalk : Walk :=
  ⟨[⟨580, -116, cv 139660, false, 0, 0, [], none, false⟩, ⟨161, -49, cv 138990, false, 0, 0, [], none, false⟩,
    ⟨734, -20, cv 139200, false, 0, 0, [], none, false⟩, ⟨943, 20, cv 140340, false, 1, 1, [], none, false⟩,
    ⟨332, 241, cv 141040, false, 1, 1, [], none, false⟩], 1, 0, cv 40054000, 0, 0, 0, 0, false⟩

/-- One swap, 0.09.04 for 0.05.12, which leaves V_S = 400,526.2 V; 0.02.33 then heads the insertion order. -/
theorem test_swap_example :
    let x := exIn.swaps 80 exWalk 4
    x.2 = 1 ∧ x.1.vs = 40054000 * 2 ^ 24 / 100 - cv 141040 + cv 139660 ∧ (x.1.insertOrder 0).map (fun c => c.addr) = [161, 734] := by decide

/-- Its step is wanted at tick 2,002, where the reference reaches 401,221.15 V, and commanded at tick 1,852. -/
theorem test_step_example :
    exIn.vref 2001 < cv 40122115 * 12500 * 12500 ∧ cv 40122115 * 12500 * 12500 ≤ exIn.vref 2002 ∧ exIn.cmdTick 2002 = 1852 := by decide

/-- The belay windows of the example: below the band, inside it twice, and above it. -/
theorem test_belay_example :
    [cv 69830, cv 40121440, cv 40261210, cv 80000000].map (fun l => belayWindow l (cv 40000000) (cv 38000000) 0x10000000 150 14073749 1) =
      [(0x5001, 0x5000, 1), (0x1021, 0x8FDE, 1), (0x1047, 0x8FB8, 1), (0, 0, 0)] := by decide

/-- Without a command 0.11.30 enters 3,039.6 ns, 3,800 ticks, after the end of frame m. -/
theorem test_belay_run_example : belaySchedule (0x103D0A33 * 65536) 14073749 0x1047 0x8FB8 1 1000 12500 = (0, [(3800, 1)]) := by decide

/-- Chapter 06, worked example: a pack by H and SOC in %, COST, Q_REMAIN, record limit and BMS charge limit in 0.05 A. -/
def exPack (h soc : Int) (cost quota rc : Nat) (bms : Option Nat) : PolSt :=
  { PolSt.idle with
    admitted := true, health := h * 2 ^ 48 / 100, soc := soc * 2 ^ 48 / 100, cost := cost, quota := quota, recCh := rc, recDis := rc
    bms := bms.map (fun v => ⟨none, 0, some v, some v, none, 0, 0⟩) }

/-- I_LIM_CH of the four packs (R154): 152 A, 117 A, 85 A and 148 A. -/
theorem test_limits_example :
    [(exPack 90 45 1000 0xFFFFFFFF 3200 (some 30000), 400), (exPack 95 60 1200 0xFFFFFFFF 30000 (some 2400), 480),
      (exPack 70 30 800 0xFFFFFFFF 30000 (some 30000), 80), (exPack 85 52 1000 50000 3200 (some 30000), 448)].map
        (fun e => (e.1.setLimits CardPolicy.default 0 e.2 960).limCh) = [3040, 2340, 1700, 2960] := by decide

/-- Merit of the four packs in 1/1,000 at a mean SOC of 55 % (R159): 1.35, 0.675, 1.95 and 0.261. -/
theorem test_merit_example :
    [exPack 90 45 1000 0xFFFFFFFF 0 none, exPack 95 60 1200 0xFFFFFFFF 0 none, exPack 70 30 800 0xFFFFFFFF 0 none,
      exPack 85 52 1000 50000 0 none].map (fun x =>
        divRound (x.meritOf CardPolicy.default (55 * 2 ^ 48 / 100 - x.soc) * 1000) (2 ^ 48)) = [1350, 675, 1950, 261] := by decide

/-- Chapter 07, worked example: slot 16 with KP = 2.0 V/A and KI = 400 V/(A·s), returned to AUTO from MANUAL at 120.0 V. -/
def exSlot : SlotDef :=
  ⟨1, 0, fInt 2, fInt 400, fInt (-1000), fInt 1000, fInt (-1000), fInt 1000, 0, [], [], [], [], [], 0, true, 1, 4, 1, false, 0, 0, 1⟩

/-- REF 500 A at 10 µs, by FB. -/
def exRun (fb : Int) : SlotIn := ⟨fRat 1 100000, fInt fb, fInt 500, 0, 0, 0⟩

/-- The integrator presets to 112.000 V; the runs give 120.016 V and 118.028 V. -/
theorem test_bumpless_example :
    let x := { SlotSt.idle with mode := 2, out := fInt 120 }.enterAuto exSlot (exRun 496)
    let y := x.update exSlot (exRun 496)
    let z := y.update exSlot (exRun 497)
    [x.integ, y.out, z.out].map (fun v => fToInt v 1000 0 1000000) = [112000, 120016, 118028] := by decide

/-- Chapter 08, worked example: TRACE_W1 and TRACE_W2 of the END entry of HAND_4, INSTANCE 0x3E21. -/
theorem test_trace_example :
    ((tst []).chip.traceRow 0x0A4 3 0x06 15 5 true 0x3E21 3).sched.trace.map (fun r => (r.w1, r.w2)) = [(0xDF060CA4, 0x00033E21)] := by decide

/-- A phasor in 1/10,000. -/
def exRes (x y : Int) : CorrRes := ⟨0, 0, 0, 0, 0, 0, fRat x 10000, fRat y 10000, 20, 0, false, 0⟩

/-- Chapter 10, worked example: |Z| = 88.70 mΩ (in 0.01 mΩ). -/
theorem test_impedance_example : fToInt (impedance (exRes 2150 540) (exRes 24800 3100)).1 100000 0 1000000 = 8870 := by decide

/-- Chapter 10: RR25 = 1.370 and H = 0.630 (in 1/1,000, the ratio from below) at 30.0 °C and Z_BOL = 70.0 mΩ. -/
theorem test_health_example :
    let r := ({ PolSt.idle with zBol := 7000 } : PolSt).rr25 CardPolicy.default ⟨fRat 8870 100000, 480, 0⟩
    (divRound (r * 1000) (2 ^ 48), divRound (healthOf CardPolicy.default r * 1000) (2 ^ 48)) = (1370, 630) := by decide

end Sys2Proof.Tests
end

/-! # Reads that latch a snapshot (R5, R44)

Every snapshot lies at a fixed distance from its live field: a port's snapshot of a shared field in the port's own range, the
snapshot of a port's own field and that of a cell's field further up in the range that they live in. So one argument serves all
three: a group that fits below the distance is copied whole, and no copy falls on a field of the group that is still to be read. -/

namespace Sys2Proof.Machine

/-! ### Copying a group of fields by a distance -/

/-- The place at distance `d` above a field, 0 at reset. -/
def Fld.moved (f : Fld) (d : Nat) : Fld := ⟨f.key + d, f.width, 0⟩

theorem Fld.snap_eq_moved (f : Fld) (p : Nat) : f.snap p = f.moved ((1 + p) * 33554432) := rfl

theorem Fld.snapOwn_eq_moved (f : Fld) : f.snapOwn = f.moved (0x90000 * 32) := rfl

theorem Fld.cellSnap_eq_moved (f : Fld) : f.cellSnap = f.moved (0x400 * 32) := rfl

/-- Each field of a group is copied, in turn, to the place at distance `d` above it. -/
def Chip.copyAll (c : Chip) (d : Nat) (l : List Fld) : Chip := l.foldl (fun c f => c.wr (f.moved d) (c.rd f)) c

theorem Chip.latchAll_eq_copyAll (c : Chip) (p : Nat) (l : List Fld) : c.latchAll p l = c.copyAll ((1 + p) * 33554432) l := rfl

theorem Chip.latchOwnAll_eq_copyAll (c : Chip) (l : List Fld) : c.latchOwnAll l = c.copyAll (0x90000 * 32) l := rfl

/-- A group fits a distance: its keys rise from field to field, and they span less than the distance from `b` up. -/
structure FitsFrom (b d : Nat) (l : List Fld) : Prop where
  rises : l.Pairwise (fun f g => f.key < g.key)
  above : ∀ f ∈ l, b ≤ f.key
  below : ∀ f ∈ l, f.key < b + d

/-- Keys that rise from each field to the next rise throughout. -/
theorem pairwise_of_keysRise {l : List Fld} (h : keysRise (l.map (fun f => (f.key, f.width))) = true) :
    l.Pairwise (fun f g => f.key < g.key) := by
  induction l with
  | nil => exact .nil
  | cons f l ih =>
    rw [List.map_cons, keysRise_cons, Bool.and_eq_true] at h
    obtain ⟨habove, hrise⟩ := h
    simp only [Machine.above, List.all_map, List.all_eq_true, Function.comp_apply, decide_eq_true_eq] at habove
    exact .cons habove (ih hrise)

theorem FitsFrom.of_keysRise {b d : Nat} {l : List Fld} (rises : keysRise (l.map (fun f => (f.key, f.width))) = true)
    (above : ∀ f ∈ l, b ≤ f.key) (below : ∀ f ∈ l, f.key < b + d) : FitsFrom b d l :=
  ⟨pairwise_of_keysRise rises, above, below⟩

theorem FitsFrom.tail {b d : Nat} {f : Fld} {l : List Fld} (h : FitsFrom b d (f :: l)) : FitsFrom b d l :=
  ⟨h.rises.tail, fun g hg => h.above g (.tail _ hg), fun g hg => h.below g (.tail _ hg)⟩

/-- No copy of a group that fits falls on a field of the group's own stretch. -/
theorem FitsFrom.key_ne_moved {b d : Nat} {l : List Fld} (h : FitsFrom b d l) {f g : Fld} (hf : f.key < b + d) (hg : g ∈ l) :
    f.key ≠ (g.moved d).key :=
  Nat.ne_of_lt (Nat.lt_of_lt_of_le hf (Nat.add_le_add_right (h.above g hg) d))

/-- The first field of a group that fits lies below all the others. -/
theorem FitsFrom.head_lt {b d : Nat} {f g : Fld} {l : List Fld} (h : FitsFrom b d (f :: l)) (hg : g ∈ l) : f.key < g.key :=
  List.rel_of_pairwise_cons h.rises hg

theorem Chip.rd_copyAll_ne (c : Chip) {d : Nat} {l : List Fld} {f : Fld} (h : ∀ g ∈ l, f.key ≠ (g.moved d).key) :
    (c.copyAll d l).rd f = c.rd f :=
  Chip.rd_foldl _ l c f fun c g hg => c.rd_wr_ne (h g hg) (c.rd g)

/-- Copying a group that fits leaves the live fields of its stretch alone. -/
theorem Chip.rd_copyAll_live {b d : Nat} {l : List Fld} (h : FitsFrom b d l) (c : Chip) {f : Fld} (hf : f.key < b + d) :
    (c.copyAll d l).rd f = c.rd f :=
  c.rd_copyAll_ne fun _ hg => h.key_ne_moved hf hg

/-- A group that fits is copied whole, as it was before the first copy. -/
theorem Chip.rd_copyAll_mem {b d : Nat} {l : List Fld} (h : FitsFrom b d l) {f : Fld} (hf : f ∈ l) (c : Chip) :
    (c.copyAll d l).rd (f.moved d) = c.rd f % 2 ^ f.width := by
  induction l generalizing c with
  | nil => cases hf
  | cons g l ih =>
    show ((c.wr (g.moved d) (c.rd g)).copyAll d l).rd (f.moved d) = _
    rcases List.mem_cons.mp hf with rfl | hfl
    · have later : ∀ g ∈ l, (f.moved d).key ≠ (g.moved d).key := fun g hg =>
        Nat.ne_of_lt (Nat.add_lt_add_right (h.head_lt hg) d)
      rw [Chip.rd_copyAll_ne _ later]
      exact Chip.rd_wr_self ..
    · rw [ih h.tail hfl, Chip.rd_wr_ne _ (h.key_ne_moved (h.below f hf) (.head _))]

/-- The fields and values of a list are written in turn. -/
def Chip.wrAll (c : Chip) (l : List (Fld × Nat)) : Chip := l.foldl (fun c e => c.wr e.1 e.2) c

theorem Chip.rd_wrAll_ne (c : Chip) {l : List (Fld × Nat)} {f : Fld} (h : ∀ g ∈ l.map Prod.fst, f.key ≠ g.key) :
    (c.wrAll l).rd f = c.rd f :=
  Chip.rd_foldl _ l c f fun c e he => c.rd_wr_ne (h e.1 (List.mem_map_of_mem he)) e.2

/-- A list of writes to fields whose keys rise: each field holds what was written to it. -/
theorem Chip.rd_wrAll_mem {b d : Nat} {l : List (Fld × Nat)} (h : FitsFrom b d (l.map Prod.fst)) {f : Fld} {v : Nat}
    (he : (f, v) ∈ l) (c : Chip) : (c.wrAll l).rd f = v % 2 ^ f.width := by
  induction l generalizing c with
  | nil => cases he
  | cons e l ih =>
    show ((c.wr e.1 e.2).wrAll l).rd f = _
    rcases List.mem_cons.mp he with rfl | hel
    · rw [Chip.rd_wrAll_ne _ fun g hg => Nat.ne_of_lt (h.head_lt hg), Chip.rd_wr_self]
    · exact ih h.tail hel _

/-- A group that is shown and then copied: each copy holds what was shown. -/
theorem Chip.rd_shown_copied {b d : Nat} {l : List (Fld × Nat)} (h : FitsFrom b d (l.map Prod.fst)) {f : Fld} {v : Nat}
    (he : (f, v) ∈ l) (c : Chip) : ((c.wrAll l).copyAll d (l.map Prod.fst)).rd (f.moved d) = v % 2 ^ f.width := by
  rw [Chip.rd_copyAll_mem h (List.mem_map_of_mem he), Chip.rd_wrAll_mem h he, Nat.mod_mod]

/-- Copying touches the places of the copies, and nothing else. -/
theorem onlyFields_copyAll (s : State) (d : Nat) (l : List Fld) :
    OnlyFields (l.map (fun f => f.moved d)) s { s with chip := s.chip.copyAll d l } := by
  refine foldl_keeps (fun c => OnlyFields (l.map (fun f => f.moved d)) s { s with chip := c }) _ l s.chip (OnlyFields.refl _ s) ?_
  intro c f hf h
  exact h.wr (f.moved d) (c.rd f) (List.mem_map_of_mem hf)

/-- Copying a group touches register fields alone. -/
theorem Chip.copyAll_only (c : Chip) (d : Nat) (l : List Fld) : c.copyAll d l = { c with regs := (c.copyAll d l).regs } :=
  foldl_keeps (fun e : Chip => e = { c with regs := e.regs }) _ l c rfl fun e f _ h => by
    generalize e.rd f = v
    rw [h]
    rfl

/-- A command that copies a group that fits, and does nothing else. -/
theorem runs_copyAll {b d : Nat} {l : List Fld} {i : Instr} {s : State} (h : FitsFrom b d l)
    (hi : exec i s = .next { s with chip := s.chip.copyAll d l }) :
    Runs i s (fun t => (∀ f ∈ l, t.chip.rd (f.moved d) = s.chip.rd f % 2 ^ f.width) ∧
      OnlyFields (l.map (fun f => f.moved d)) s t) :=
  ⟨_, hi, fun _ hf => Chip.rd_copyAll_mem h hf s.chip, onlyFields_copyAll s d l⟩

/-! ### Reads that need OBSERVE (R377, R414) -/

theorem exec_observed {i : Instr} {s : State} {c : Chip} {p : Nat} {f : Chip → Chip}
    (ho : c.has p .observe = true) (hi : exec i s = .next { s with chip := c.observed p f }) :
    exec i s = .next { s with chip := f c } := by
  rw [hi, Chip.observed, if_pos ho]

theorem does_unobserved {i : Instr} {s : State} {p : Nat} {f : Chip → Chip} (ho : s.chip.has p .observe = false)
    (hi : exec i s = .next { s with chip := s.chip.observed p f }) : Does i s s.chip := by
  rw [Does, hi, Chip.observed, if_neg (by simp [ho])]

/-- The two ways in which a command asks for OBSERVE are one. -/
theorem Chip.unless_eq_observed (c : Chip) (p : Nat) (f : Chip → Chip) :
    (if c.has p .observe = false then c else f c) = c.observed p f := by
  cases h : c.has p .observe <;> simp [Chip.observed, h]

/-- The group of FIRST_MSG_LO. -/
def firstGroup : List Fld :=
  [Reg.Flt.FIRST_MSG_LO, Reg.Flt.FIRST_MSG_HI, Reg.Flt.FIRST_STAMP, Reg.Flt.FIRST_FRAME, Reg.Flt.FIRST_SEV, Reg.Flt.FIRST_VALID,
    Reg.Flt.FIRST_COMPANIONS]

theorem exec_firstMsgLoRead (p : PortIx) (s : State) :
    exec (.firstMsgLoRead p) s = .next { s with chip := s.chip.observed p fun c => c.latchAll p firstGroup } := by
  rw [← Chip.unless_eq_observed]
  rfl

/-- What a port reads of the log entry that LOG_SEL names (R345): its 16 bytes, none where the entry is not held. -/
def Chip.logBytes (c : Chip) (p : Nat) : List Nat :=
  let sel := c.rd (Reg.Flt.LOG_SEL p)
  let head := c.rd Reg.Flt.LOG_HEAD
  let e := if ringPlace head sel 16384 = 0 then c.faults.log[(signedDiff 32 head sel).toNat - 1]? else none
  (e.map LogEntry.bytes).getD []

/-- A field of the port's own is written and latched at once. -/
def Chip.putOwn (c : Chip) (f : Fld) (v : Nat) : Chip := (c.wr f v).latchOwn f

theorem Chip.rd_putOwn_self (c : Chip) (f : Fld) (v : Nat) : (c.putOwn f v).rd f = v % 2 ^ f.width := by
  have hne : f.key ≠ f.snapOwn.key := Nat.ne_of_lt (Nat.lt_add_of_pos_right (by decide))
  rw [Chip.putOwn, Chip.latchOwn, Chip.rd_wr_ne _ hne, Chip.rd_wr_self]

/-- LOG_W0 to LOG_W3 show the entry that LOG_SEL names. -/
def Chip.showLogWords (c : Chip) (p : Nat) : Chip :=
  let w := c.logBytes p
  (((c.putOwn (Reg.Flt.LOG_W0 p) (leAt w 0 4)).putOwn (Reg.Flt.LOG_W1 p) (leAt w 4 4)).putOwn (Reg.Flt.LOG_W2 p) (leAt w 8 4)).putOwn
    (Reg.Flt.LOG_W3 p) (leAt w 12 4)

theorem exec_logW0Read (p : PortIx) (s : State) :
    exec (.logW0Read p) s = .next { s with chip := s.chip.observed p (fun c =>
      (c.showLogWords p).putOwn (Reg.Flt.LOG_RESULT p) (ringPlace (c.rd Reg.Flt.LOG_HEAD) (c.rd (Reg.Flt.LOG_SEL p)) 16384)) } := by
  rw [← Chip.unless_eq_observed]
  rfl

/-! ### The groups fit -/

theorem ptpGroup_fits (p : Nat) : FitsFrom 0 ((1 + p) * 33554432) [Reg.Time.PTP_GM_ID_LO, Reg.Time.PTP_GM_ID_HI] := by
  apply FitsFrom.of_keysRise <;> simp [keysRise, Reg.Time.PTP_GM_ID_LO, Reg.Time.PTP_GM_ID_HI, fldS] <;> omega

theorem timeGroup_fits (p : Nat) : FitsFrom 0 ((1 + p) * 33554432) timeGroup := by
  apply FitsFrom.of_keysRise <;> simp [keysRise,
    timeGroup, Reg.Time.TIME_NS, Reg.Time.TIME_SEC_LO, Reg.Time.TIME_SEC_HI, Reg.Time.TIME_FRAC,
    Reg.Time.FRAME_NUM, fldS] <;> omega

theorem laneTestGroup_fits (p : Nat) (g : RopeIx) (e : EndIx) :
    FitsFrom 0 ((1 + p) * 33554432) [Reg.RLane.TEST_ERR_COUNT g e, Reg.RLane.TEST_BITS g e] := by
  apply FitsFrom.of_keysRise <;> simp [keysRise, Reg.RLane.TEST_ERR_COUNT, Reg.RLane.TEST_BITS, fldS] <;> omega

theorem armGroup_fits (p : Nat) (r : RegionIx) : FitsFrom 0 ((1 + p) * 33554432) (armGroup r) := by
  apply FitsFrom.of_keysRise <;> simp [keysRise,
    armGroup, Reg.RegLoop.REF_V0, Reg.RegLoop.REF_VH, Reg.RegLoop.REF_V1, Reg.RegLoop.I_ARM_PRED,
    Reg.RegLoop.BELAY_DC, Reg.RegLoop.BELAY_AC, Reg.RegLoop.BELAY_PHASE, Reg.RegLoop.BELAY_CH, Reg.RegLoop.DROP_PRED, fldS] <;> omega

theorem slotGroup_fits (p : Nat) (j : Fin 128) : FitsFrom 0 ((1 + p) * 33554432) (slotGroup j) := by
  apply FitsFrom.of_keysRise <;> simp [keysRise,
    slotGroup, Reg.Slot.OUT, Reg.Slot.INTEG, Reg.Slot.ERR, Reg.Slot.MODE, Reg.Slot.SAT, Reg.Slot.I_CLAMP,
    Reg.Slot.MISSED, Reg.Slot.FB_AGED, Reg.Slot.FB_LOST, Reg.Slot.FB_FROZEN, Reg.Slot.ON_ALT, Reg.Slot.XCHK, Reg.Slot.PRESET_CLAMPED,
    Reg.Slot.FB_AGE, fldS] <;> omega

theorem cellGroup_fits (p : Nat) (a : CellAddr) : FitsFrom 0 ((1 + p) * 33554432) (cellGroup a) := by
  apply FitsFrom.of_keysRise <;> simp [keysRise,
    cellGroup, Reg.Ct.CT_STATE, Reg.Ct.CT_ADM_STATE, Reg.Ct.CT_INSERTABLE, Reg.Ct.CT_INSERTED, Reg.Ct.CT_STALE,
    Reg.Ct.CT_FENCED, Reg.Ct.CT_LOCAL_HOLD, Reg.Ct.CT_SENSOR, Reg.Ct.CT_EPOCH, Reg.Ct.CT_V_CAP, Reg.Ct.CT_V_PACK, Reg.Ct.CT_I_PACK,
    Reg.Ct.CT_T_STAGE, Reg.Ct.CT_PACK_STATE, Reg.Ct.CT_AGE, Reg.Ct.CT_DERATE, Reg.Ct.CT_SOC, fldS] <;> omega

theorem firstGroup_fits (p : Nat) : FitsFrom 0 ((1 + p) * 33554432) firstGroup := by
  apply FitsFrom.of_keysRise <;> simp [keysRise,
    firstGroup, Reg.Flt.FIRST_MSG_LO, Reg.Flt.FIRST_MSG_HI, Reg.Flt.FIRST_STAMP, Reg.Flt.FIRST_FRAME,
    Reg.Flt.FIRST_SEV, Reg.Flt.FIRST_VALID, Reg.Flt.FIRST_COMPANIONS, fldS] <;> omega

theorem rankGroup_fits (p : Nat) (r : RegionIx) : FitsFrom ((1 + p) * 33554432) (0x90000 * 32) (rankGroup p r) := by
  apply FitsFrom.of_keysRise <;> simp [keysRise,
    rankGroup, Reg.RankProbe.PROBE_KEY, Reg.RankProbe.PROBE_E_DEV, Reg.RankProbe.PROBE_W, Reg.RankProbe.PROBE_PLACE,
    Reg.RankProbe.PROBE_RANKED, Reg.RankProbe.PROBE_INSERTED, Reg.RankProbe.PROBE_STALE, Reg.RankProbe.PROBE_AGE, fldP] <;> omega

theorem polGroup_fits (p : Nat) : FitsFrom ((1 + p) * 33554432) (0x90000 * 32) (polGroup p) := by
  apply FitsFrom.of_keysRise <;> simp [keysRise,
    polGroup, Reg.PolProbe.PR_SOC, Reg.PolProbe.PR_HEALTH, Reg.PolProbe.PR_I_BATT_REF, Reg.PolProbe.PR_W_TARGET,
    Reg.PolProbe.PR_I_LIM_CH, Reg.PolProbe.PR_I_LIM_DIS, Reg.PolProbe.PR_DERATE, Reg.PolProbe.PR_PACK_STATE, Reg.PolProbe.PR_MERIT,
    Reg.PolProbe.PR_Q_REMAIN, Reg.PolProbe.PR_COST, Reg.PolProbe.PR_RR, Reg.PolProbe.PR_HEALTH_AGE, fldP] <;> omega

/-! ### What a cell's low words latch (R5) -/

/-- The fields that a read of a low word of the cell at `a` latches. -/
def snapGroup (a addr : Nat) : List Fld := (snapOf addr).flatMap (fun w => (mgmtAt w).map (fun f => f.cell a))

theorem mem_snapGroup {a addr w : Nat} {f : RegField} (hw : w ∈ snapOf addr) (hf : f ∈ mgmtAt w) : f.cell a ∈ snapGroup a addr :=
  List.mem_flatMap.mpr ⟨w, hw, List.mem_map_of_mem hf⟩

/-- The place of a register field within its cell. -/
def RegField.offset (f : RegField) : Nat := f.addr * 32 + f.lo

theorem RegField.cell_key (f : RegField) (a : Nat) : (f.cell a).key = (8 + a) * 33554432 + f.offset := Nat.add_assoc ..

/-- In every cell the words that one low word latches rise in place, below the snapshots. -/
theorem snapOf_offsets_fit (addr : Nat) :
    ((snapOf addr).flatMap mgmtAt).Pairwise (fun f g => f.offset < g.offset) ∧
      ∀ f ∈ (snapOf addr).flatMap mgmtAt, f.offset < 0x400 * 32 := by
  unfold snapOf
  split <;> decide

theorem snapGroup_fits (a addr : Nat) : FitsFrom ((8 + a) * 33554432) (0x400 * 32) (snapGroup a addr) := by
  obtain ⟨rises, below⟩ := snapOf_offsets_fit addr
  have hmap : snapGroup a addr = ((snapOf addr).flatMap mgmtAt).map (fun f => f.cell a) := List.map_flatMap.symm
  rw [hmap]
  refine ⟨?_, ?_, ?_⟩
  · rw [List.pairwise_map]
    exact rises.imp fun h => by simpa only [RegField.cell_key] using Nat.add_lt_add_left h _
  · simp only [List.forall_mem_map, RegField.cell_key]
    exact fun f _ => Nat.le_add_right ..
  · simp only [List.forall_mem_map, RegField.cell_key]
    exact fun f hf => Nat.add_lt_add_left (below f hf) _

/-- What a read of a low word computes before it latches: the cell time and the buffer entry are brought up. -/
def Chip.freshen (c : Chip) (a addr : Nat) : Chip :=
  if addr = 0x10 then c.syncCellTime a else if addr = 0x60 then c.bufRead a else c

theorem Chip.cellSnapshot_chip (c : Chip) (a addr : Nat) :
    (c.cellSnapshot a addr).2.2 = (c.freshen a addr).copyAll (0x400 * 32) (snapGroup a addr) := by
  simp only [Chip.copyAll, snapGroup, List.foldl_flatMap, List.foldl_map]
  rfl

/-- A low word of a cell that computes nothing first: its read latches the words that it snapshots, and does nothing else. -/
theorem runs_cellSnapshot {i : Instr} {s : State} {a addr : Nat} (h10 : addr ≠ 0x10) (h60 : addr ≠ 0x60)
    (hi : exec i s = .next { s with chip := (s.chip.cellSnapshot a addr).2.2 }) :
    Runs i s (fun t => (∀ w ∈ snapOf addr, ∀ f ∈ mgmtAt w, t.chip.rd (f.cell a).cellSnap = s.chip.rd (f.cell a) % 2 ^ f.width) ∧
      OnlyFields ((snapOf addr).flatMap (fun w => (mgmtAt w).map (fun f => (f.cell a).cellSnap))) s t) := by
  rw [Chip.cellSnapshot_chip, Chip.freshen, if_neg h10, if_neg h60] at hi
  obtain ⟨t, ht, hcopy, honly⟩ := runs_copyAll (snapGroup_fits a addr) hi
  have hmap : (snapGroup a addr).map Fld.cellSnap = (snapOf addr).flatMap (fun w => (mgmtAt w).map (fun f => (f.cell a).cellSnap)) := by
    simp only [snapGroup, List.map_flatMap, List.map_map]
    rfl
  exact ⟨t, ht, fun w hw f hf => hcopy _ (mem_snapGroup hw hf), hmap ▸ honly⟩

theorem exec_cellTimeNsRead (a : CellAddr) (s : State) :
    exec (.cellTimeNsRead a) s = .next { s with chip := (s.chip.syncCellTime a).copyAll (0x400 * 32) (snapGroup a 0x10) } := by
  show Host.Outcome.next { s with chip := (s.chip.cellSnapshot a 0x10).2.2 } = _
  rw [Chip.cellSnapshot_chip]
  rfl

/-- What the time registers of the cell at `a` show. -/
def Chip.cellTimeShown (c : Chip) (a : Nat) : List (Fld × Nat) :=
  let ns := (c.ct a).time / 256
  [(Reg.CTime.CELL_TIME_NS a, ns % 1000000000), (Reg.CTime.CELL_TIME_SEC_LO a, ns / 1000000000),
    (Reg.CTime.CELL_TIME_SEC_HI a, ns / 1000000000 / 2 ^ 32)]

theorem Chip.syncCellTime_eq_wrAll (c : Chip) (a : Nat) : c.syncCellTime a = c.wrAll (c.cellTimeShown a) := rfl

theorem cellTimeShown_fits (c : Chip) (a : Nat) : FitsFrom ((8 + a) * 33554432) (0x400 * 32) ((c.cellTimeShown a).map Prod.fst) := by
  apply FitsFrom.of_keysRise <;> simp [keysRise,
    Chip.cellTimeShown, Reg.CTime.CELL_TIME_NS, Reg.CTime.CELL_TIME_SEC_LO, Reg.CTime.CELL_TIME_SEC_HI, fldC]

/-- The 30 bits of a nanosecond field hold every part of a second. -/
theorem nanos_mod_width (n : Nat) : n % 1000000000 % 2 ^ 30 = n % 1000000000 :=
  Nat.mod_eq_of_lt (Nat.lt_trans (Nat.mod_lt _ (by decide)) (by decide))

/-- A read of CELL_TIME_NS shows the present cell time and latches its seconds (R53). -/
theorem runs_cellTimeNsRead (a : CellAddr) (s : State) : Runs (.cellTimeNsRead a) s (fun t =>
    t.chip.rd (Reg.CTime.CELL_TIME_NS a) = (s.chip.ct a).time / 256 % 1000000000 ∧
    t.chip.rd (Reg.CTime.CELL_TIME_SEC_LO a).cellSnap = (s.chip.ct a).time / 256 / 1000000000 % 2 ^ 32 ∧
    t.chip.ctime = s.chip.ctime) := by
  have hshown := cellTimeShown_fits s.chip a
  have hsnap := snapGroup_fits a 0x10
  have hns : (Reg.CTime.CELL_TIME_NS a, (s.chip.ct a).time / 256 % 1000000000) ∈ s.chip.cellTimeShown a := by
    simp [Chip.cellTimeShown]
  have hsec : (Reg.CTime.CELL_TIME_SEC_LO a, (s.chip.ct a).time / 256 / 1000000000) ∈ s.chip.cellTimeShown a := by
    simp [Chip.cellTimeShown]
  have hlatched : Reg.CTime.CELL_TIME_SEC_LO a ∈ snapGroup a 0x10 :=
    mem_snapGroup (w := 0x11) (f := ⟨0x11, 0, 32, .rs, 0⟩) (by decide) (by decide)
  refine ⟨_, exec_cellTimeNsRead a s, ?_, ?_, ?_⟩
  · rw [Chip.rd_copyAll_live hsnap _ (hshown.below _ (List.mem_map_of_mem hns)), Chip.syncCellTime_eq_wrAll,
      Chip.rd_wrAll_mem hshown hns]
    exact nanos_mod_width _
  · rw [Fld.cellSnap_eq_moved, Chip.rd_copyAll_mem hsnap hlatched, Chip.syncCellTime_eq_wrAll, Chip.rd_wrAll_mem hshown hsec]
    exact Nat.mod_mod ..
  · rw [Chip.copyAll_only]; rfl

/-- A read of BUF_W0 answers word 0 of the entry that BUF_SEL names, and latches word 1 (R238). -/
theorem runs_bufW0Read (a : CellAddr) (s : State) :
    let e := mapGet (0, 0) (s.chip.meas1 a).buf (s.chip.rd (Reg.Adc.BUF_SEL a))
    Runs (.bufW0Read a) s (fun t => (t.chip.cmd a).data = e.1 ∧ t.chip.rd (Reg.Adc.BUF_W1 a).cellSnap = e.2 % 2 ^ 32 ∧
      t.chip.meas = s.chip.meas) := by
  refine ⟨_, rfl, ?_, ?_, rfl⟩
  · simp [Chip.answer]
  · show (s.chip.bufRead a).rd (Reg.Adc.BUF_W1 a).cellSnap = _
    simp only [Chip.bufRead, Chip.latchCell, Chip.rd_wr_self]
    exact Nat.mod_mod ..

/-! ### The probes show what they select (R251, R271, R327) -/

/-- What the admission probe of port `p` shows: the group of ADM_STATE. -/
def Chip.admShown (c : Chip) (p : Nat) : List (Fld × Nat) :=
  let x := c.posn (c.rd (Reg.Adm.ADM_CELL p))
  [(Reg.Adm.ADM_STATE p, x.admState), (Reg.Adm.ADM_FAILS p, satNat 4 x.fails), (Reg.Adm.ADM_REASON p, x.reason),
    (Reg.Adm.ADM_EPOCH p, x.epochRec), (Reg.Adm.ADM_UID_LO p, x.uid), (Reg.Adm.ADM_UID_HI p, x.uid / 2 ^ 32),
    (Reg.Adm.ADM_SINCE p, satNat 32 ((c.runNs - x.since) / 1000000))]

/-- What the pack probe of port `p` shows: the group of PP_PACK_STATE. -/
def Chip.packShown (c : Chip) (p : Nat) : List (Fld × Nat) :=
  let a := c.rd (Reg.Xchg.PACK_PROBE_CELL p)
  let x := c.xch a
  let secs := if x.state = 0 then 0 else satNat 32 ((c.runNs - x.at0) / 1000000000)
  [(Reg.Xchg.PP_PACK_STATE p, c.packState a), (Reg.Xchg.PP_XCHG_STATE p, x.state), (Reg.Xchg.PP_BMS_FLAGS p, x.flags),
    (Reg.Xchg.PP_UID_LO p, x.uid), (Reg.Xchg.PP_UID_HI p, x.uid / 2 ^ 32), (Reg.Xchg.PP_MAKER p, leAt x.packImg 12 2),
    (Reg.Xchg.PP_MODEL p, leAt x.packImg 14 2), (Reg.Xchg.PP_CHECKS p, x.checks), (Reg.Xchg.PP_XCHG_TIME p, secs)]

/-- The result that the impedance probe of port `p` names, if any. -/
def Chip.impResult (c : Chip) (p : Nat) : Option ImpRes :=
  findKey (8 * c.rd (Reg.Sweep.IMP_PROBE_CELL p) + c.rd (Reg.Sweep.IMP_PROBE_POINT p)) c.sweep.results

/-- What the impedance probe of port `p` shows of a result, or of none: the group of IMP_ABS. -/
def Chip.impShown (c : Chip) (p : Nat) : Option ImpRes → List (Fld × Nat)
  | some x => [(Reg.Sweep.IMP_ABS p, x.absZ), (Reg.Sweep.IMP_PHASE p, x.phase), (Reg.Sweep.IMP_FREQ p, x.freq),
      (Reg.Sweep.IMP_T p, x.temp), (Reg.Sweep.IMP_AGE p, satNat 16 ((c.runNs - x.at0) / 60000000000))]
  | none => [(Reg.Sweep.IMP_ABS p, 0), (Reg.Sweep.IMP_PHASE p, 0), (Reg.Sweep.IMP_FREQ p, 0), (Reg.Sweep.IMP_T p, 0),
      (Reg.Sweep.IMP_AGE p, 0xFFFF)]

theorem Chip.showImp_eq_wrAll (c : Chip) (p : Nat) : c.showImp p = c.wrAll (c.impShown p (c.impResult p)) := by
  unfold Chip.showImp Chip.impResult
  split <;> next h => rw [h]; rfl

theorem admShown_fits (c : Chip) (p : Nat) : FitsFrom ((1 + p) * 33554432) (0x90000 * 32) ((c.admShown p).map Prod.fst) := by
  apply FitsFrom.of_keysRise <;> simp [keysRise,
    Chip.admShown, Reg.Adm.ADM_STATE, Reg.Adm.ADM_FAILS, Reg.Adm.ADM_REASON, Reg.Adm.ADM_EPOCH, Reg.Adm.ADM_UID_LO,
    Reg.Adm.ADM_UID_HI, Reg.Adm.ADM_SINCE, fldP] <;> omega

theorem packShown_fits (c : Chip) (p : Nat) : FitsFrom ((1 + p) * 33554432) (0x90000 * 32) ((c.packShown p).map Prod.fst) := by
  apply FitsFrom.of_keysRise <;> simp [keysRise,
    Chip.packShown, Reg.Xchg.PP_PACK_STATE, Reg.Xchg.PP_XCHG_STATE, Reg.Xchg.PP_BMS_FLAGS, Reg.Xchg.PP_UID_LO,
    Reg.Xchg.PP_UID_HI, Reg.Xchg.PP_MAKER, Reg.Xchg.PP_MODEL, Reg.Xchg.PP_CHECKS, Reg.Xchg.PP_XCHG_TIME, fldP] <;> omega

theorem impShown_fits (c : Chip) (p : Nat) (o : Option ImpRes) :
    FitsFrom ((1 + p) * 33554432) (0x90000 * 32) ((c.impShown p o).map Prod.fst) := by
  cases o <;> apply FitsFrom.of_keysRise <;> simp [keysRise,
    Chip.impShown, Reg.Sweep.IMP_ABS, Reg.Sweep.IMP_PHASE, Reg.Sweep.IMP_FREQ, Reg.Sweep.IMP_T,
    Reg.Sweep.IMP_AGE, fldP] <;> omega

/-- The chip after a probe showed `l` and its group was latched. -/
def Chip.latchShown (c : Chip) (l : List (Fld × Nat)) : Chip := (c.wrAll l).copyAll (0x90000 * 32) (l.map Prod.fst)

theorem Chip.latchShown_only (c : Chip) (l : List (Fld × Nat)) : c.latchShown l = { c with regs := (c.latchShown l).regs } := by
  have hshow : c.wrAll l = { c with regs := (c.wrAll l).regs } :=
    foldl_keeps (fun e : Chip => e = { c with regs := e.regs }) _ l c rfl fun e x _ h => by rw [h]; rfl
  rw [Chip.latchShown, Chip.copyAll_only, hshow]

@[simp] theorem Chip.latchShown_pos (c : Chip) (l : List (Fld × Nat)) : (c.latchShown l).pos = c.pos := by rw [Chip.latchShown_only]

@[simp] theorem Chip.latchShown_xchs (c : Chip) (l : List (Fld × Nat)) : (c.latchShown l).xchs = c.xchs := by rw [Chip.latchShown_only]

theorem Chip.rd_latchShown {p : Nat} {l : List (Fld × Nat)} (h : FitsFrom ((1 + p) * 33554432) (0x90000 * 32) (l.map Prod.fst))
    {f : Fld} {v : Nat} (he : (f, v) ∈ l) (c : Chip) : (c.latchShown l).rd f.snapOwn = v % 2 ^ f.width := by
  rw [Fld.snapOwn_eq_moved]
  exact Chip.rd_shown_copied h he c

theorem exec_admStateRead (p : PortIx) (s : State) : exec (.admStateRead p) s =
    .next { s with chip := s.chip.observed p (fun c => c.latchShown (c.admShown p)) } := rfl

theorem exec_ppPackStateRead (p : PortIx) (s : State) : exec (.ppPackStateRead p) s =
    .next { s with chip := s.chip.observed p (fun c => c.latchShown (c.packShown p)) } := rfl

/-- Shown or not, the probe's fields are the same. -/
theorem Chip.impShown_fields (c : Chip) (p : Nat) (o : Option ImpRes) : (c.impShown p o).map Prod.fst =
    [Reg.Sweep.IMP_ABS p, Reg.Sweep.IMP_PHASE p, Reg.Sweep.IMP_FREQ p, Reg.Sweep.IMP_T p, Reg.Sweep.IMP_AGE p] := by
  cases o <;> rfl

theorem exec_impAbsRead (p : PortIx) (s : State) : exec (.impAbsRead p) s =
    .next { s with chip := s.chip.observed p (fun c => c.latchShown (c.impShown p (c.impResult p))) } := by
  simp only [Chip.latchShown, Chip.impShown_fields, ← Chip.showImp_eq_wrAll]
  rfl

theorem runs_admStateRead {p : PortIx} {s : State} (ho : s.chip.has p .observe = true) :
    let a := s.chip.rd (Reg.Adm.ADM_CELL p)
    Runs (.admStateRead p) s (fun t =>
      t.chip.rd (Reg.Adm.ADM_STATE p).snapOwn = (s.chip.posn a).admState % 2 ^ (Reg.Adm.ADM_STATE p).width ∧
      t.chip.rd (Reg.Adm.ADM_EPOCH p).snapOwn = (s.chip.posn a).epochRec % 2 ^ (Reg.Adm.ADM_EPOCH p).width ∧
      t.chip.pos = s.chip.pos) := by
  intro a
  have hfit := admShown_fits s.chip p
  have hstate : (Reg.Adm.ADM_STATE p, (s.chip.posn a).admState) ∈ s.chip.admShown p := by simp [Chip.admShown, a]
  have hepoch : (Reg.Adm.ADM_EPOCH p, (s.chip.posn a).epochRec) ∈ s.chip.admShown p := by simp [Chip.admShown, a]
  refine ⟨_, exec_observed ho (exec_admStateRead p s), ?_, ?_, ?_⟩
  · exact Chip.rd_latchShown hfit hstate s.chip
  · exact Chip.rd_latchShown hfit hepoch s.chip
  · rw [Chip.latchShown_pos]

theorem runs_ppPackStateRead {p : PortIx} {s : State} (ho : s.chip.has p .observe = true) :
    let a := s.chip.rd (Reg.Xchg.PACK_PROBE_CELL p)
    Runs (.ppPackStateRead p) s (fun t =>
      t.chip.rd (Reg.Xchg.PP_PACK_STATE p).snapOwn = s.chip.packState a % 2 ^ (Reg.Xchg.PP_PACK_STATE p).width ∧
      t.chip.rd (Reg.Xchg.PP_XCHG_STATE p).snapOwn = (s.chip.xch a).state % 2 ^ (Reg.Xchg.PP_XCHG_STATE p).width ∧
      t.chip.xchs = s.chip.xchs) := by
  intro a
  have hfit := packShown_fits s.chip p
  have hpack : (Reg.Xchg.PP_PACK_STATE p, s.chip.packState a) ∈ s.chip.packShown p := by simp [Chip.packShown, a]
  have hxchg : (Reg.Xchg.PP_XCHG_STATE p, (s.chip.xch a).state) ∈ s.chip.packShown p := by simp [Chip.packShown, a]
  refine ⟨_, exec_observed ho (exec_ppPackStateRead p s), ?_, ?_, ?_⟩
  · exact Chip.rd_latchShown hfit hpack s.chip
  · exact Chip.rd_latchShown hfit hxchg s.chip
  · rw [Chip.latchShown_xchs]

/-- The snapshot of the impedance probe holds what the probe shows of the result that it names. -/
theorem runs_impAbsRead {p : PortIx} {s : State} {o : Option ImpRes} (ho : s.chip.has p .observe = true)
    (hx : s.chip.impResult p = o) :
    Runs (.impAbsRead p) s (fun t => ∀ e ∈ s.chip.impShown p o, t.chip.rd e.1.snapOwn = e.2 % 2 ^ e.1.width) :=
  ⟨_, exec_observed ho (exec_impAbsRead p s), fun _ he => hx ▸ Chip.rd_latchShown (impShown_fits s.chip p _) (hx ▸ he) s.chip⟩

/-! ### The present instant, the fault log, and the die identity (R44, R345, R377) -/

/-- What the time registers show (R44). -/
def Chip.timeShown (c : Chip) : List (Fld × Nat) :=
  [(Reg.Time.TIME_NS, c.nowNs % 1000000000), (Reg.Time.TIME_SEC_LO, c.nowNs / 1000000000),
    (Reg.Time.TIME_SEC_HI, c.nowNs / 1000000000 / 2 ^ 32), (Reg.Time.TIME_FRAC, c.time.units % 2 ^ 40 / 2 ^ 24)]

theorem timeShown_fits (c : Chip) : FitsFrom 0 33554432 (c.timeShown.map Prod.fst) := by
  apply FitsFrom.of_keysRise <;> simp [keysRise,
    Chip.timeShown, Reg.Time.TIME_NS, Reg.Time.TIME_SEC_LO, Reg.Time.TIME_SEC_HI, Reg.Time.TIME_FRAC, fldS]

theorem Chip.rd_showTime {c : Chip} {f : Fld} {v : Nat} (h : (f, v) ∈ c.timeShown) : c.showTime.rd f = v % 2 ^ f.width :=
  Chip.rd_wrAll_mem (timeShown_fits c) h c

theorem Chip.rd_showTime_frameNum (c : Chip) : c.showTime.rd Reg.Time.FRAME_NUM = c.rd Reg.Time.FRAME_NUM :=
  c.rd_wrAll_ne (l := c.timeShown) (by simp [Chip.timeShown, Reg.Time.TIME_NS, Reg.Time.TIME_SEC_LO, Reg.Time.TIME_SEC_HI,
    Reg.Time.TIME_FRAC, Reg.Time.FRAME_NUM, fldS])

theorem exec_timeNsRead (dt : Nat) (p : PortIx) (s : State) : exec (.timeNsRead dt p) s =
    .next { s with chip := (s.chip.advance dt).observed p (fun c => c.showTime.latchAll p timeGroup) } := rfl

/-- TIME_NS latches the present instant. -/
theorem runs_timeNsRead {p : PortIx} {s : State} (ho : s.chip.has p .observe = true) (dt : Nat) :
    Runs (.timeNsRead dt p) s (fun t =>
      t.chip.rd (Reg.Time.TIME_NS.snap p) = (s.chip.advance dt).nowNs % 1000000000 ∧
      t.chip.rd (Reg.Time.TIME_SEC_LO.snap p) = (s.chip.advance dt).nowNs / 1000000000 % 2 ^ 32 ∧
      t.chip.rd (Reg.Time.FRAME_NUM.snap p) = s.chip.rd Reg.Time.FRAME_NUM % 2 ^ 32) := by
  have hlatch : ∀ f ∈ timeGroup, ((s.chip.advance dt).showTime.latchAll p timeGroup).rd (f.snap p) =
      (s.chip.advance dt).showTime.rd f % 2 ^ f.width := by
    intro f hf
    rw [Chip.latchAll_eq_copyAll, Fld.snap_eq_moved]
    exact Chip.rd_copyAll_mem (timeGroup_fits p) hf _
  have ho' : (s.chip.advance dt).has p .observe = true := ho
  refine ⟨_, exec_observed ho' (exec_timeNsRead dt p s), ?_, ?_, ?_⟩
  · rw [hlatch _ (by simp [timeGroup]), Chip.rd_showTime (.head _), Nat.mod_mod]
    exact nanos_mod_width _
  · rw [hlatch _ (by simp [timeGroup]), Chip.rd_showTime (.tail _ (.head _)), Nat.mod_mod]
    rfl
  · rw [hlatch _ (by simp [timeGroup]), Chip.rd_showTime_frameNum]
    rfl

/-- Port `p` latches the angle of channel `n` as it is now (R54). -/
def Chip.latchAngle (c : Chip) (p n : Nat) : Chip :=
  let a := c.angleAfter n c.sinceFrame
  (((c.wr ((Reg.Angle.ANGLE n).snap p) (a / 65536)).wr ((Reg.Angle.ANGLE_FRAC n).snap p) a).latch p (Reg.Angle.RATE n)).wr
    ((Reg.Angle.STAMP n).snap p) c.stamp

theorem exec_angleRead (dt : Nat) (p : PortIx) (n : ChanIx) (s : State) : exec (.angleRead dt p n) s =
    .next { s with chip := (s.chip.advance dt).observed p (fun c => c.latchAngle p n) } := rfl

/-- The group of ANGLE. -/
def angleGroup (n : Nat) : List Fld := [Reg.Angle.ANGLE n, Reg.Angle.ANGLE_FRAC n, Reg.Angle.RATE n, Reg.Angle.STAMP n]

theorem angleGroup_fits (p : Nat) (n : ChanIx) : FitsFrom 0 ((1 + p) * 33554432) (angleGroup n) := by
  apply FitsFrom.of_keysRise <;> simp [keysRise,
    angleGroup, Reg.Angle.ANGLE, Reg.Angle.ANGLE_FRAC, Reg.Angle.RATE, Reg.Angle.STAMP, fldS] <;> omega

/-- ANGLE latches the present instant and leaves the channel's own registers alone. -/
theorem runs_angleRead {p : PortIx} {s : State} (ho : s.chip.has p .observe = true) (dt : Nat) (n : ChanIx) :
    Runs (.angleRead dt p n) s (fun t =>
      t.chip.rd ((Reg.Angle.STAMP n).snap p) = (s.chip.advance dt).nowNs % 2 ^ 32 ∧
      t.chip.rd ((Reg.Angle.RATE n).snap p) = s.chip.rd (Reg.Angle.RATE n) % 2 ^ (Reg.Angle.RATE n).width ∧
      t.chip.rd (Reg.Angle.ANGLE n) = s.chip.rd (Reg.Angle.ANGLE n)) := by
  have hfit := angleGroup_fits p n
  have hlive : ∀ f ∈ angleGroup n, ∀ g ∈ angleGroup n, f.key ≠ (g.snap p).key := fun f hf g hg =>
    hfit.key_ne_moved (hfit.below f hf) hg
  have hsnaps : ((Reg.Angle.RATE n).snap p).key ≠ ((Reg.Angle.STAMP n).snap p).key := by
    simp only [Fld.snap, Reg.Angle.RATE, Reg.Angle.STAMP, fldS]
    omega
  have ho' : (s.chip.advance dt).has p .observe = true := ho
  refine ⟨_, exec_observed ho' (exec_angleRead dt p n s), ?_, ?_, ?_⟩
  · rw [Chip.latchAngle, Chip.rd_wr_self]
    exact Nat.mod_mod ..
  · rw [Chip.latchAngle, Chip.rd_wr_ne _ hsnaps, Chip.latch, Chip.rd_wr_self,
      Chip.rd_wr_ne _ (hlive _ (by simp [angleGroup]) _ (by simp [angleGroup])),
      Chip.rd_wr_ne _ (hlive _ (by simp [angleGroup]) _ (by simp [angleGroup]))]
    rfl
  · rw [Chip.latchAngle, Chip.latch]
    iterate 4 rw [Chip.rd_wr_ne _ (hlive _ (by simp [angleGroup]) _ (by simp [angleGroup]))]
    rfl

/-- A log entry is read by its sequence number, with a result that says whether it is held; the log stays as it is. -/
theorem runs_logW0Read {p : PortIx} {s : State} (ho : s.chip.has p .observe = true) :
    Runs (.logW0Read p) s (fun t => t.chip.rd (Reg.Flt.LOG_RESULT p) =
      ringPlace (s.chip.rd Reg.Flt.LOG_HEAD) (s.chip.rd (Reg.Flt.LOG_SEL p)) 16384 % 2 ^ (Reg.Flt.LOG_RESULT p).width ∧
      t.chip.faults = s.chip.faults) :=
  ⟨_, exec_observed ho (exec_logW0Read p s), Chip.rd_putOwn_self .., rfl⟩

theorem exec_dieUidLoRead (p : PortIx) (s : State) : exec (.dieUidLoRead p) s =
    .next { s with chip := if s.chip.rd (Reg.Port.PORT_STATE p) = 0 then s.chip
      else (s.chip.wr (dieUidLo.snap p) s.fuses.dieUid).wr (dieUidHi.snap p) (s.fuses.dieUid / 2 ^ 32) } := rfl

theorem runs_dieUidLoRead {p : PortIx} {s : State} (h : s.chip.rd (Reg.Port.PORT_STATE p) ≠ 0) :
    Runs (.dieUidLoRead p) s (fun t => t.chip.rd (dieUidLo.snap p) = s.fuses.dieUid % 2 ^ 32 ∧
      t.chip.rd (dieUidHi.snap p) = s.fuses.dieUid / 2 ^ 32 % 2 ^ 32) := by
  have hne : (dieUidLo.snap p).key ≠ (dieUidHi.snap p).key := by simp [Fld.snap, dieUidLo, dieUidHi, fldS]
  refine ⟨_, exec_dieUidLoRead p s, ?_⟩
  rw [if_neg h]
  refine ⟨?_, Chip.rd_wr_self ..⟩
  rw [Chip.rd_wr_ne _ hne, Chip.rd_wr_self]
  rfl

theorem does_dieUidLoRead_down {p : PortIx} {s : State} (h : s.chip.rd (Reg.Port.PORT_STATE p) = 0) :
    Does (.dieUidLoRead p) s s.chip := by
  rw [Does, exec_dieUidLoRead, if_pos h]

/-! ### Reads of a group as a whole -/

/-- A read by a port with OBSERVE copies a shared group into the port's snapshot and changes nothing else. -/
theorem runs_latchAll {p : PortIx} {s : State} {i : Instr} {l : List Fld} (ho : s.chip.has p .observe = true)
    (h : FitsFrom 0 ((1 + p) * 33554432) l) (hi : exec i s = .next { s with chip := s.chip.observed p (fun c => c.latchAll p l) }) :
    Runs i s (fun t => (∀ f ∈ l, t.chip.rd (f.snap p) = s.chip.rd f % 2 ^ f.width) ∧ OnlyFields (l.map (fun f => f.snap p)) s t) := by
  have hrun : exec i s = .next { s with chip := s.chip.latchAll p l } := exec_observed ho hi
  rw [Chip.latchAll_eq_copyAll] at hrun
  exact runs_copyAll h hrun

/-- A read by a port with OBSERVE copies a group of the port's own into its snapshot and changes nothing else. -/
theorem runs_latchOwnAll {p : PortIx} {s : State} {i : Instr} {l : List Fld} (ho : s.chip.has p .observe = true)
    (h : FitsFrom ((1 + p) * 33554432) (0x90000 * 32) l)
    (hi : exec i s = .next { s with chip := s.chip.observed p (fun c => c.latchOwnAll l) }) :
    Runs i s (fun t => (∀ f ∈ l, t.chip.rd f.snapOwn = s.chip.rd f % 2 ^ f.width) ∧ OnlyFields (l.map Fld.snapOwn) s t) := by
  have hrun : exec i s = .next { s with chip := s.chip.latchOwnAll l } := exec_observed ho hi
  rw [Chip.latchOwnAll_eq_copyAll] at hrun
  exact runs_copyAll h hrun

/-- Without OBSERVE none of the reads that need it changes anything. -/
theorem does_nothing_unobserved {p : PortIx} {s : State} (ho : s.chip.has p .observe = false) (r : RegionIx) (j : Fin 128)
    (a : CellAddr) :
    ∀ i ∈ [Instr.ptpGmIdLoRead p, .probeKeyRead p r, .refV0Read p r, .prSocRead p, .slotOutRead p j, .impAbsRead p, .admStateRead p,
      .ppPackStateRead p, .ctStateRead p a, .firstMsgLoRead p, .logW0Read p], Does i s s.chip := by
  simp only [List.forall_mem_cons, List.not_mem_nil, false_implies, implies_true, and_true]
  exact ⟨does_unobserved ho rfl, does_unobserved ho rfl, does_unobserved ho rfl, does_unobserved ho rfl, does_unobserved ho rfl,
    does_unobserved ho rfl, does_unobserved ho rfl, does_unobserved ho rfl, does_unobserved ho rfl,
    does_unobserved ho (exec_firstMsgLoRead p s), does_unobserved ho (exec_logW0Read p s)⟩

/-- The reads of a cell's low words that compute nothing first. -/
theorem runs_cellRead (a : CellAddr) (b : LaneIx) (p : PortIx) (k : Fin 4) (s : State) :
    ∀ x ∈ [(Instr.headLoRead a, 0xF1), (.bcIntegRead a, 0x9C), (.chargeWhLoRead a, 0xE1), (.corrReRead a k, 0x72 + 4 * k.val),
      (.testErrCountRead p (.cell a b), 0x37 + 16 * b.val)],
      Runs x.1 s (fun t => (∀ w ∈ snapOf x.2, ∀ f ∈ mgmtAt w, t.chip.rd (f.cell a).cellSnap = s.chip.rd (f.cell a) % 2 ^ f.width) ∧
        OnlyFields ((snapOf x.2).flatMap (fun w => (mgmtAt w).map (fun f => (f.cell a).cellSnap))) s t) := by
  simp only [List.forall_mem_cons, List.not_mem_nil, false_implies, implies_true, and_true]
  exact ⟨runs_cellSnapshot (by decide) (by decide) rfl, runs_cellSnapshot (by decide) (by decide) rfl,
    runs_cellSnapshot (by decide) (by decide) rfl, runs_cellSnapshot (by omega) (by omega) rfl,
    runs_cellSnapshot (by omega) (by omega) rfl⟩

/-! ### The obligation -/

/-- Settles O46: a group that is latched lies clear of its snapshots, so each read gives the group as it stood. -/
theorem snapshotReads : Obligations.SnapshotReads := by
  unfold Obligations.SnapshotReads
  refine ⟨⟨fun p s ho => ?_, fun p r j a s ho => does_nothing_unobserved ho r j a⟩, ⟨fun p s ho => ?_, ?_, ?_⟩,
    runs_cellRead, runs_cellTimeNsRead, runs_bufW0Read⟩
  · exact ⟨runs_latchAll ho (ptpGroup_fits p) rfl, fun g e => runs_latchAll ho (laneTestGroup_fits p g e) rfl,
      fun r => ⟨runs_latchOwnAll ho (rankGroup_fits p r) rfl, runs_latchAll ho (armGroup_fits p r) rfl⟩,
      runs_latchOwnAll ho (polGroup_fits p) rfl, fun j => runs_latchAll ho (slotGroup_fits p j) rfl,
      fun a => runs_latchAll ho (cellGroup_fits p a) rfl, runs_latchAll ho (firstGroup_fits p) (exec_firstMsgLoRead p s),
      runs_timeNsRead ho, runs_angleRead ho⟩
  · refine ⟨runs_admStateRead ho, runs_ppPackStateRead ho, fun x hx => ?_, fun hx => ?_, runs_logW0Read ho⟩
    · obtain ⟨t, ht, hshown⟩ := runs_impAbsRead ho hx
      exact ⟨t, ht, hshown (_, x.absZ) (.head _), hshown (_, x.freq) (.tail _ (.tail _ (.head _)))⟩
    · obtain ⟨t, ht, hshown⟩ := runs_impAbsRead ho hx
      exact ⟨t, ht, hshown (_, 0) (.head _), hshown (_, 0xFFFF) (.tail _ (.tail _ (.tail _ (.tail _ (.head _)))))⟩
  · exact fun p s => runs_dieUidLoRead
  · exact fun p s => does_dieUidLoRead_down

end Sys2Proof.Machine

/-! # The duty of a frame and its two orders (R130)

On at most 64 fresh cells that the walk has not used yet, both orders are plain filters of the ascending list: no stale cell is
moved (R123) and the head of R129 holds them all. The list is read forwards or backwards as the duty says. -/

namespace Sys2Proof.Machine

/-! ### The duty -/

/-- The arm current in the sense of the polarity, in 2^-16 of 0.1 A, the unit in which `WalkIn.duty` weighs it. -/
def WalkIn.signedCurrent (w : WalkIn) (pol : Nat) : Int := (if pol = 2 then -1 else 1) * w.iArm * 10

theorem WalkIn.duty_eq (w : WalkIn) (pol before : Nat) : w.duty pol before =
    if (w.iHyst : Int) * 65536 < w.signedCurrent pol then 0
    else if w.signedCurrent pol < -((w.iHyst : Int) * 65536) then 1 else before := by
  have hx : w.signedCurrent pol = (if pol = 2 then -w.iArm else w.iArm) * 10 := by
    unfold WalkIn.signedCurrent
    split <;> simp
  rw [hx]
  rfl

theorem WalkIn.duty_of_charging {w : WalkIn} {pol before : Nat} (h : (w.iHyst : Int) * 65536 < w.signedCurrent pol) :
    w.duty pol before = 0 := by
  rw [duty_eq, if_pos h]

theorem WalkIn.duty_of_discharging {w : WalkIn} {pol before : Nat} (h : w.signedCurrent pol < -((w.iHyst : Int) * 65536)) :
    w.duty pol before = 1 := by
  rw [duty_eq, if_neg (by omega), if_pos h]

theorem WalkIn.duty_of_within_hysteresis {w : WalkIn} {pol before : Nat} (hlow : -((w.iHyst : Int) * 65536) ≤ w.signedCurrent pol)
    (hhigh : w.signedCurrent pol ≤ (w.iHyst : Int) * 65536) : w.duty pol before = before := by
  rw [duty_eq, if_neg (Int.not_lt.mpr hhigh), if_neg (Int.not_lt.mpr hlow)]

/-! ### The orders of fresh cells -/

/-- Cells that fit one head as they stand: at most 64, all fresh, none used in this walk. -/
structure FreshHead (l : List WCell) : Prop where
  length_le : l.length ≤ 64
  fresh : ∀ u ∈ l, u.stale = false
  unused : ∀ u ∈ l, u.used = false

section FreshOrders

variable {l : List WCell}

theorem FreshHead.reverse (h : FreshHead l) : FreshHead l.reverse :=
  ⟨by simpa using h.length_le, by simpa using h.fresh, by simpa using h.unused⟩

theorem FreshHead.filter (h : FreshHead l) (p : WCell → Bool) : FreshHead (l.filter p) :=
  ⟨Nat.le_trans (List.length_filter_le p l) h.length_le, fun u hu => h.fresh u ((List.mem_filter.mp hu).1),
    fun u hu => h.unused u ((List.mem_filter.mp hu).1)⟩

theorem FreshHead.filter_unused (h : FreshHead l) (p : WCell → Bool) : l.filter (fun u => p u && !u.used) = l.filter p :=
  List.filter_congr fun u hu => by simp [h.unused u hu]

theorem FreshHead.filter_stale (h : FreshHead l) : l.filter (fun u => u.stale) = [] :=
  List.filter_eq_nil_iff.mpr fun u hu => by simp [h.fresh u hu]

theorem FreshHead.filter_not_stale (h : FreshHead l) : l.filter (fun u => !u.stale) = l :=
  List.filter_eq_self.mpr fun u hu => by simp [h.fresh u hu]

theorem FreshHead.staleLast (h : FreshHead l) : (l.filter (fun u => !u.stale) ++ l.filter (fun u => u.stale)).take 64 = l := by
  rw [h.filter_stale, h.filter_not_stale, List.append_nil, List.take_of_length_le h.length_le]

theorem FreshHead.staleFirst (h : FreshHead l) : (l.filter (fun u => u.stale) ++ l.filter (fun u => !u.stale)).take 64 = l := by
  rw [h.filter_stale, h.filter_not_stale, List.nil_append, List.take_of_length_le h.length_le]

variable {x : Walk}

theorem Walk.insertOrder_eq (h : FreshHead x.cells) (duty : Nat) : x.insertOrder duty =
    (if duty = 0 then x.cells else x.cells.reverse).filter (fun u => decide (u.cur = 0)) := by
  have hl : FreshHead (if duty = 0 then x.cells else x.cells.reverse) := by
    split
    · exact h
    · exact h.reverse
  simp only [Walk.insertOrder, hl.filter_unused (fun u => decide (u.cur = 0))]
  exact (hl.filter _).staleLast

theorem Walk.removeOrder_eq (h : FreshHead x.cells) (duty : Nat) : x.removeOrder duty =
    (if duty = 0 then x.cells.reverse else x.cells).filter (fun u => decide (u.cur = 1 ∨ u.cur = 2)) := by
  have hl : FreshHead (if duty = 0 then x.cells.reverse else x.cells) := by
    split
    · exact h.reverse
    · exact h
  simp only [Walk.removeOrder, hl.filter_unused (fun u => decide (u.cur = 1 ∨ u.cur = 2))]
  exact (hl.filter _).staleFirst

theorem Walk.insertOrder_discharge (h : FreshHead x.cells) : x.insertOrder 1 = (x.insertOrder 0).reverse := by
  simp [insertOrder_eq h]

theorem Walk.removeOrder_discharge (h : FreshHead x.cells) : x.removeOrder 1 = (x.removeOrder 0).reverse := by
  simp [removeOrder_eq h]

theorem Walk.mem_insertOrder_charge (h : FreshHead x.cells) (u : WCell) : u ∈ x.insertOrder 0 ↔ u ∈ x.cells ∧ u.cur = 0 := by
  simp [insertOrder_eq h]

theorem Walk.mem_removeOrder_charge (h : FreshHead x.cells) (u : WCell) :
    u ∈ x.removeOrder 0 ↔ u ∈ x.cells ∧ (u.cur = 1 ∨ u.cur = 2) := by
  simp [removeOrder_eq h]

theorem Walk.insertOrder_ascending (h : FreshHead x.cells) (hsorted : x.cells.Pairwise (fun u v => u.key ≤ v.key)) :
    (x.insertOrder 0).Pairwise (fun u v => u.key ≤ v.key) := by
  rw [insertOrder_eq h, if_pos rfl]
  exact hsorted.filter _

theorem Walk.removeOrder_descending (h : FreshHead x.cells) (hsorted : x.cells.Pairwise (fun u v => u.key ≤ v.key)) :
    (x.removeOrder 0).Pairwise (fun u v => v.key ≤ u.key) := by
  rw [removeOrder_eq h, if_pos rfl]
  exact (List.pairwise_reverse.mpr hsorted).filter _

end FreshOrders

/-! ### The obligation -/

/-- Settles O60: the duty by its three ranges of current, the orders as filters of the ascending list or of its reverse. -/
theorem dutyAndOrders : Obligations.DutyAndOrders := by
  unfold Obligations.DutyAndOrders
  refine ⟨fun w pol before => ⟨WalkIn.duty_of_charging, WalkIn.duty_of_discharging, WalkIn.duty_of_within_hysteresis⟩,
    fun x hsorted hlen hcells => ?_⟩
  have h : FreshHead x.cells := ⟨hlen, fun u hu => (hcells u hu).1, fun u hu => (hcells u hu).2⟩
  exact ⟨Walk.insertOrder_ascending h hsorted, Walk.insertOrder_discharge h, Walk.removeOrder_descending h hsorted,
    Walk.removeOrder_discharge h, Walk.mem_insertOrder_charge h, Walk.mem_removeOrder_charge h⟩

end Sys2Proof.Machine

/-! # The policy engine's ticks (R144, R145, R146)

A tick that ends does four things in turn: it takes its results over, acts on quotas and fences, publishes its figures in the
station's policy block, and shows them by region and by probe. What acts on quotas and fences leaves the bookkeeping of the ticks
alone (`KeepsTick`), and what shows lies outside the policy block, so each figure can be read off the publishing alone. -/

namespace Sys2Proof.Machine

/-! ### A tick starts or is abandoned -/

/-- A tick runs on what is latched now. -/
def Chip.startTick (c : Chip) : Chip := { c with policy := { c.policy with running := some c.computeTick } }

/-- Passing time changes neither the frame nor the running tick, so whether a tick starts can be seen before. -/
theorem exec_policyTick (dt : Nat) (s : State) : exec (.policyTick dt) s = s.run fun c =>
    if c.frame % c.tickFrames = 0 ∧ c.policy.running.isNone = true then (c.advance dt).startTick else c.advance dt := rfl

theorem runs_policyTick {dt : Nat} {s : State} (hframe : s.chip.frame % s.chip.tickFrames = 0)
    (hidle : s.chip.policy.running = none) :
    Runs (.policyTick dt) s (fun t => ∃ k, t.chip.policy.running = some k ∧ k.frame = s.chip.frame ∧
      k.frames = s.chip.policy.frames ∧ t.chip.regs = s.chip.regs ∧ t.chip.pols = s.chip.pols) := by
  refine runs_run _ _ _ _ (exec_policyTick dt s) ?_
  dsimp only
  rw [if_pos ⟨hframe, Option.isNone_iff_eq_none.mpr hidle⟩]
  exact ⟨_, rfl, rfl, rfl, rfl, rfl⟩

theorem does_policyTick_nothing {dt : Nat} {s : State}
    (h : s.chip.frame % s.chip.tickFrames ≠ 0 ∨ s.chip.policy.running ≠ none) :
    Does (.policyTick dt) s (s.chip.advance dt) := by
  have hnot : ¬(s.chip.frame % s.chip.tickFrames = 0 ∧ s.chip.policy.running.isNone = true) := by
    rintro ⟨hframe, hidle⟩
    exact h.elim (fun hne => hne hframe) (fun hne => hne (Option.isNone_iff_eq_none.mp hidle))
  rw [Does, exec_policyTick, State.run, if_neg hnot]

/-- The running tick is abandoned, flagged and counted (R146). -/
def Chip.abandonTick (c : Chip) : Chip :=
  ({ c with policy := { c.policy with running := none } }.set Reg.Pol.POLICY_LATE).inc Reg.Pol.POLICY_LATE_COUNT

theorem exec_policyTickTimeout (dt : Nat) (s : State) : exec (.policyTickTimeout dt) s = s.run fun c =>
    if c.policy.running.isSome then (c.advance dt).abandonTick.raise 4 c.planeIx 0x75 500 else c.advance dt := rfl

theorem runs_policyTickTimeout {dt : Nat} {k : Tick} {s : State} (hrun : s.chip.policy.running = some k)
    (hout : s.chip.recov.outputsBlocked = false) :
    Runs (.policyTickTimeout dt) s (fun t => t.chip.policy = { s.chip.policy with running := none } ∧ t.chip.pols = s.chip.pols ∧
      t.chip.rd Reg.Pol.POLICY_LATE = 1 ∧
      t.chip.rd Reg.Pol.POLICY_LATE_COUNT = (s.chip.rd Reg.Pol.POLICY_LATE_COUNT + 1) % 2 ^ (Reg.Pol.POLICY_LATE_COUNT).width ∧
      ∃ m, t.chip.faults.arrivals = s.chip.faults.arrivals ++ [m] ∧ m.level = 4 ∧ m.kind = 0x75 ∧ m.detail = 500) := by
  have hflag : Reg.Pol.POLICY_LATE.key ≠ Reg.Pol.POLICY_LATE_COUNT.key := by decide
  have harrives := Chip.raise_arrivals (s.chip.advance dt).abandonTick 4 s.chip.planeIx 0x75 500 (.inr hout)
  refine runs_run _ _ _ _ (exec_policyTickTimeout dt s) ?_
  dsimp only
  rw [if_pos (by rw [hrun]; rfl)]
  refine ⟨?_, ?_, ?_, ?_, _, harrives, rfl, rfl, rfl⟩
  · rw [Chip.raise, Chip.receive_only]; rfl
  · rw [Chip.raise, Chip.receive_only]; rfl
  · rw [Chip.rd_raise_ne _ _ _ _ _ (by decide), Chip.abandonTick, Chip.inc, Chip.add, Chip.rd_wr_ne _ hflag]
    exact Chip.rd_set_self _ _ rfl
  · rw [Chip.rd_raise_ne _ _ _ _ _ (by decide), Chip.abandonTick, Chip.rd_inc_self, Chip.set, Chip.rd_wr_ne _ hflag.symm]
    rfl

/-! ### What acts on quotas and fences leaves the ticks alone -/

/-- From `c` to `d` the bookkeeping of the ticks stays as it is, and no register changes but the fault count and the two flags
that quotas and held fences raise. -/
structure KeepsTick (c d : Chip) : Prop where
  running : d.policy.running = c.policy.running
  frames : d.policy.frames = c.policy.frames
  pendingOut : d.policy.pendingOut = c.policy.pendingOut
  rd : ∀ f : Fld, (∀ g ∈ [Reg.Flt.FAULT_COUNT, Reg.Pol.QUOTA_OUT, Reg.Pol.FENCE_HELD], f.key ≠ g.key) → d.rd f = c.rd f

theorem KeepsTick.refl (c : Chip) : KeepsTick c c := ⟨rfl, rfl, rfl, fun _ _ => rfl⟩

theorem KeepsTick.trans {c d e : Chip} (h : KeepsTick c d) (h' : KeepsTick d e) : KeepsTick c e :=
  ⟨h'.running.trans h.running, h'.frames.trans h.frames, h'.pendingOut.trans h.pendingOut,
    fun f hf => (h'.rd f hf).trans (h.rd f hf)⟩

theorem KeepsTick.foldl {α : Type} {g : Chip → α → Chip} (l : List α) (c : Chip) (h : ∀ c a, KeepsTick c (g c a)) :
    KeepsTick c (l.foldl g c) :=
  foldl_keeps (fun d => KeepsTick c d) g l c (.refl c) fun d a _ hd => hd.trans (h d a)

/-- Writing one of the three registers. -/
theorem KeepsTick.wr {c d : Chip} (h : KeepsTick c d) {g : Fld} (v : Nat)
    (hg : g ∈ [Reg.Flt.FAULT_COUNT, Reg.Pol.QUOTA_OUT, Reg.Pol.FENCE_HELD]) : KeepsTick c (d.wr g v) :=
  ⟨h.running, h.frames, h.pendingOut, fun f hf => (d.rd_wr_ne (hf g hg) v).trans (h.rd f hf)⟩

theorem KeepsTick.receive {c d : Chip} (h : KeepsTick c d) (m : Arrival) : KeepsTick c (d.receive m) := by
  have hpolicy : (d.receive m).policy = d.policy := by rw [Chip.receive_only]
  exact ⟨hpolicy ▸ h.running, hpolicy ▸ h.frames, hpolicy ▸ h.pendingOut,
    fun f hf => (d.rd_receive_ne m (hf _ (.head _))).trans (h.rd f hf)⟩

theorem KeepsTick.setPol {c d : Chip} (h : KeepsTick c d) (a : Nat) (x : PolSt) : KeepsTick c (d.setPol a x) :=
  ⟨h.running, h.frames, h.pendingOut, h.rd⟩

theorem KeepsTick.sendMgmt {c d : Chip} (h : KeepsTick c d) (op a reg data why : Nat) :
    KeepsTick c (d.sendMgmt op a reg data why) := ⟨h.running, h.frames, h.pendingOut, h.rd⟩

/-- The quota of a pack whose last Wh the tick has taken is flagged and reported. -/
def Chip.quotaStep (c : Chip) (e : Nat × (PolSt × PolSt)) : Chip :=
  if (c.pol e.1).quotaOut && !e.2.1.quotaOut && decide (e.2.1.quota ≠ 0) then (c.set Reg.Pol.QUOTA_OUT).raise 1 e.1 0x0E 0 else c

theorem Chip.quotaStep_keepsTick (c : Chip) (e : Nat × (PolSt × PolSt)) : KeepsTick c (c.quotaStep e) := by
  unfold Chip.quotaStep
  split
  · exact ((KeepsTick.refl c).wr 1 (by simp)).receive _
  · exact .refl c

/-- The pack at `a` may be fenced for a cause (R162, R164). -/
def Chip.mayFencePack (c : Chip) (a cause : Nat) : Bool :=
  (c.pol a).admitted && !(c.pol a).packFenced && !(c.pol a).isBarred c.card.policy c.runNs cause &&
    decide ((c.fencesIn (regionOf a)).1 < c.card.policy.fenceMax)

/-- The record of a fenced pack, the count of its region's fences and the reference of 0 in force (R162). -/
def Chip.markPackFenced (c : Chip) (a cause : Nat) : Chip :=
  let c1 := c.setPol a { c.pol a with packFenced := true, fenceCause := cause, iRef := 0, eligible := false }
  { c1 with policy := { c1.policy with
    fencedNow := mapSet (0, 0) c.policy.fencedNow (regionOf a) ((c.fencesIn (regionOf a)).1 + 1, (c.fencesIn (regionOf a)).2)
    inForce := mapSet (0, 0) c.policy.inForce a (0, (c.policyOut a).2) } }

theorem Chip.fencePack_eq (c : Chip) (a cause : Nat) : c.fencePack a cause =
    if c.mayFencePack a cause then ((c.markPackFenced a cause).sendMgmt 1 a 0xD1 128 7).raise 1 a 0x0D cause else c := rfl

theorem Chip.fencePack_keepsTick (c : Chip) (a cause : Nat) : KeepsTick c (c.fencePack a cause) := by
  rw [Chip.fencePack_eq]
  split
  · have hmark : KeepsTick c (c.markPackFenced a cause) := ⟨rfl, rfl, rfl, fun _ _ => rfl⟩
    exact (hmark.sendMgmt 1 a 0xD1 128 7).receive _
  · exact .refl c

/-- The pack of the position is fenced, if there is a cause. -/
def Chip.packFenceStep (c : Chip) (e : Nat × (PolSt × PolSt)) : Chip :=
  match (if (c.pol e.1).admitted then c.packCause e.1 else none) with
  | some k => c.fencePack e.1 k
  | none => c

theorem Chip.packFenceStep_keepsTick (c : Chip) (e : Nat × (PolSt × PolSt)) : KeepsTick c (c.packFenceStep e) := by
  unfold Chip.packFenceStep
  split
  · exact c.fencePack_keepsTick _ _
  · exact .refl c

/-- The record of a fenced cell and the count of its region's fences (R163). -/
def Chip.markCellFenced (c : Chip) (a : Nat) : Chip :=
  let c1 := c.setPol a { c.pol a with cellFenced := true, held := false }
  { c1 with policy := { c1.policy with
    fencedNow := mapSet (0, 0) c.policy.fencedNow (regionOf a) ((c.fencesIn (regionOf a)).1, (c.fencesIn (regionOf a)).2 + 1) } }

/-- The note that a fence of the cell is held is dropped. -/
def Chip.dropHeld (c : Chip) (a : Nat) : Chip := c.setPol a { c.pol a with held := false }

/-- The redundancy that the region of the cell at `a` has left without it (R22). -/
def Chip.redundancyWithout (c : Chip) (a : Nat) : Int :=
  c.rdI (Reg.RegionRed.REDUNDANCY (regionOf a)) - (if c.isInsertable a then 1 else 0)

theorem Chip.fenceCell_eq (c : Chip) (a : Nat) : c.fenceCell a =
    if (c.pol a).cellFenced || decide ((c.pol a).hotStage < 2) || decide ((c.posn a).state = 8) then
      if (c.pol a).held && decide ((c.posn a).state = 8) && !(c.dropHeld a).pols.any (fun e => e.2.held) then
        (c.dropHeld a).clr Reg.Pol.FENCE_HELD
      else c.dropHeld a
    else if (c.pol a).isBarred c.card.policy c.runNs 6 || decide (c.card.policy.fenceMax ≤ (c.fencesIn (regionOf a)).2) then c
    else if 0 ≤ c.redundancyWithout a then
      (c.markCellFenced a).raiseAt 1 a 0x0C (c.posn a).tStage 4
    else (c.setPol a { c.pol a with held := true, iRef := 0, wTarget := c.rd (Reg.Modp.W_MAX (regionOf a)) }).set Reg.Pol.FENCE_HELD :=
  rfl

theorem Chip.fenceCell_keepsTick (c : Chip) (a : Nat) : KeepsTick c (c.fenceCell a) := by
  have hset : ∀ x : PolSt, KeepsTick c (c.setPol a x) := (KeepsTick.refl c).setPol a
  rw [Chip.fenceCell_eq]
  split
  · split
    · exact (hset _).wr 0 (by simp)
    · exact hset _
  · split
    · exact .refl c
    · split
      · have hmark : KeepsTick c (c.markCellFenced a) := ⟨rfl, rfl, rfl, fun _ _ => rfl⟩
        exact hmark.receive _
      · exact (hset _).wr 1 (by simp)

/-- The cell of the position is fenced, if there is a cause; a sensor has no stage to fence. -/
def Chip.cellFenceStep (c : Chip) (e : Nat × (PolSt × PolSt)) : Chip := if c.isSensor e.1 then c else c.fenceCell e.1

theorem Chip.cellFenceStep_keepsTick (c : Chip) (e : Nat × (PolSt × PolSt)) : KeepsTick c (c.cellFenceStep e) := by
  unfold Chip.cellFenceStep
  split
  · exact .refl c
  · exact c.fenceCell_keepsTick _

/-- The tick's exhausted quotas and its fences, in ascending address. -/
def Chip.actOnPacks (c : Chip) (l : List (Nat × (PolSt × PolSt))) : Chip :=
  l.foldl Chip.cellFenceStep (l.foldl Chip.packFenceStep (l.foldl Chip.quotaStep c))

theorem Chip.actOnPacks_keepsTick (c : Chip) (l : List (Nat × (PolSt × PolSt))) : KeepsTick c (c.actOnPacks l) :=
  ((KeepsTick.foldl l _ Chip.quotaStep_keepsTick).trans (KeepsTick.foldl l _ Chip.packFenceStep_keepsTick)).trans
    (KeepsTick.foldl l _ Chip.cellFenceStep_keepsTick)

/-! ### The results are taken over -/

/-- Each pack takes its results over. -/
def Chip.takePacks (c : Chip) (l : List (Nat × (PolSt × PolSt))) : Chip :=
  l.foldl (fun c e => c.setPol e.1 (if e.2.1.admitted then mergePol (c.pol e.1) e.2.1 e.2.2
    else { c.pol e.1 with wTarget := e.2.2.wTarget })) c

theorem Chip.takePacks_only (c : Chip) (l : List (Nat × (PolSt × PolSt))) : c.takePacks l = { c with pols := (c.takePacks l).pols } :=
  foldl_keeps (fun d : Chip => d = { c with pols := d.pols }) _ l c rfl fun d e _ h => by
    generalize (if e.2.1.admitted then mergePol (d.pol e.1) e.2.1 e.2.2 else { d.pol e.1 with wTarget := e.2.2.wTarget }) = x
    rw [h]
    rfl

/-- The outputs of a tick by cell: I_BATT_REF and W_TARGET. -/
def Tick.outputs (t : Tick) : List (Nat × (Int × Int)) := t.packs.foldl (fun m e => mapSet (0, 0) m e.1 (e.2.2.iRef, e.2.2.wTarget)) []

/-- The tick is over: its packs have their results, its outputs wait for their frame, and the next tick counts from its latch. -/
def Chip.takeOver (c : Chip) (t : Tick) : Chip :=
  let c1 := c.takePacks t.packs
  { c1 with policy := { c1.policy with
    running := none, frames := c1.policy.frames - t.frames, measured := c1.policy.measured - t.measured, fencedNow := []
    pendingOut := some ((t.frame + c1.tickFrames / 2) % 2 ^ 32, t.outputs) } }

theorem Chip.takeOver_policy (c : Chip) (t : Tick) : (c.takeOver t).policy = { c.policy with
    running := none, frames := c.policy.frames - t.frames, measured := c.policy.measured - t.measured, fencedNow := []
    pendingOut := some ((t.frame + c.tickFrames / 2) % 2 ^ 32, t.outputs) } := by
  unfold Chip.takeOver
  rw [Chip.takePacks_only]
  rfl

theorem Chip.rd_takeOver (c : Chip) (t : Tick) (f : Fld) : (c.takeOver t).rd f = c.rd f := by
  unfold Chip.takeOver
  rw [Chip.takePacks_only]
  rfl

/-! ### The figures are published -/

/-- The figures of a completed tick, as the station's policy block shows them (R166). -/
def Chip.tickFigures (c : Chip) (t : Tick) (micros : Nat) : List (Fld × Nat) :=
  let n (f : PolSt → Bool) := ((t.packs.map (fun e => c.pol e.1)).filter f).length
  [(Reg.Pol.TICK_COUNT, c.rd Reg.Pol.TICK_COUNT + 1), (Reg.Pol.P_BATT_IN_USE, ofSigned 32 (kwOf t.order)),
    (Reg.Pol.P_BATT_ALLOC, ofSigned 32 (kwOf t.alloc)), (Reg.Pol.P_BATT_MEAS, ofSigned 32 (divRound t.measured (400000 * t.frames))),
    (Reg.Pol.P_BATT_SHORT, ofSigned 32 (kwOf t.short)), (Reg.Pol.TICK_TIME, micros),
    (Reg.Pol.DIRECTION, bit (decide (t.order < 0))), (Reg.Pol.PACKS_ELIGIBLE, n (fun x => x.eligible)),
    (Reg.Pol.PACKS_DERATED, n (fun x => x.admitted && decide (x.derate ≠ 0))), (Reg.Pol.PACKS_FENCED, n (fun x => x.packFenced)),
    (Reg.Pol.CELLS_FENCED, n (fun x => x.cellFenced))]

/-- The policy block of the station lies below the regions' blocks and the ports' own fields. -/
theorem tickFigures_fit (c : Chip) (t : Tick) (micros : Nat) : FitsFrom 0 (0x3224 * 32) ((c.tickFigures t micros).map Prod.fst) := by
  apply FitsFrom.of_keysRise <;> simp [keysRise, Chip.tickFigures, Reg.Pol.TICK_COUNT, Reg.Pol.P_BATT_IN_USE, Reg.Pol.P_BATT_ALLOC,
    Reg.Pol.P_BATT_MEAS, Reg.Pol.P_BATT_SHORT, Reg.Pol.TICK_TIME, Reg.Pol.DIRECTION, Reg.Pol.PACKS_ELIGIBLE, Reg.Pol.PACKS_DERATED,
    Reg.Pol.PACKS_FENCED, Reg.Pol.CELLS_FENCED, fldS]

/-- The figures, and SHORTFALL where the order could not be placed whole. -/
def Chip.publishTick (c : Chip) (t : Tick) (micros : Nat) : Chip :=
  if 0 < t.short then (c.wrAll (c.tickFigures t micros)).set Reg.Pol.SHORTFALL else c.wrAll (c.tickFigures t micros)

/-- Publishing touches registers alone. -/
theorem Chip.publishTick_policy (c : Chip) (t : Tick) (micros : Nat) : (c.publishTick t micros).policy = c.policy := by
  unfold Chip.publishTick
  split <;> rfl

theorem Chip.rd_publishTick_figure {c : Chip} {t : Tick} {micros v : Nat} {f : Fld} (h : (f, v) ∈ c.tickFigures t micros) :
    (c.publishTick t micros).rd f = v % 2 ^ f.width := by
  have hfit := tickFigures_fit c t micros
  have hne : f.key ≠ Reg.Pol.SHORTFALL.key :=
    Nat.ne_of_lt (Nat.lt_trans (hfit.below f (List.mem_map_of_mem h)) (by decide))
  unfold Chip.publishTick
  split
  · rw [Chip.set, Chip.rd_wr_ne _ hne, Chip.rd_wrAll_mem hfit h]
  · rw [Chip.rd_wrAll_mem hfit h]

theorem Chip.rd_publishTick_shortfall (c : Chip) {t : Tick} (micros : Nat) (h : 0 < t.short) :
    (c.publishTick t micros).rd Reg.Pol.SHORTFALL = 1 := by
  rw [Chip.publishTick, if_pos h]
  exact Chip.rd_set_self _ _ rfl

theorem Chip.rd_publishTick_no_shortfall (c : Chip) {t : Tick} (micros : Nat) (h : t.short ≤ 0) :
    (c.publishTick t micros).rd Reg.Pol.SHORTFALL = c.rd Reg.Pol.SHORTFALL := by
  rw [Chip.publishTick, if_neg (Int.not_lt.mpr h)]
  exact c.rd_wrAll_ne fun g hg =>
    Nat.ne_of_gt (Nat.lt_trans ((tickFigures_fit c t micros).below g hg) (by decide))

/-! ### Regions and probes show their own fields -/

/-- Every region shows its figures, and every port's probe the pack that it names. -/
def Chip.showTick (c : Chip) (t : Tick) : Chip :=
  [0, 1, 2, 3].foldl (fun c p => c.showPolProbe p) ((List.range 8).foldl (fun c r => c.showRegionPolicy t r) c)

theorem Chip.showRegionPolicy_policy (c : Chip) (t : Tick) (r : Nat) : (c.showRegionPolicy t r).policy = c.policy := rfl

theorem Chip.showPolProbe_policy (c : Chip) (p : Nat) : (c.showPolProbe p).policy = c.policy := rfl

theorem Chip.rd_showRegionPolicy_station (c : Chip) (t : Tick) (r : Nat) {f : Fld} (hf : f.key < 0x10000 * 32) :
    (c.showRegionPolicy t r).rd f = c.rd f := by
  have hne : ∀ off lo w : Nat, f.key ≠ (fldS (0x10000 + r * 0x2000 + off) lo w 0).key := fun off lo w => by
    simp only [fldS]
    omega
  iterate 9 refine (Chip.rd_wr_ne _ (hne _ _ _) _).trans ?_
  rfl

theorem Chip.rd_showPolProbe_station (c : Chip) (p : Nat) {f : Fld} (hf : f.key < 0x10000 * 32) :
    (c.showPolProbe p).rd f = c.rd f := by
  have hne : ∀ off lo w : Nat, f.key ≠ (fldP p off lo w 0).key := fun off lo w => by
    simp only [fldP]
    omega
  iterate 13 refine (Chip.rd_wr_ne _ (hne _ _ _) _).trans ?_
  rfl

theorem Chip.showTick_policy (c : Chip) (t : Tick) : (c.showTick t).policy = c.policy :=
  foldl_keeps (fun d : Chip => d.policy = c.policy) _ _ _
    (foldl_keeps (fun d : Chip => d.policy = c.policy) _ _ _ rfl fun d r _ h => (d.showRegionPolicy_policy t r).trans h)
    fun d p _ h => (d.showPolProbe_policy p).trans h

theorem Chip.rd_showTick_station (c : Chip) (t : Tick) {f : Fld} (hf : f.key < 0x10000 * 32) : (c.showTick t).rd f = c.rd f := by
  rw [Chip.showTick, Chip.rd_foldl _ _ _ f fun d p _ => d.rd_showPolProbe_station p hf,
    Chip.rd_foldl _ _ _ f fun d r _ => d.rd_showRegionPolicy_station t r hf]

/-! ### A tick completes -/

theorem Chip.finishTick_eq (c : Chip) (t : Tick) (micros : Nat) :
    c.finishTick t micros = (((c.takeOver t).actOnPacks t.packs).publishTick t micros).showTick t := rfl

/-- A hardware event touches the scheduler alone. -/
theorem Chip.hwEvent_policy (c : Chip) (code : Nat) : (c.hwEvent code).policy = c.policy := rfl

theorem Chip.rd_hwEvent (c : Chip) (code : Nat) (f : Fld) : (c.hwEvent code).rd f = c.rd f := rfl

/-- The tick's stages, and the hardware event of its completion (R145). -/
def Chip.completeTick (c : Chip) (t : Tick) (micros : Nat) : Chip := (c.finishTick t micros).hwEvent 0x41

theorem Chip.completeTick_policy (c : Chip) (t : Tick) (micros : Nat) : (c.completeTick t micros).policy.running = none ∧
    (c.completeTick t micros).policy.frames = c.policy.frames - t.frames ∧
    (c.completeTick t micros).policy.pendingOut = some ((t.frame + c.tickFrames / 2) % 2 ^ 32, t.outputs) := by
  have hkeep := (c.takeOver t).actOnPacks_keepsTick t.packs
  rw [Chip.completeTick, Chip.hwEvent_policy, Chip.finishTick_eq, Chip.showTick_policy, Chip.publishTick_policy, hkeep.running,
    hkeep.frames, hkeep.pendingOut, Chip.takeOver_policy]
  exact ⟨rfl, rfl, rfl⟩

/-- Neither taking over nor acting on quotas and fences touches a register but the three that `KeepsTick` names. -/
theorem Chip.rd_actOnPacks_takeOver (c : Chip) (t : Tick) {f : Fld}
    (hf : ∀ g ∈ [Reg.Flt.FAULT_COUNT, Reg.Pol.QUOTA_OUT, Reg.Pol.FENCE_HELD], f.key ≠ g.key) :
    ((c.takeOver t).actOnPacks t.packs).rd f = c.rd f := by
  rw [((c.takeOver t).actOnPacks_keepsTick t.packs).rd f hf, Chip.rd_takeOver]

/-- A field of the station below the regions' blocks is read after a tick as the tick's publishing left it. -/
theorem Chip.rd_completeTick_station (c : Chip) (t : Tick) (micros : Nat) {f : Fld} (hf : f.key < 0x10000 * 32) :
    (c.completeTick t micros).rd f = (((c.takeOver t).actOnPacks t.packs).publishTick t micros).rd f := by
  rw [Chip.completeTick, Chip.rd_hwEvent, Chip.finishTick_eq, Chip.rd_showTick_station _ t hf]

/-- A figure of a completed tick is read as it was published. -/
theorem Chip.rd_completeTick_figure {c : Chip} {t : Tick} {micros v : Nat} {f : Fld}
    (h : (f, v) ∈ ((c.takeOver t).actOnPacks t.packs).tickFigures t micros) :
    (c.completeTick t micros).rd f = v % 2 ^ f.width := by
  have hkey : f.key < 0x10000 * 32 :=
    Nat.lt_trans ((tickFigures_fit _ t micros).below f (List.mem_map_of_mem h)) (by decide)
  rw [Chip.rd_completeTick_station c t micros hkey, Chip.rd_publishTick_figure h]

theorem Chip.rd_completeTick_tickCount (c : Chip) (t : Tick) (micros : Nat) :
    (c.completeTick t micros).rd Reg.Pol.TICK_COUNT = (c.rd Reg.Pol.TICK_COUNT + 1) % 2 ^ (Reg.Pol.TICK_COUNT).width := by
  rw [← c.rd_actOnPacks_takeOver t (f := Reg.Pol.TICK_COUNT) (by decide)]
  exact Chip.rd_completeTick_figure (by simp [Chip.tickFigures])

theorem Chip.rd_completeTick_tickTime (c : Chip) (t : Tick) (micros : Nat) :
    (c.completeTick t micros).rd Reg.Pol.TICK_TIME = micros % 2 ^ (Reg.Pol.TICK_TIME).width :=
  Chip.rd_completeTick_figure (by simp [Chip.tickFigures])

theorem Chip.rd_completeTick_direction (c : Chip) (t : Tick) (micros : Nat) :
    (c.completeTick t micros).rd Reg.Pol.DIRECTION = bit (decide (t.order < 0)) := by
  have hbit : ∀ b : Bool, bit b % 2 ^ Reg.Pol.DIRECTION.width = bit b := by decide
  rw [← hbit]
  exact Chip.rd_completeTick_figure (by simp [Chip.tickFigures])

theorem Chip.rd_completeTick_order (c : Chip) (t : Tick) (micros : Nat) : (c.completeTick t micros).rd Reg.Pol.P_BATT_IN_USE =
    ofSigned (Reg.Pol.P_BATT_IN_USE).width (kwOf t.order) % 2 ^ (Reg.Pol.P_BATT_IN_USE).width :=
  Chip.rd_completeTick_figure (by simp [Chip.tickFigures, Reg.Pol.P_BATT_IN_USE, fldS])

theorem Chip.rd_completeTick_shortfall (c : Chip) {t : Tick} (micros : Nat) (h : 0 < t.short) :
    (c.completeTick t micros).rd Reg.Pol.SHORTFALL = 1 := by
  rw [Chip.rd_completeTick_station c t micros (by decide), Chip.rd_publishTick_shortfall _ micros h]

theorem Chip.rd_completeTick_no_shortfall (c : Chip) {t : Tick} (micros : Nat) (h : t.short ≤ 0) :
    (c.completeTick t micros).rd Reg.Pol.SHORTFALL = c.rd Reg.Pol.SHORTFALL := by
  rw [Chip.rd_completeTick_station c t micros (by decide), Chip.rd_publishTick_no_shortfall _ micros h,
    Chip.rd_actOnPacks_takeOver _ t (by decide)]

theorem exec_policyTickComplete {dt micros : Nat} {k : Tick} {s : State} (hrun : s.chip.policy.running = some k) :
    exec (.policyTickComplete dt micros) s = .next { s with chip := (s.chip.advance dt).completeTick k micros } := by
  have hadv : (s.chip.advance dt).policy.running = some k := hrun
  show execPolicyTickComplete dt micros s = _
  simp only [execPolicyTickComplete, State.run, hadv, Chip.completeTick]

theorem runs_policyTickComplete {dt micros : Nat} {k : Tick} {s : State} (hrun : s.chip.policy.running = some k) :
    Runs (.policyTickComplete dt micros) s (fun t => t.chip.policy.running = none ∧
      t.chip.policy.frames = s.chip.policy.frames - k.frames ∧
      t.chip.rd Reg.Pol.TICK_COUNT = (s.chip.rd Reg.Pol.TICK_COUNT + 1) % 2 ^ (Reg.Pol.TICK_COUNT).width ∧
      t.chip.rd Reg.Pol.TICK_TIME = micros % 2 ^ (Reg.Pol.TICK_TIME).width ∧
      t.chip.rd Reg.Pol.DIRECTION = bit (decide (k.order < 0)) ∧
      t.chip.rd Reg.Pol.P_BATT_IN_USE = ofSigned (Reg.Pol.P_BATT_IN_USE).width (kwOf k.order) % 2 ^ (Reg.Pol.P_BATT_IN_USE).width ∧
      (∃ out, t.chip.policy.pendingOut = some ((k.frame + s.chip.tickFrames / 2) % 2 ^ 32, out)) ∧
      (0 < k.short → t.chip.rd Reg.Pol.SHORTFALL = 1) ∧
      (k.short ≤ 0 → t.chip.rd Reg.Pol.SHORTFALL = s.chip.rd Reg.Pol.SHORTFALL)) := by
  obtain ⟨hrunning, hframes, hpending⟩ := (s.chip.advance dt).completeTick_policy k micros
  exact ⟨_, exec_policyTickComplete hrun, hrunning, hframes, Chip.rd_completeTick_tickCount .., Chip.rd_completeTick_tickTime ..,
    Chip.rd_completeTick_direction .., Chip.rd_completeTick_order .., ⟨_, hpending⟩, Chip.rd_completeTick_shortfall _ micros,
    Chip.rd_completeTick_no_shortfall _ micros⟩

/-! ### The obligation -/

/-- Settles O12: a tick starts, is abandoned, or completes, and what it publishes is read off the stage that writes it. -/
theorem policyTicks : Obligations.PolicyTicks := by
  unfold Obligations.PolicyTicks
  exact ⟨fun _ _ => runs_policyTick, fun _ _ => does_policyTick_nothing, fun _ _ _ _ => runs_policyTickComplete,
    fun _ _ _ => runs_policyTickTimeout⟩

end Sys2Proof.Machine

/-! # What the policy engine fences, refuses and counts (R150, R151, R156, R162, R164)

A pack fence is three acts on parts of the chip that do not meet: the pack's record with its region's count, an order in the rope's
management queue, and a fault. So what each act leaves is read past the others. -/

namespace Sys2Proof.Machine

/-! ### The acts of a pack fence -/

/-- A management order touches the ropes alone. -/
theorem Chip.sendMgmt_only (c : Chip) (op a reg data why : Nat) :
    c.sendMgmt op a reg data why = { c with ropes := (c.sendMgmt op a reg data why).ropes } := rfl

theorem Chip.sendMgmt_queues (c : Chip) (op a reg data why : Nat) :
    ∃ q, ((c.sendMgmt op a reg data why).rope (a / 64)).mgmtOut = (c.rope (a / 64)).mgmtOut ++ [q] ∧
      q.addr = a ∧ q.reg = reg ∧ q.data = data % 2 ^ 32 := by
  simp [Chip.sendMgmt, Chip.sendEpoch]

/-- A fault touches the arrivals and FAULT_COUNT, and nothing else. -/
theorem Chip.raise_only (c : Chip) (level source kind detail : Nat) : c.raise level source kind detail =
    { c with regs := (c.raise level source kind detail).regs,
             faults := { c.faults with arrivals := (c.raise level source kind detail).faults.arrivals } } :=
  c.receive_only _

theorem Chip.markPackFenced_pol (c : Chip) (a cause : Nat) : (c.markPackFenced a cause).pol a =
    { c.pol a with packFenced := true, fenceCause := cause, iRef := 0, eligible := false } :=
  Chip.setPol_pol_self ..

theorem Chip.markPackFenced_fencesIn (c : Chip) (a cause : Nat) :
    (c.markPackFenced a cause).fencesIn (regionOf a) = ((c.fencesIn (regionOf a)).1 + 1, (c.fencesIn (regionOf a)).2) := by
  simp [Chip.markPackFenced, Chip.fencesIn]

section PackFence

variable {c : Chip} {a cause : Nat}

theorem Chip.fencePack_of_may (h : c.mayFencePack a cause = true) :
    c.fencePack a cause = ((c.markPackFenced a cause).sendMgmt 1 a 0xD1 128 7).raise 1 a 0x0D cause := by
  rw [Chip.fencePack_eq, if_pos h]

/-- The pack's record and its region's count are those of the mark. -/
theorem Chip.fencePack_policy (h : c.mayFencePack a cause = true) :
    (c.fencePack a cause).pol a = { c.pol a with packFenced := true, fenceCause := cause, iRef := 0, eligible := false } ∧
    ((c.fencePack a cause).fencesIn (regionOf a)).1 = (c.fencesIn (regionOf a)).1 + 1 := by
  rw [Chip.fencePack_of_may h, Chip.raise_only, Chip.sendMgmt_only]
  exact ⟨c.markPackFenced_pol a cause, congrArg Prod.fst (c.markPackFenced_fencesIn a cause)⟩

/-- PACK_FENCE goes out to the cell of the pack. -/
theorem Chip.fencePack_orders (h : c.mayFencePack a cause = true) :
    ∃ q, ((c.fencePack a cause).rope (a / 64)).mgmtOut = (c.rope (a / 64)).mgmtOut ++ [q] ∧
      q.addr = a ∧ q.reg = 0xD1 ∧ q.data = 128 := by
  rw [Chip.fencePack_of_may h, Chip.raise_only]
  exact (c.markPackFenced a cause).sendMgmt_queues 1 a 0xD1 128 7

/-- The fault names the pack and the cause. -/
theorem Chip.fencePack_arrivals (h : c.mayFencePack a cause = true) :
    ∃ m, (c.fencePack a cause).faults.arrivals = c.faults.arrivals ++ [m] ∧
      m.level = 1 ∧ m.source = a ∧ m.kind = 0x0D ∧ m.detail = cause % 2 ^ 32 := by
  rw [Chip.fencePack_of_may h]
  exact ⟨_, Chip.raise_arrivals _ _ _ _ _ (.inl (by decide)), rfl, rfl, rfl, rfl⟩

end PackFence

/-! ### The states of charge disagree (R150) -/

theorem exec_socDisagreeTimeout (a : CellAddr) (s : State) : exec (.socDisagreeTimeout a) s = s.run fun c =>
    if c.card.policy.socDisagreeTime * 1000000000 ≤ (c.pol a).disagree then c.fencePack a 4 else c := rfl

theorem runs_socDisagreeTimeout {a : CellAddr} {s : State}
    (hlong : s.chip.card.policy.socDisagreeTime * 1000000000 ≤ (s.chip.pol a).disagree) (hadm : (s.chip.pol a).admitted = true)
    (hfree : (s.chip.pol a).packFenced = false) (hbar : (s.chip.pol a).isBarred s.chip.card.policy s.chip.runNs 4 = false)
    (hmax : (s.chip.fencesIn (regionOf a)).1 < s.chip.card.policy.fenceMax) :
    Runs (.socDisagreeTimeout a) s (fun t => (t.chip.pol a).packFenced = true ∧ (t.chip.pol a).fenceCause = 4 ∧ (t.chip.pol a).iRef = 0 ∧
      (t.chip.fencesIn (regionOf a)).1 = (s.chip.fencesIn (regionOf a)).1 + 1 ∧
      (∃ q, (t.chip.rope (a.val / 64)).mgmtOut = (s.chip.rope (a.val / 64)).mgmtOut ++ [q] ∧ q.addr = a.val ∧ q.reg = 0xD1 ∧
        q.data = 128) ∧
      ∃ m, t.chip.faults.arrivals = s.chip.faults.arrivals ++ [m] ∧ m.level = 1 ∧ m.source = a.val ∧ m.kind = 0x0D ∧ m.detail = 4) := by
  have hmay : s.chip.mayFencePack a 4 = true := by simp [Chip.mayFencePack, hadm, hfree, hbar, hmax]
  obtain ⟨hpol, hcount⟩ := Chip.fencePack_policy hmay
  refine runs_run _ _ _ _ (exec_socDisagreeTimeout a s) ?_
  dsimp only
  rw [if_pos hlong, hpol]
  exact ⟨rfl, rfl, rfl, hcount, Chip.fencePack_orders hmay, Chip.fencePack_arrivals hmay⟩

theorem does_socDisagreeTimeout_nothing {a : CellAddr} {s : State}
    (hshort : (s.chip.pol a).disagree < s.chip.card.policy.socDisagreeTime * 1000000000) : Does (.socDisagreeTimeout a) s s.chip := by
  rw [Does, exec_socDisagreeTimeout, State.run, if_neg (Nat.not_le.mpr hshort)]

/-! ### Health grows old, and a bar ends (R151, R164) -/

theorem exec_healthMaxAgeExpiry (a : CellAddr) (s : State) : exec (.healthMaxAgeExpiry a) s = s.run fun c =>
    if (c.pol a).admitted = true ∧ (c.pol a).healthFrom + c.card.policy.healthMaxAge * 1000000000 ≤ c.runNs then
      c.setPol a { c.pol a with healthStale := true, derate := (c.pol a).derate % 128 + 128 }
    else c := rfl

theorem runs_healthMaxAgeExpiry {a : CellAddr} {s : State} (hadm : (s.chip.pol a).admitted = true)
    (hold : (s.chip.pol a).healthFrom + s.chip.card.policy.healthMaxAge * 1000000000 ≤ s.chip.runNs) :
    Runs (.healthMaxAgeExpiry a) s (fun t => (t.chip.pol a).healthStale = true ∧ bits (t.chip.pol a).derate 7 1 = 1 ∧
      (t.chip.pol a).derate % 128 = (s.chip.pol a).derate % 128 ∧ t.chip.regs = s.chip.regs) := by
  refine runs_run _ _ _ _ (exec_healthMaxAgeExpiry a s) ?_
  dsimp only
  rw [if_pos ⟨hadm, hold⟩, Chip.setPol_pol_self]
  refine ⟨rfl, ?_, ?_, rfl⟩
  · simp only [bits]
    omega
  · dsimp only
    omega

theorem exec_policyUnfenceHoldEnd (a : CellAddr) (k : Fin 7) (s : State) : exec (.policyUnfenceHoldEnd a k) s = s.run fun c =>
    c.setPol a { c.pol a with barred := (c.pol a).barred.filter (fun e =>
      !(decide (e.1 = k.val) && decide (e.2 + c.card.policy.unfenceHold * 1000000000 ≤ c.runNs))) } := rfl

theorem runs_policyUnfenceHoldEnd (a : CellAddr) (k : Fin 7) (s : State) :
    Runs (.policyUnfenceHoldEnd a k) s (fun t => t.chip.regs = s.chip.regs ∧
      ∀ e, e ∈ (t.chip.pol a).barred ↔ e ∈ (s.chip.pol a).barred ∧
        ¬(e.1 = k.val ∧ e.2 + s.chip.card.policy.unfenceHold * 1000000000 ≤ s.chip.runNs)) := by
  refine runs_run _ _ _ _ (exec_policyUnfenceHoldEnd a k s) ?_
  dsimp only
  rw [Chip.setPol_pol_self]
  exact ⟨rfl, fun e => by simp only [List.mem_filter, Bool.not_eq_true', ← Bool.decide_and, decide_eq_false_iff_not]⟩

/-! ### Lease terms (R155, R156) -/

/-- The quota that the lease registers of port `p` give a pack: theirs, or theirs added to what it has. -/
def Chip.leaseQuota (c : Chip) (p a : Nat) : Nat :=
  if c.on (Reg.Lease.LEASE_MODE p) then
    (if (c.pol a).quota = 0xFFFFFFFF ∨ c.rd (Reg.Lease.LEASE_QUOTA p) = 0xFFFFFFFF then 0xFFFFFFFF
      else min ((c.pol a).quota + c.rd (Reg.Lease.LEASE_QUOTA p)) 0xFFFFFFFE)
  else c.rd (Reg.Lease.LEASE_QUOTA p)

/-- The pack at `a` takes the terms that the lease registers of port `p` give, and the port is told. -/
def Chip.applyLease (c : Chip) (p a : Nat) : Chip :=
  (c.setPol a { c.pol a with cost := c.rd (Reg.Lease.LEASE_COST p), quota := c.leaseQuota p a, quotaOut := false }).wr
    (Reg.Lease.LEASE_RESULT p) 1

theorem Chip.applyLease_pol (c : Chip) (p a : Nat) : (c.applyLease p a).pol a =
    { c.pol a with cost := c.rd (Reg.Lease.LEASE_COST p), quota := c.leaseQuota p a, quotaOut := false } :=
  Chip.setPol_pol_self ..

theorem Chip.leaseQuota_replaces {c : Chip} {p : Nat} (h : c.rd (Reg.Lease.LEASE_MODE p) = 0) (a : Nat) :
    c.leaseQuota p a = c.rd (Reg.Lease.LEASE_QUOTA p) := by
  simp [Chip.leaseQuota, Chip.on, h]

theorem Chip.leaseQuota_adds {c : Chip} {p a : Nat} (h : c.rd (Reg.Lease.LEASE_MODE p) = 1) (hq : (c.pol a).quota ≠ 0xFFFFFFFF)
    (hl : c.rd (Reg.Lease.LEASE_QUOTA p) ≠ 0xFFFFFFFF) :
    c.leaseQuota p a = min ((c.pol a).quota + c.rd (Reg.Lease.LEASE_QUOTA p)) 0xFFFFFFFE := by
  simp [Chip.leaseQuota, Chip.on, h, hq, hl]

section Lease

variable {p : PortIx} {uid : Nat} {s : State}

theorem exec_leaseGo_applies (hp : s.chip.has p .ledger = true)
    (hx : (s.chip.xch (s.chip.rd (Reg.Lease.LEASE_CELL p))).admitted = some uid)
    (hadm : (s.chip.pol (s.chip.rd (Reg.Lease.LEASE_CELL p))).admitted = true)
    (huid : uid % 2 ^ 32 = s.chip.rd (Reg.Lease.LEASE_UID p)) :
    exec (.leaseGo p) s = .next { s with chip := s.chip.applyLease p (s.chip.rd (Reg.Lease.LEASE_CELL p)) } := by
  show execLeaseGo p s = _
  simp only [execLeaseGo, State.run, hp, Bool.true_eq_false, if_false, hx]
  rw [if_pos ⟨hadm, huid⟩]
  rfl

theorem exec_leaseGo_mismatch (hp : s.chip.has p .ledger = true)
    (hx : (s.chip.xch (s.chip.rd (Reg.Lease.LEASE_CELL p))).admitted = some uid)
    (huid : uid % 2 ^ 32 ≠ s.chip.rd (Reg.Lease.LEASE_UID p)) :
    exec (.leaseGo p) s = .next { s with chip := s.chip.wr (Reg.Lease.LEASE_RESULT p) 2 } := by
  show execLeaseGo p s = _
  simp only [execLeaseGo, State.run, hp, Bool.true_eq_false, if_false, hx, huid, and_false]

theorem exec_leaseGo_refused (hp : s.chip.has p .ledger = false) :
    exec (.leaseGo p) s = .next { s with chip := s.chip.refuseTo p (Reg.Lease.LEASE_RESULT p) 3 } := by
  show execLeaseGo p s = _
  simp only [execLeaseGo, State.run, hp, if_true]

theorem runs_leaseGo_mismatch (hp : s.chip.has p .ledger = true)
    (hx : (s.chip.xch (s.chip.rd (Reg.Lease.LEASE_CELL p))).admitted = some uid)
    (huid : uid % 2 ^ 32 ≠ s.chip.rd (Reg.Lease.LEASE_UID p)) :
    Runs (.leaseGo p) s (fun t => t.chip.rd (Reg.Lease.LEASE_RESULT p) = 2 ∧ OnlyFields [Reg.Lease.LEASE_RESULT p] s t) :=
  ⟨_, exec_leaseGo_mismatch hp hx huid, Chip.rd_wr_self .., (OnlyFields.refl _ s).wr _ 2 (.head _)⟩

theorem runs_leaseGo_refused (hp : s.chip.has p .ledger = false) :
    Runs (.leaseGo p) s (fun t => t.chip.rd (Reg.Lease.LEASE_RESULT p) = 3 ∧ t.chip.pols = s.chip.pols) := by
  refine ⟨_, exec_leaseGo_refused hp, Chip.rd_refuseTo_self .., ?_⟩
  dsimp only
  rw [Chip.refuseTo, Chip.wr_pols, Chip.refuse_only]

end Lease

/-! ### The obligation -/

/-- Settles O13: a fence by its three acts, the age of a health estimate, the end of a bar, and the three answers to LEASE_GO. -/
theorem policyGuards : Obligations.PolicyGuards := by
  unfold Obligations.PolicyGuards
  refine ⟨fun _ _ => runs_socDisagreeTimeout, fun _ _ => does_socDisagreeTimeout_nothing, fun _ _ => runs_healthMaxAgeExpiry,
    runs_policyUnfenceHoldEnd, ?_, fun _ _ => runs_leaseGo_refused⟩
  intro p uid s a hp hx hadm
  refine ⟨fun huid hmode => ?_, fun huid hmode hq hl => ?_, runs_leaseGo_mismatch hp hx⟩
  · refine ⟨_, exec_leaseGo_applies hp hx hadm huid, Chip.rd_wr_self .., ?_, ?_, rfl, rfl⟩
    · rw [Chip.applyLease_pol]
    · rw [Chip.applyLease_pol]
      exact Chip.leaseQuota_replaces hmode a
  · refine ⟨_, exec_leaseGo_applies hp hx hadm huid, ?_⟩
    dsimp only
    rw [Chip.applyLease_pol]
    exact Chip.leaseQuota_adds hmode hq hl

end Sys2Proof.Machine
